-- ==== Sys2Proof/Word.lean ====
section
/-! DEFINITION. The words and bytes of the control bus and the tables. -/

namespace Sys2Proof

/-- A register is 32 bits wide (R19). -/
abbrev Word := BitVec 32

/-- A byte of a table, a frame or a message. -/
abbrev Byte := BitVec 8

end Sys2Proof
end

