-- ==== Sys2Proof/Syntax.lean ====
section
/-! DEFINITION. The commands of the block: one constructor for each row of spec/opcode_table.json, with its operands. -/

namespace Sys2Proof

/-- A lane: 0 to 95, and 96 to 99 the four cascade lanes (R309). -/
abbrev Lane := Fin 100
/-- A lane group. -/
abbrev Group := Fin 24
/-- A partition. -/
abbrev Part := Fin 16
/-- A Sepia core. -/
abbrev CoreN := Fin 32
/-- A tributary, by device number. -/
abbrev TribN := Fin 4096
/-- A window, by device number. -/
abbrev WinN := Fin 256
/-- A band-slicer engine, by device number. -/
abbrev SlcN := Fin 256
/-- A timing input. -/
abbrev InputN := Fin 16
/-- A timing output: 0 to 7 CLK_OUT, 8 and 9 PPS_OUT. -/
abbrev OutN := Fin 11
/-- A descriptor ring of a partition. -/
abbrev RingN := Fin 64
/-- A semaphore. -/
abbrev SemN := Fin 64
/-- A cascade port. -/
abbrev CasPort := Fin 2
/-- An HBM stack. -/
abbrev Stack := Fin 2
/-- A die position of a stack. -/
abbrev Die := Fin 12
/-- A general register of a core. -/
abbrev XReg := Fin 16
/-- A bus master (R462): 0 to 31 the cores, 32 + p the host side of partition p, 48 the cascade agent, 49 JTAG,
50 the digest engine, 51 the scrubber. -/
abbrev Master := Fin 52

/-- The snapshot mailboxes of the device (R457). -/
inductive Mailbox where
  | timeRd
  | timeLag
  | tribCnt
  | laneCnt (lane : Lane)
  | slcCnt (e : SlcN)
  | protCnt
  | hostCnt
  | casCnt
  | memCnt
  | perfCnt
  | dcoRd
  deriving DecidableEq, Repr

/-- A JTAG access (R419): a peek or a write of a register of the device view or of a byte of a table, or a debug access
of a core's register x[i] or CSR i. -/
inductive JtagAccess where
  | readReg (addr : BitVec 24)
  | writeReg (addr : BitVec 24) (value : Word)
  | readTable (off : BitVec 26) (len : Nat)
  | writeTable (off : BitVec 26) (data : List (Option Byte))
  | readCore (c : CoreN) (csr : Bool) (i : BitVec 8)
  | writeCore (c : CoreN) (csr : Bool) (i : BitVec 8) (value : Word)
  deriving DecidableEq, Repr

/-- The header of a block (R47). -/
inductive Hdr where
  | data
  | control
  | invalid
  deriving DecidableEq, Repr

/-- What a 100 us frequency measurement finds, in thousandths of a ppm: the lane's offset from the group clock, and the group clock's offset
from nominal (R89, R90). -/
structure Offsets where
  own : Int
  group : Int
  deriving DecidableEq, Repr

/-- The deskew store of a lane, and the fill in blocks that its phase asks for (R91). -/
structure DeskewFill where
  lane : Lane
  blocks : Int
  deriving DecidableEq, Repr

/-- A received codeword that is to be decoded: its lane and, on an Ethernet port, its corrected symbols, or none where it is uncorrectable
(R58, R119). -/
structure RsCodeword where
  lane : Lane
  eth : Option (Fin 16)
  deriving DecidableEq, Repr

/-- A measured symbol rate (R115): within 200 ppm of 105.703125, 52.8515625 or 26.42578125 GBd (with 2 or 4 eye
levels), of 106.25 GBd, or any other. -/
inductive SymRate where
  | b105
  | b52
  | b26 (levels4 : Bool)
  | b106
  | other
  deriving DecidableEq, Repr

/-- A release destination (R188, R355); its number is checked by WellFormed. -/
inductive Dest where
  | klf (lane : Nat)
  | eth (port : Nat)
  | capture (ring : Nat)
  | cascade (lane : Nat)
  deriving DecidableEq, Repr

/-- A group whose core samples lane defects: groups 0 to 23, and 24 and 25 the cascade ports (R309). -/
abbrev SampleG := Fin 26

/-- The commands. Each constructor is the row of the opcode table whose rule its line cites. DESIGN CHOICE: log entry 5. DESIGN CHOICE: log entry 172.
DESIGN CHOICE: log entry 196. -/
inductive Instr where
  /-- REGISTER_WRITE (R451): A write through any alias to a register that has no row of its own: plain, set, clear or toggle, with the C, B, RO, RS and sticky rules applied. -/
  | registerWrite (m : Master) (addr : BitVec 24) (len : Nat) (value : Word)
  /-- D_PAIR_FIRST_WRITE (R454): The first write of a D-class pair opens the pair for that master and starts its 1 us window. -/
  | dPairFirstWrite (m : Master) (addr : BitVec 24) (value : Word)
  /-- D_PAIR_TIMEOUT (R454): 1 us passes without the complement, so the pair fails and is logged once with cause 1. -/
  | dPairTimeout (m : Master) (row : Fin 19)
  /-- TABLE_WRITE (R450): A host or JTAG write into the BAR1 table aperture is split into 64-byte pieces and applied, refused or counted as a bank write. -/
  | tableWrite (m : Master) (off : BitVec 26) (data : List (Option Byte))
  /-- BUS_PIECE_GRANT (R464): A bus target port grants one waiting piece of up to 64 bytes by the arbitration rule of the current phase. -/
  | busPieceGrant (port : Fin 8) (requests : List Master)
  /-- JTAG_ACCESS (R419): A JTAG access reads or writes device state; a read is a side-effect-free peek and reports poison. -/
  | jtagAccess (a : JtagAccess)
  /-- MAILBOX_REQUEST (R457): A write to a mailbox request register clears valid and takes a snapshot of the selected item for that master. -/
  | mailboxRequest (m : Master) (mbx : Mailbox) (req : Word)
  /-- MAILBOX_SNAPSHOT_READY (R457): The snapshot of a mailbox request becomes ready and valid is set to 1. -/
  | mailboxSnapshotReady (m : Master) (mbx : Mailbox)
  /-- MAILBOX_LAST_READ (R457): A read of the highest-numbered value word of a mailbox returns the snapshot and clears valid, unless peek applies. -/
  | mailboxLastRead (m : Master) (mbx : Mailbox)
  /-- LAG_PROBE_REQUEST (R175): A TIME_LAG_REQ write snapshots a tributary's arrival-lag probe and restarts its tracking. -/
  | lagProbeRequest (m : Master) (req : Word)
  /-- LANE_DEF_IVL_READ (R114): A read of LANE_DEF_IVL by core g + 1 returns the defects seen in the interval and clears them. -/
  | laneDefIvlRead (m : Master) (lane : Lane)
  /-- DESKEW_STAT_READ (R93): A read of LANE_DSK_STAT returns fill_min and fill_max and resets both to the current fill. -/
  | deskewStatRead (m : Master) (lane : Lane)
  /-- ETH_UNMATCHED_READ (R167): A read of LANE_ETH_UNM returns the unmatched frame count and clears it. -/
  | ethUnmatchedRead (m : Master) (lane : Lane)
  /-- ACTION_MISS_READ (R182): A read of TIME_ACT_MISS returns the count of missed actions and clears it. -/
  | actionMissRead (m : Master)
  /-- URGENT_LOG_READ (R344): A read of HOST_URG_LOG returns the last urgent write and clears valid. -/
  | urgentLogRead (m : Master)
  /-- CTO_LOG_READ (R344): A read of HOST_CTO_LOG returns the last timed-out read and clears valid. -/
  | ctoLogRead (m : Master)
  /-- MEM_LOG_READ (R445): A read of MEM_LOG_1 returns the logged unit's location and clears valid. -/
  | memLogRead (m : Master)
  /-- BUSERR_LOG_READ (R461): A read of INTEG_BUSERR_1 or INTEG_DWLOG_1 returns the logged location and clears valid. -/
  | buserrLogRead (m : Master) (dw : Bool)
  /-- ERROR_COUNT_READ (R479): A read of INTEG_BUSERR_CNT or INTEG_DWLOG_CNT returns the error count and clears it. -/
  | errorCountRead (m : Master) (dw : Bool)
  /-- FIFO_COUNT_READ (R422): A read of SEP_FIFO_CNT returns the discarded, uncorrectable and corrected counts and clears all three. -/
  | fifoCountRead (m : Master) (c : CoreN)
  /-- VT_STAT_READ (R518): A read of PERF_VT_STAT returns the lost and skipped counts and clears both. -/
  | vtStatRead (m : Master)
  /-- PACE_EXTREME_READ (R518): A read of PERF_PACE_MAX or PERF_PACE_MIN returns the extreme pace and resets it to the current value. -/
  | paceExtremeRead (m : Master) (max : Bool)
  /-- SEM_ACQUIRE_READ (R480): A host read of SEM_ACQ_i requests semaphore i without waiting and returns the result. -/
  | semAcquireRead (p : Part) (k : SemN)
  /-- SEM_RELEASE_WRITE (R480): A host write of SEM_REL_i releases semaphore i and records the result in SEM_REL_RES. -/
  | semReleaseWrite (p : Part) (k : SemN) (value : Word)
  /-- PACE_WINDOW (R514): A 1 us pace-monitor window ends; PERF_PACE_NOW is updated, the adaptive supply is steered and over is judged. -/
  | paceWindow (periods : List (BitVec 16))
  /-- LOS_DECLARE (R94): The amplitude stays below los_thr for 1 us; LOS is set and the lane's interpolator, deskew and hunts stop. -/
  | losDeclare (lane : Lane)
  /-- LOS_CLEAR (R94): The amplitude stays at or above los_thr plus los_hyst for 100 us and LOS clears. -/
  | losClear (lane : Lane)
  /-- CDR_ACQUIRE (R88): The group CDR acquires the clock lane within 50 us of LOS clearing. -/
  | cdrAcquire (g : Group) (inRange : Bool)
  /-- CLOCK_LANE_RESELECT (R85): With clk_auto = 1, the clock lane moves to the lowest usable lane when the current one shows raw LOS or CDR loss. -/
  | clockLaneReselect (g : Group)
  /-- FREQ_MEASURE (R89): A 100 us frequency measurement of a lane ends; LOL is set or cleared. -/
  | freqMeasure (lane : Lane) (offsets : Offsets) (cdrLost : Bool) (fill : BitVec 9)
  /-- DESKEW_SLIP (R91): A deskew fill would leave 0 to 2 x centre; the store slips, LOL is raised and acquisition restarts. -/
  | deskewSlip (fill : DeskewFill)
  /-- RX_BLOCK (R96): A block is received and classified; the block and codeword hunt tables advance. Its line symbols are
  levels (R46), and its first line bit reached the receive balls at `arrival` (R92). -/
  | rxBlock (lane : Lane) (symbols : List (Fin 4)) (arrival : Nat)
  /-- RX_CODEWORD_DECODE (R58): In protected mode a received codeword is decoded as clean, corrected or uncorrectable. -/
  | rxCodewordDecode (cw : RsCodeword)
  /-- RX_MULTIFRAME_END (R98): A received multiframe ends; multiframe lock advances, overhead is validated and captured, and the record goes to the overhead FIFO. -/
  | rxMultiframeEnd (lane : Lane) (arrival : Nat)
  /-- NOTICE (R411): The last word of a record becomes visible to the reader and NOTICE is raised on the core. -/
  | notice (g : Group)
  /-- FEC_WINDOW_END (R103): An FEC statistics window ends; SD and SF are set or cleared. -/
  | fecWindowEnd (lane : Lane)
  /-- FORMAT_DETECT (R115): In auto mode the clock lane's symbol rate is measured and the family, rates and rx_fec are detected. -/
  | formatDetect (lane : Lane) (rate : SymRate)
  /-- FORMAT_DETECT_RETRY (R115): 1 ms after an unknown rate, detection starts again on the clock lane. -/
  | formatDetectRetry (g : Group)
  /-- DEFECT_SAMPLE (R109): At a 100 us sample, core g + 1 integrates lane defects into failures, drives BDI and reports failure changes. -/
  | defectSample (g : SampleG)
  /-- GROUP_ENABLE (R82): A write of GRP_CFG.en enables or disables a lane group; fabric quadrants and packet engines switch as needed. -/
  | groupEnable (m : Master) (g : Group) (value : Word)
  /-- LANE_ENABLE (R82): A write of LANE_CFG.en to 1 enables a lane, with raw LOS and LOL present. -/
  | laneEnable (lane : Lane)
  /-- LANE_DISABLE (R111): Disabling a lane clears its raw defects, counts and LANE_FAIL and raises one disable event. -/
  | laneDisable (lane : Lane)
  /-- FRAMING_START (R134): A transmit lane sends its first multiframe at the first grid instant at least 1 us after enable or restart. -/
  | framingStart (lane : Lane)
  /-- TX_MULTIFRAME_START (R73): At each transmit multiframe start the framer copies the page and evaluates or executes the swap. -/
  | txMultiframeStart (lane : Lane)
  /-- TX_SLOT (R135): The transmitter fills one slot with a head, grain, fill or trail block from the active bank. -/
  | txSlot (lane : Lane)
  /-- DEMAP_SLOT (R147): The demapper handles one received slot of a tributary: head, grain, fill or trail. -/
  | demapSlot (lane : Lane)
  /-- FABRIC_DELIVER (R36): The slot fabric multicasts an ingress grain to its consumers and counts losses at full queues. -/
  | fabricDeliver (t : TribN)
  /-- RELEASE_BUFFER_WRITE (R545): A grain is written into the release buffer, into a merge plane or into the HBM write queue. -/
  | releaseBufferWrite (t : TribN)
  /-- RELEASE_READ (R196): The release scheduler reads a grain for a destination, with merge selection, substitution and window blanking. -/
  | releaseRead (t : TribN) (d : Dest)
  /-- DEEP_PREFETCH (R203): A deep grain is read back from HBM into staging 16 us before its first read. -/
  | deepPrefetch (t : TribN)
  /-- TRIB_DEF_WINDOW_END (R149): A 1 ms defect window of a tributary ends and one TRIB_DEF event is raised. -/
  | tribDefWindowEnd (t : TribN)
  /-- TRIB_ENABLE (R127): A write of TRIB_CFG.en to 1 checks the configuration, parses the template or sets cfg_err. -/
  | tribEnable (t : TribN)
  /-- TRIB_DISABLE (R191): Clearing TRIB_CFG.en withdraws at once and discards every unreleased unit. -/
  | tribDisable (t : TribN)
  /-- CAL_COMMIT (R154): A write of LANE_CAL_CRC clears the bank's committed bit and starts its commit check. -/
  | calCommit (m : Master) (lane : Lane) (transmit : Bool) (bank : Bool) (crc : Word)
  /-- CAL_CHECK_DONE (R155): A calendar commit check ends with a result code and slot. -/
  | calCheckDone (lane : Lane) (transmit : Bool) (bank : Bool)
  /-- RX_BANK_SELECT (R161): With follow = 0, a write of rx_bank changes the receive bank at the next multiframe. -/
  | rxBankSelect (m : Master) (lane : Lane) (bank : Bool)
  /-- ETH_FRAME_RX (R120): A received Ethernet frame is checked and offered to a tributary, PTP, ESMC, or discarded and counted. -/
  | ethFrameRx (port : Lane) (bytes : List Byte) (arrival : Nat) (fecBad : Bool)
  /-- ESMC_QL_TIMEOUT (R278): 5 s without an ESMC information PDU fails the port's QL. -/
  | esmcQlTimeout (port : Lane)
  /-- ETH_PACKET_BUILD (R164): Once its last unit's release time has passed, a VITA 49.2 packet is built from the template and sent. -/
  | ethPacketBuild (t : TribN) (port : Lane)
  /-- TIME_STEP (R171): The TIME_WR_CTL operation step is accepted, refused or held pending. -/
  | timeStep (force : Bool)
  /-- TIME_SET (R171): The TIME_WR_CTL operation set is accepted, refused or held pending. -/
  | timeSet (force : Bool)
  /-- TIME_OP_EFFECT (R172): A pending step or set takes effect: framing restarts, held swaps drop, and forced admissions are voided. -/
  | timeOpEffect
  /-- WINDOW_ENABLE (R178): A write of WIN_CFG.en to 1 enables a window or is refused. -/
  | windowEnable (m : Master) (w : WinN)
  /-- CAL_SWAP_PLACE (R181): At the start minus 16 multiframes, the device places a transmit swap request for a CAL_SWAP action. -/
  | calSwapPlace (w : WinN)
  /-- CAL_SWAP (R181): A scheduled CAL_SWAP action fires. -/
  | calSwap (w : WinN)
  /-- PULSE_ALIGN (R294): A scheduled PULSE_ALIGN action realigns an output's grid. -/
  | pulseAlign (w : WinN)
  /-- EPOCH (R328): A scheduled EPOCH action activates a staged epoch on a stand-alone device. -/
  | epoch (w : WinN)
  /-- NCO_RESET (R218): A scheduled NCO_RESET action resets the slicer's phase and applies a staged word. -/
  | ncoReset (w : WinN)
  /-- PACE (R194): A scheduled PACE action requests a pace-mode change. -/
  | pace (w : WinN)
  /-- EVENT (R181): A scheduled EVENT action raises an event carrying its target. -/
  | event (w : WinN)
  /-- ADMIT (R188): The ADMIT command evaluates terms 1 to 9 and writes a 4-entry completion. -/
  | admitTrib (p : Part) (r : RingN)
  /-- ADMISSION_TAKES_EFFECT (R191): At act_time, or at the end of zeroing, an admission takes effect. -/
  | admissionTakesEffect (t : TribN)
  /-- WITHDRAW (R191): The WITHDRAW command schedules withdrawal of an admission at act_time. -/
  | withdraw (p : Part) (r : RingN)
  /-- WITHDRAW_TAKES_EFFECT (R191): At act_time the admission ends, slots carry fill and the allocation goes to zeroing. -/
  | withdrawTakesEffect (t : TribN)
  /-- ZEROING_DONE (R437): A region's zeroing ends and its pages or MiB enter the free pool. -/
  | zeroingDone (seq : Nat)
  /-- SLICER_ENABLE (R223): A write of SLC_CFG.en to 1 checks the engine's configuration or sets cfg_err. -/
  | slicerEnable (m : Master) (e : SlcN) (value : Word)
  /-- SLICER_DISABLE (R224): Clearing SLC_CFG.en stops the engine and clears its filter state. -/
  | slicerDisable (m : Master) (e : SlcN) (value : Word)
  /-- SLICER_INPUT (R214): An engine takes an input grain, positions its instants, mixes and filters them. -/
  | slicerInput (e : SlcN)
  /-- SLICER_OUTPUT (R231): An output grain, with gain, clamp, flags and requantisation applied, reaches the slot fabric. -/
  | slicerOutput (e : SlcN)
  /-- NCO_STAGE (R217): A write of SLC_NCO_HI stages the frequency word and applies it at once when now = 1. -/
  | ncoStage (m : Master) (e : SlcN) (value : Word)
  /-- COEF_COMMIT (R229): A write of SLC_COEF_CRC starts a commit check of a coefficient bank. -/
  | coefCommit (m : Master) (e : SlcN) (bank : Bool) (crc : Word)
  /-- COEF_CHECK_DONE (R229): A coefficient commit check ends with its result. -/
  | coefCheckDone (e : SlcN) (bank : Bool)
  /-- COEF_BANK_SELECT (R230): A write of SLC_CTL.coef_bank selects the active bank or is refused. -/
  | coefBankSelect (m : Master) (e : SlcN) (bank : Bool)
  /-- PROT (R249): The PROT command offers a protection command to core 28. -/
  | prot (p : Part) (r : RingN)
  /-- PROT_CMD_WRITE (R250): Core 28 writes PROT_MRG_CFG.cmd and the command completes. -/
  | protCmdWrite (p : Part) (r : RingN)
  /-- PROT_CMD_TIMEOUT (R250): 10 ms pass without core 28 taking the command, which completes with result 4. -/
  | protCmdTimeout (p : Part) (r : RingN)
  /-- HEARTBEAT_SEND (R255): Every 100 us a heartbeat frame is sent on PAIR_HB and the ring. -/
  | heartbeatSend
  /-- HEARTBEAT_RX (R256): A heartbeat frame is received whole and judged good, own-side or bad. -/
  | heartbeatRx (cascade : Bool) (frame : BitVec 96)
  /-- HEARTBEAT_PATH_LOSS (R256): hb_miss intervals pass without a good frame and the path is lost. -/
  | heartbeatPathLoss (cascade : Bool)
  /-- SAME_SIDE_EXPIRY (R258): 10 ms pass without an own-side frame and the same-side behaviour ends. -/
  | sameSideExpiry
  /-- CLAIM_VACANCY (R259): A standby with auto_claim starts a claim on vacancy. -/
  | claimVacancy
  /-- CLAIM_QUALIFIED (R260): The wire reads high for the qualification time, and the device drives it low and enters CLAIMING. -/
  | claimQualified
  /-- CLAIM_PROBE (R260): Side B releases the wire 10 us after driving it. -/
  | claimProbe
  /-- CLAIM_PROBE_SAMPLE (R260): Side B samples the wire 1.5 us into the release and backs off or drives again. -/
  | claimProbeSample (low : Bool)
  /-- CLAIM_ACTIVE (R260): 20 us after driving without back-off, the device becomes ACTIVE. -/
  | claimActive
  /-- CLAIM_FAULT (R261): The wire reads against its drive for 1 us, which sets claim_fault. -/
  | claimFault
  /-- ENABLE (R262): The PROT_PAIR_CTL operation ENABLE enables pairing. -/
  | enable
  /-- DISABLE (R262): The PROT_PAIR_CTL operation DISABLE disables pairing. -/
  | disable
  /-- HANDOVER (R263): The PROT_PAIR_CTL operation HANDOVER starts a planned handover at H. -/
  | handover
  /-- CLAIM (R259): The PROT_PAIR_CTL operation CLAIM starts a claim. -/
  | claim
  /-- STAND_DOWN (R262): The PROT_PAIR_CTL operation STAND_DOWN releases the role at once. -/
  | standDown
  /-- HANDOVER_INSTANT (R263): At H the yielding device releases its role and the standby's handover claim starts. -/
  | handoverInstant
  /-- HANDOVER_FAIL (R263): At H + 10 us with the wire still high, the old active device sets cmd_result 3 and claims. -/
  | handoverFail
  /-- ROLE_OUTPUT_ENABLE (R265): A role output is enabled or released at its low half-period. -/
  | roleOutputEnable (o : OutN)
  /-- CONTENTION_DETECT (R266): Contention is found on a role output, with side B releasing and a short classed in MGMT_IO_FAULT. -/
  | contentionDetect (o : OutN) (short : Bool)
  /-- REF_ACTIVITY_FAULT (R274): Two empty windows on a REF input disqualify it, and the hardware selects next. -/
  | refActivityFault (n : InputN)
  /-- PPS_EDGE (R275): A PPS input edge is stamped and measured. -/
  | ppsEdge (n : InputN) (milliPpm : Int)
  /-- PPS_ACTIVITY_FAULT (R274): No PPS edge within 1 s plus or minus 1 us disqualifies the input. -/
  | ppsActivityFault (n : InputN)
  /-- HOST_WATCHDOG_EXPIRY (R290): No REFSEL_DCO_WR_HI write for wdog_ms disqualifies input 15. -/
  | hostWatchdogExpiry
  /-- FREQ_MONITOR_MEASURE (R275): A 100 ms frequency measurement of an input advances qualification or disqualification. -/
  | freqMonitorMeasure (n : InputN) (milliPpm : Int)
  /-- QUALIFY_SOAK_END (R275): An input that stays clean for q_soak seconds becomes qualified. -/
  | qualifySoakEnd (n : InputN)
  /-- RANK_CANDIDATES (R279): Every 100 ms core 27 ranks the candidates, writes next and applies selection events. -/
  | rankCandidates
  /-- WAIT_TO_RESTORE_EXPIRY (R280): A higher-ranked candidate held for wtr seconds is selected. -/
  | waitToRestoreExpiry
  /-- DPLL_LOCK (R284): The phase error stays within thr_ns for lock_s seconds, giving LOCKED. -/
  | dpllLock (pherr : Int)
  /-- DPLL_LOCK_LOST (R284): The phase error exceeds 4 x thr_ns, which returns the state to ACQUIRING. -/
  | dpllLockLost (pherr : Int)
  /-- HISTORY_SAMPLE (R286): A 1 s DCO average enters the holdover history. -/
  | historySample
  /-- HOLDOVER_UPDATE (R287): Every 100 ms in HOLDOVER, d is predicted and TE is checked against the budget and max_h. -/
  | holdoverUpdate
  /-- FORCE_FREE_RUN (R285): Setting force_fr gives FREE_RUN with d := 0 and an invalid history. -/
  | forceFreeRun (m : Master)
  /-- FORCE_INPUT (R280): Setting force_en selects force_in only. -/
  | forceInput (m : Master) (n : InputN)
  /-- HISTORY_RESET (R286): A write to REFSEL_HIST invalidates the holdover history. -/
  | historyReset (m : Master) (value : Word)
  /-- DCO_SET (R290): REFSEL_DCO_WR_HI with op 0 sets d and resets the watchdog. -/
  | dcoSet (m : Master) (hi : Byte)
  /-- DCO_ADD (R290): REFSEL_DCO_WR_HI with op 1 adds to d with saturation and resets the watchdog. -/
  | dcoAdd (m : Master) (hi : Byte)
  /-- DCO_APPLY (R289): A changed d takes effect at the next whole 1 us of device time. -/
  | dcoApply
  /-- OUTPUT_ENABLE (R294): A write of REFSEL_OUT_CFG.en sets the output's grid at the first whole second at least 1 s later. -/
  | outputEnable (m : Master) (o : OutN)
  /-- OUTPUT_ALIGNED (R294): An output reaches its new grid after lengthening its low level. -/
  | outputAligned (o : OutN)
  /-- TOD_TX_MESSAGE (R297): 1 ms after a PPS_OUT0 edge, a 16-byte ToD message is sent. -/
  | todTxMessage
  /-- TOD_RX_MESSAGE (R298): A ToD message is received whole, checked and applied to input 4. -/
  | todRxMessage (bytes : List Byte)
  /-- TOD_RX_STALE (R276): 2 s without a good ToD message fail input 4's QL and set rx_stale. -/
  | todRxStale
  /-- CASCADE_CELL_RX (R315): A control cell is received, checked and assembled into a message. -/
  | cascadeCellRx
  /-- DISCOVER (R318): A DISCOVER message assigns a provisional node or ends the manager's enumeration. -/
  | discover
  /-- TIME_DIST (R319): A TIME_DIST message updates hops, reachability, numbering and clash. -/
  | timeDist
  /-- TT_STAMP (R321): A TT_STAMP message gives the neighbour's reverse differences for the hop offset. -/
  | ttStamp
  /-- REPORT (R330): The leading manager consumes a worker's REPORT message. -/
  | report
  /-- PROPOSE (R327): The CAS_CTL operation PROPOSE is accepted or refused; a received PROPOSE records E and T. -/
  | propose (ring : Bool)
  /-- DECIDE (R328): A DECIDE message arms the worker or aborts its pending epoch. -/
  | decide
  /-- RING (R319): A RING message reports a port down or up. -/
  | ring
  /-- MSG (R314): A MSG message passes 128 bits of software data. -/
  | msg
  /-- TIME_DIST_SEND (R319): Every 100 us the leading manager sends TIME_DIST out of both ports. -/
  | timeDistSend
  /-- TT_STAMP_SEND (R320): Every 16 multiframes a port's core sends TT_STAMP. -/
  | ttStampSend (port : CasPort)
  /-- REPORT_SEND (R330): At each whole millisecond a worker samples its state and sends REPORT. -/
  | reportSend
  /-- PROPOSE_SEND (R328): Every 1 ms until C the manager sends PROPOSE. -/
  | proposeSend
  /-- COMMIT_POINT (R328): At C the manager decides GO or ABORT. -/
  | commitPoint
  /-- DECIDE_SEND (R328): Every 100 us from C to T - 1 ms the manager sends DECIDE. -/
  | decideSend
  /-- EPOCH_ACTIVATE (R326): At T an armed device activates E, swaps the reference and releases waiting commands. -/
  | epochActivate
  /-- PAIR_EPOCH_FOLLOW (R329): A stand-alone standby activates a staged E after a heartbeat shows the active peer at E. -/
  | pairEpochFollow
  /-- ENUMERATE (R318): The CAS_CTL operation ENUMERATE starts a numbering of the ring. -/
  | enumerate
  /-- ENUM_TIMEOUT (R318): No DISCOVER return within 1 ms, which sets enum_res to 10. -/
  | enumTimeout
  /-- CANCEL (R328): The CAS_CTL operation CANCEL sends ABORT before C, or is refused. -/
  | cancel
  /-- ADOPT (R329): The CAS_CTL operation ADOPT activates the manager's epoch at once. -/
  | adopt
  /-- AGREEMENT_JUDGE (R331): At b + 500 us the manager judges every node's agreement. -/
  | agreementJudge
  /-- REACH_TIMEOUT (R319): 500 us without TIME_DIST make a port unreachable and may change the upstream port. -/
  | reachTimeout (port : CasPort)
  /-- UPSTREAM_REVERT (R319): The other port has had fewer hops for 1 s, so the upstream port changes. -/
  | upstreamRevert
  /-- LEAD_TAKEOVER (R308): A non-leading manager takes the lead after 2 ms without TIME_DIST from the leader. -/
  | leadTakeover
  /-- GO_SET (R343): A write of HOST_CTL.go = 1 evaluates and accepts or refuses the feature set. -/
  | goSet (m : Master)
  /-- GO_CLEAR (R343): A write of go = 0 takes effect only while every ring is disabled and idle. -/
  | goClear (m : Master)
  /-- RING_ENABLE (R349): A write of HOST_RING_CFG.en = 1 enables a ring or refuses it with err 4. -/
  | ringEnable (m : Master) (r : RingN) (value : Word)
  /-- RING_DISABLE (R349): Clearing en stops fetching, completes and closes held work, and then clears busy. -/
  | ringDisable (m : Master) (r : RingN) (value : Word)
  /-- DOORBELL (R347): A doorbell write sets the host index, or stops the ring with err 3. -/
  | doorbell (p : Part) (off : BitVec 16) (len : Nat) (value : BitVec 64)
  /-- DESCRIPTOR_FETCH (R347): The device fetches descriptors of a host-producer ring when operations and room allow. -/
  | descriptorFetch (p : Part) (r : RingN)
  /-- READ_COMPLETION (R371): A completion for a device read arrives and is delivered, discarded or counted. -/
  | readCompletion (tag : BitVec 14) (status : BitVec 2) (data : List Byte)
  /-- READ_TIMEOUT (R371): A device read times out after cto_us, is logged, and its tag is quarantined. -/
  | readTimeout (tag : BitVec 14)
  /-- TAG_QUARANTINE_EXPIRY (R372): 4 x cto_us after a timeout the quarantined tag is released. -/
  | tagQuarantineExpiry (tag : BitVec 14)
  /-- RING_ENTRY_WRITE (R348): The device writes an entry into a device-producer ring once there is room. -/
  | ringEntryWrite (p : Part) (r : RingN)
  /-- IRQ_HOLDOFF_EXPIRY (R351): The oldest unsignalled entry reaches holdoff_us and the MSI-X message is sent. -/
  | irqHoldoffExpiry (p : Part) (r : RingN)
  /-- NOP (R354): The NOP command completes at once. -/
  | nop (p : Part) (r : RingN)
  /-- SEND_FRAME (R354): The SEND_FRAME command reads a frame from host memory and queues it on a port. -/
  | sendFrame (p : Part) (r : RingN)
  /-- FRAME_SENT (R357): The frame of SEND_FRAME leaves and its completion carries the transmit stamp. -/
  | frameSent (p : Part) (r : RingN)
  /-- WAIT_EPOCH (R356): The WAIT_EPOCH command holds its ring until E activates, completes, or stops the ring. -/
  | waitEpoch (p : Part) (r : RingN)
  /-- STOP_TRIB (R354): The STOP_TRIB ring command clears TRIB_CFG.en. -/
  | stopTrib (p : Part) (r : RingN)
  /-- MUTE_LANE (R354): The MUTE_LANE ring command sets LANE_CFG.tx_idle. -/
  | muteLane (p : Part) (r : RingN)
  /-- CAPTURE_HALT (R354): The CAPTURE_HALT ring command stops a capture ring. -/
  | captureHalt (p : Part) (r : RingN)
  /-- RESERVED_COMMAND (R354): A command with a reserved op completes with status 1. -/
  | reservedCommand (p : Part) (r : RingN)
  /-- URGENT_STOP_TRIB (R358): The urgent STOP_TRIB clears TRIB_CFG.en within 2 us. -/
  | urgentStopTrib (p : Part) (target : BitVec 12)
  /-- URGENT_MUTE_LANE (R358): The urgent MUTE_LANE sets tx_idle within 2 us. -/
  | urgentMuteLane (p : Part) (target : BitVec 12)
  /-- URGENT_CAPTURE_HALT (R358): The urgent CAPTURE_HALT stops a capture ring within 2 us. -/
  | urgentCaptureHalt (p : Part) (target : BitVec 12)
  /-- URGENT_IGNORED (R359): An urgent write with a bad complement, target, op or feature is ignored and logged. -/
  | urgentIgnored (p : Part) (value : BitVec 64) (whole : Bool)
  /-- CAPTURE_STAGE (R361): A released unit enters capture staging and is written into the current buffer. -/
  | captureStage (t : TribN) (r : RingN)
  /-- CAPTURE_FLUSH_EXPIRY (R361): flush_us after its first unit, a capture buffer closes with its record. -/
  | captureFlushExpiry (p : Part) (r : RingN) (index : BitVec 16)
  /-- PLAYBACK_READ (R367): At release time minus E_adv minus P, the device issues a playback data read. -/
  | playbackRead (p : Part) (r : RingN)
  /-- PLAYBACK_RECORD (R368): When all units of a playback buffer are read or abandoned, its record is written. -/
  | playbackRecord (p : Part) (r : RingN)
  /-- FUNCTION_LEVEL_RESET (R376): A function-level reset of a partition drops its writes and disables its rings and resources. -/
  | functionLevelReset (p : Part)
  /-- HOT_RESET (R375): A PCI Express hot reset or link down disables every partition's rings. -/
  | hotReset
  /-- BUS_MASTER_DISABLE (R341): Bus Master Enable goes to 0, or the function enters D3hot, and requests stop. -/
  | busMasterDisable (p : Part) (d3hot : Bool)
  /-- ADD (R390): rd := ra + rb. -/
  | add (c : CoreN) (rd ra rb : XReg)
  /-- SUB (R390): rd := ra - rb. -/
  | sub (c : CoreN) (rd ra rb : XReg)
  /-- AND (R390): rd := ra and rb. -/
  | and (c : CoreN) (rd ra rb : XReg)
  /-- OR (R390): rd := ra or rb. -/
  | or (c : CoreN) (rd ra rb : XReg)
  /-- XOR (R390): rd := ra xor rb. -/
  | xor (c : CoreN) (rd ra rb : XReg)
  /-- SHL (R390): rd := ra shifted left by rb[4:0]. -/
  | shl (c : CoreN) (rd ra rb : XReg)
  /-- SHR (R390): rd := ra shifted right by rb[4:0] with zero fill. -/
  | shr (c : CoreN) (rd ra rb : XReg)
  /-- SRA (R390): rd := ra shifted right by rb[4:0] with sign fill. -/
  | sra (c : CoreN) (rd ra rb : XReg)
  /-- MUL (R390): rd := low 32 bits of ra x rb. -/
  | mul (c : CoreN) (rd ra rb : XReg)
  /-- SLT (R390): rd := 1 when ra < rb signed, else 0. -/
  | slt (c : CoreN) (rd ra rb : XReg)
  /-- SLTU (R390): rd := 1 when ra < rb unsigned, else 0. -/
  | sltu (c : CoreN) (rd ra rb : XReg)
  /-- ADDI (R390): rd := ra + sext(imm). -/
  | addi (c : CoreN) (rd ra : XReg) (imm : BitVec 18)
  /-- ANDI (R390): rd := ra and zext(imm). -/
  | andi (c : CoreN) (rd ra : XReg) (imm : BitVec 18)
  /-- ORI (R390): rd := ra or zext(imm). -/
  | ori (c : CoreN) (rd ra : XReg) (imm : BitVec 18)
  /-- XORI (R390): rd := ra xor zext(imm). -/
  | xori (c : CoreN) (rd ra : XReg) (imm : BitVec 18)
  /-- SHLI (R390): rd := ra shifted left by imm[4:0]. -/
  | shli (c : CoreN) (rd ra : XReg) (sh : BitVec 5)
  /-- SHRI (R390): rd := ra shifted right by imm[4:0] with zero fill. -/
  | shri (c : CoreN) (rd ra : XReg) (sh : BitVec 5)
  /-- SRAI (R390): rd := ra shifted right by imm[4:0] with sign fill. -/
  | srai (c : CoreN) (rd ra : XReg) (sh : BitVec 5)
  /-- LUI (R390): rd := imm[13:0] << 18. -/
  | lui (c : CoreN) (rd : XReg) (imm : BitVec 14)
  /-- LDW (R390): A word is loaded from ra + off. -/
  | ldw (c : CoreN) (rd ra : XReg) (off : BitVec 18)
  /-- LDH (R390): A zero-extended half-word is loaded. -/
  | ldh (c : CoreN) (rd ra : XReg) (off : BitVec 18)
  /-- LDB (R390): A zero-extended byte is loaded. -/
  | ldb (c : CoreN) (rd ra : XReg) (off : BitVec 18)
  /-- STW (R390): A word is stored through the write buffer. -/
  | stw (c : CoreN) (rs ra : XReg) (off : BitVec 18)
  /-- STH (R390): A half-word is stored through the write buffer. -/
  | sth (c : CoreN) (rs ra : XReg) (off : BitVec 18)
  /-- STB (R390): A byte is stored through the write buffer. -/
  | stb (c : CoreN) (rs ra : XReg) (off : BitVec 18)
  /-- BEQ (R390): The core branches when ra = rb. -/
  | beq (c : CoreN) (ra rb : XReg) (off : BitVec 18)
  /-- BNE (R390): The core branches when ra differs from rb. -/
  | bne (c : CoreN) (ra rb : XReg) (off : BitVec 18)
  /-- BLT (R390): The core branches when ra < rb, signed. -/
  | blt (c : CoreN) (ra rb : XReg) (off : BitVec 18)
  /-- BGE (R390): The core branches when ra >= rb, signed. -/
  | bge (c : CoreN) (ra rb : XReg) (off : BitVec 18)
  /-- JMP (R390): pc := pc + 4 x off. -/
  | jmp (c : CoreN) (off : BitVec 26)
  /-- CALL (R390): x15 := pc + 4, then the core jumps. -/
  | call (c : CoreN) (off : BitVec 26)
  /-- JR (R390): pc := ra. -/
  | jr (c : CoreN) (ra : XReg)
  /-- CSRR (R388): A CSR is read into rd. -/
  | csrr (c : CoreN) (rd : XReg) (csr : BitVec 8)
  /-- CSRW (R388): A CSR is written from ra. -/
  | csrw (c : CoreN) (ra : XReg) (csr : BitVec 8)
  /-- SLOCK (R417): The core requests a semaphore, with or without waiting. -/
  | slock (c : CoreN) (rd : XReg) (k : SemN) (nowait : Bool)
  /-- SFREE (R417): The core releases a semaphore. -/
  | sfree (c : CoreN) (rd : XReg) (k : SemN)
  /-- ATOM_BEGIN (R398): The core drains the write buffer and opens an atomic sequence. -/
  | atomBegin (c : CoreN)
  /-- ATOM_END (R398): All held stores of the atomic sequence are committed at once. -/
  | atomEnd (c : CoreN)
  /-- FENCE (R397): The core waits until the write buffer is empty. -/
  | fence (c : CoreN)
  /-- WAIT (R401): The core drains and waits for a selected event. -/
  | wait (c : CoreN) (rd : XReg) (mask : BitVec 7)
  /-- TRAP (R392): The TRAP instruction raises cause 0x08 with imm. -/
  | trap (c : CoreN) (imm : BitVec 18)
  /-- RETT (R394): The core returns from a trap. -/
  | rett (c : CoreN)
  /-- HALT (R390): The core halts as a debug halt. -/
  | halt (c : CoreN)
  /-- ILLEGAL_OPCODE (R391): An unlisted opcode, or a non-zero required-zero field, raises ILLEGAL. -/
  | illegalOpcode (c : CoreN) (word : Word)
  /-- EVENT_TRAP (R393): A pending enabled event is taken between instructions as an EVENT trap. -/
  | eventTrap (c : CoreN)
  /-- WAIT_WAKE (R401): A selected event arrives for a waiting core; WAIT returns and clears the event bits. -/
  | waitWake (c : CoreN)
  /-- SEMAPHORE_GRANT (R417): A released semaphore is granted to the next waiter in the same handshake. -/
  | semaphoreGrant (k : SemN)
  /-- WRITE_BUFFER_DRAIN (R396): A buffered store drains to its target, with a BUS trap on an error response. -/
  | writeBufferDrain (c : CoreN)
  /-- CORE_TICK (R401): Device time reaches a multiple of TICK_US and TICK is set in EVPEND. -/
  | coreTick (c : CoreN)
  /-- MBOX_WRITE (R401): A write of SEP_MBOX_IN raises MBOX on the core. -/
  | mboxWrite (m : Master) (c : CoreN) (value : Word)
  /-- FIFO_DATA (R412): A load of FIFO_DATA returns the word at rd and advances it, stalling while none is available. -/
  | fifoData (c : CoreN) (rd : XReg) (errs : Fin 3)
  /-- FIFO_MARK (R412): A store to FIFO_MARK sets mark := rd. -/
  | fifoMark (c : CoreN)
  /-- FIFO_REWIND (R412): A store to FIFO_REWIND sets rd := mark. -/
  | fifoRewind (c : CoreN)
  /-- FIFO_RELEASE (R412): A store to FIFO_RELEASE frees words before rd. -/
  | fifoRelease (c : CoreN)
  /-- CK_START (R403): A store to CK_START latches the check-unit settings and loads I. -/
  | ckStart (c : CoreN) (fixedUnit : Bool)
  /-- CK_DATA (R404): A store to CK_DATA feeds bytes into the CRC. -/
  | ckData (c : CoreN) (fixedUnit : Bool) (bytes : List Byte)
  /-- CK_RESULT_LOAD (R404): A load of CK_RES waits for earlier data and returns the result. -/
  | ckResultLoad (c : CoreN) (fixedUnit hi : Bool) (rd : XReg)
  /-- HALT_REQUEST (R420): A halt request by halt_req or JTAG halts the core per its state, or defers the halt. -/
  | haltRequest (c : CoreN)
  /-- FORCED_HALT (R420): 256 steps without ATOM_END force the halt, discard the sequence and abandon the semaphores. -/
  | forcedHalt (c : CoreN)
  /-- RESUME (R421): A write of resume resumes a halted core at DPC. -/
  | resume (c : CoreN)
  /-- STEP (R421): A write of step executes one instruction of a halted core. -/
  | step (c : CoreN)
  /-- BREAKPOINT (R420): A breakpoint halts the core before its instruction. -/
  | breakpoint (c : CoreN)
  /-- CORE_ENABLE (R381): The D-class write of SEP_CTL.en = 1 releases a core from reset. -/
  | coreEnable (c : CoreN)
  /-- CORE_RESET (R400): SEP_CTL.en goes from 1 to 0 and the core is reset, with its semaphores abandoned. -/
  | coreReset (c : CoreN)
  /-- SCRUB_READ (R440): The scrubber reads the next unit of a class, correcting or poisoning it. -/
  | scrubRead (cls : Fin 3) (upset : BitVec 72) (raced : Bool)
  /-- SCRUB_LAP_OVER (R441): A lap runs over its target, which sets over and raises a MEM event. -/
  | scrubLapOver (cls : Fin 3)
  /-- POISON_FILL_DONE (R427): The poison fill of a powered class T memory completes. -/
  | poisonFillDone (d : Fin 149)
  /-- DIE_THRESHOLD_INTERVAL (R432): A 1 s interval ends, and a die whose corrections reached die_thr is marked failed. -/
  | dieThresholdInterval
  /-- HBM_DIE_FAIL_REPORT (R432): The HBM controller reports a die failed, and the die is marked. -/
  | hbmDieFailReport (st : Stack) (die : Die)
  /-- STACK_LOST (R433): A fatal HBM failure, second die or thermal trip declares the stack lost. -/
  | stackLost (st : Stack)
  /-- MARK_DIE (R445): The MEM_HBM_CTL operation MARK_DIE marks a die failed. -/
  | markDie (st : Stack) (die : Die)
  /-- CLEAR_DIES (R432): The MEM_HBM_CTL operation CLEAR_DIES clears the die marks of an empty stack. -/
  | clearDies (st : Stack) (die : Die)
  /-- RESTORE (R433): The MEM_HBM_CTL operation RESTORE returns a lost stack to service empty. -/
  | restore (st : Stack) (die : Die)
  /-- MEM_EVENT_WINDOW_END (R444): A 1 ms MEM event window ends and one MEM event is raised. -/
  | memEventWindowEnd (p : Part) (cls : Fin 3) (happening : Fin 16)
  /-- DIGEST_LAP_END (R471): A digest lap ends; the result is compared and DIGEST is set or cleared. -/
  | digestLapEnd
  /-- DIGEST_COMMIT (R472): The D-class write of INTEG_DIG_REF commits a reference and restarts the lap. -/
  | digestCommit (value : Word)
  /-- DUSK (R465): The GLB_PHASE_CTL operation DUSK enters and holds DUSK. -/
  | dusk
  /-- DAY (R465): The GLB_PHASE_CTL operation DAY returns the device to DAY. -/
  | day
  /-- NIGHT (R465): The GLB_PHASE_CTL operation NIGHT enters NIGHT when nothing is admitted. -/
  | night
  /-- DUSK_HOLD_EXPIRY (R465): dusk_hold_ms without a new cause returns the device to DAY. -/
  | duskHoldExpiry
  /-- POWER_ON_RESET (R489): A supply monitor asserts power-on reset. -/
  | powerOnReset
  /-- POWER_ON_RESET_RELEASE (R489): 2 ms after the last supply is within limits, reset is released, straps are sampled and boot starts. -/
  | powerOnResetRelease
  /-- PERST_ASSERT (R489): PERST_N goes low and the device enters reset. -/
  | perstAssert
  /-- PERST_RELEASE (R489): PERST_N rises and the device leaves reset in DAWN. -/
  | perstRelease
  /-- SOFT_RESET (R489): The D-class write of BOOT_RESET performs a soft device reset. -/
  | softReset
  /-- BOOT_WATCHDOG (R486): 120 s pass before BOOT_DONE and a boot-watchdog reset follows. -/
  | bootWatchdog
  /-- LANE_GROUP_RESET (R489): A write of a bit of PWR_GRP_RST resets a lane group's datapath. -/
  | laneGroupReset (g : Group)
  /-- HOST_IMAGE_GO (R482): A write of BOOT_HOST_IMG_GO starts the fetch of the boot image from host memory. -/
  | hostImageGo (m : Master) (value : Word)
  /-- IMAGE_AUTHENTICATE (R485): After the last image byte, the key hash, secver and signature are checked. -/
  | imageAuthenticate (image : Option (List Byte))
  /-- BOOT_DONE (R485): Core 0 writes BOOT_CTL.done; the map is checked and the phase becomes DAY. -/
  | bootDone
  /-- BOOT_REBOOT (R488): The D-class write of BOOT_REBOOT starts a warm re-boot of core 0. -/
  | bootReboot
  /-- OFF (R492): The PWR_DOM_CTL operation OFF switches a unit's domains off or is refused. -/
  | off (unit : Byte)
  /-- ON (R492): The PWR_DOM_CTL operation ON switches a unit's domains on. -/
  | on (unit : Byte)
  /-- SR (R492): The PWR_DOM_CTL operation SR puts an HBM stack into self-refresh. -/
  | sr (unit : Byte)
  /-- UNIT_READY (R493): A switched-on unit becomes ready after its calibration or zeroing time. -/
  | unitReady (unit : Byte)
  /-- PACE_CHANGE (R495): The D-class write of PWR_PACE_CTL requests a pace-mode change and re-evaluates admission. -/
  | paceChange (efficient force : Bool)
  /-- PACE_RAMP_DONE (R495): The supply ramp settles and the pace mode and admission figures complete their change. -/
  | paceRampDone
  /-- THERMAL_ALARM (R496): The junction temperature reaches alarm_thr and raises the thermal alarm source. -/
  | thermalAlarm (tj : BitVec 16)
  /-- THERMAL_TRIP (R496): At 125 C the device resets its outputs and holds itself in reset. -/
  | thermalTrip
  /-- LAST_GASP (R499): PWRFAIL_N is low for 100 ns; alarm, host last-gasp events and the cascade MSG follow. -/
  | lastGasp
  /-- PWRFAIL_RISE (R486): PWRFAIL_N rises and boot starts 10 ms later. -/
  | pwrfailRise
  /-- I2C_TARGET_READ (R500): An I2C read transfer returns a BAR0 register as partition 0's host side. -/
  | i2cTargetRead (addr : BitVec 24)
  /-- I2C_TARGET_WRITE (R500): An I2C write transfer writes a BAR0 register, or is NACKed without wr_en. -/
  | i2cTargetWrite (addr : BitVec 24) (value : Word)
  /-- I2C_ARBITRATION_LOST (R501): The controller loses arbitration, waits and retries, failing after 8 losses. -/
  | i2cArbitrationLost
  /-- I2C_STUCK (R501): SCL is held low for 25 ms; the controller clocks 9 pulses and sets stuck. -/
  | i2cStuck
  /-- SENSOR_POLL (R502): Every 100 ms the board sensor is read into MGMT_SENS_VAL. -/
  | sensorPoll (value : Option (BitVec 16))
  /-- LEDGER_LOAD (R504): After BOOT_DONE core 0 reads the ledger and counts the power-on. -/
  | ledgerLoad
  /-- LEDGER_WRITE (R504): After every 60 min powered, core 0 writes the next ledger slot. -/
  | ledgerWrite
  /-- AVS_REQUEST (R525): The device sends a VDD_CORE voltage request on AVSBus. -/
  | avsRequest
  /-- AVS_TIMEOUT (R525): A request goes unacknowledged for 100 us and is repeated, setting timeout after 3 repeats. -/
  | avsTimeout
  /-- PERF_CLEAR (R518): A write of PERF_CTL.clear zeroes all 16 counters at one instant. -/
  | perfClear (m : Master) (value : Word)
  /-- COUNTER_ENABLE (R509): Setting PERF_CNT_CFG.en zeroes and starts a counter. -/
  | counterEnable (m : Master) (k : BitVec 4) (value : Word)
  /-- TELEMETRY_RECORD (R516): At each period boundary a telemetry record is written or dropped. -/
  | telemetryRecord (p : Part) (r : RingN)
  /-- WINDOW_OCCURRENCE_EDGE (R178): Device time reaches the start or end of an occurrence of a blank or capture-gate window, so WIN_CFG.state moves among armed, open and done and WIN_COUNT.left counts down. -/
  | windowOccurrenceEdge (w : WinN)
  /-- ACTIVITY_FAULT_CLEAR (R274): A REF input's activity window ends with an edge in it, so its activity fault clears and qualification may begin again. -/
  | activityFaultClear (n : InputN)
  /-- TIME_TRANSFER_TIMEOUT (R323): 500 us pass with no valid time-transfer result on the upstream port, so input 14 has an activity fault and is disqualified. -/
  | timeTransferTimeout
  /-- INTACT_TIMEOUT (R319): The manager's own TIME_DIST does not return on both ports within 200 us, so intact is cleared and auto_enum may start an enumeration. -/
  | intactTimeout
  /-- BUILD_OUT_REMOVED (R282): The slew of a time_align input's build-out reaches 0, so slewing clears and the time bit of ql_out may become 1. -/
  | buildOutRemoved
  /-- CLAIM_WIRE_CHANGE (R260): ACTIVE_CLAIM_N changes level at the ball, which restarts a qualification or, when it reads low undriven with no peer holding, sets claim_fault. -/
  | claimWireChange (high : Bool)
  /-- BUS_MASTER_ENABLE (R341): Bus Master Enable returns to 1, or the function returns to D0, so held records, events and pending MSI-X messages go out and fetching resumes. -/
  | busMasterEnable (p : Part) (d0 : Bool)
  /-- LINK_UP (R337): The PCI Express link trains to L0, possibly at a new rate or width, so HOST_LINK updates and alarm source 10 clears. -/
  | linkUp (rate : Fin 6) (width : Fin 5) (flit : Bool)
  /-- ETH_ALIGNMENT_CHANGE (R121): An Ethernet port gains or loses alignment-marker lock or PCS alignment, or begins or stops receiving local or remote fault. -/
  | ethAlignmentChange (port : Lane) (amLock aligned localFault remoteFault : Bool)
  /-- AVS_RESPONSE (R525): The VDD_CORE regulator acknowledges an AVSBus request, or returns an error status that sets nak. -/
  | avsResponse (ok : Bool)
  /-- TRST_N_CHANGE (R537): TRST_N changes, so the test logic and domain 4 come out of or go into reset, creating or removing the JTAG clock domain. -/
  | trstNChange (high : Bool)
  /-- TRANSMIT_SYSTEM_CLOCK_LOST (R39): The transmit/system domain loses its clock and the device is in reset. -/
  | transmitSystemClockLost
  deriving DecidableEq, Repr

end Sys2Proof
end

