-- ==== Sys2Proof/Decode.lean ====
section
/-! DEFINITION. The command that a word of the opcode table spells. -/

namespace Sys2Proof

/-- The command of a word of `nbits` bits. spec/opcode_table.json gives none of its rows any bits, so no word spells a command.
DESIGN CHOICE: log entry 3. -/
def decodeTableWord (nbits w : Nat) : Option Instr :=
  let _ := (nbits, w)
  none

end Sys2Proof
end

