-- ==== Sys2Proof/Config.lean ====
section
/-! DEFINITION. What an implementation fixes and the values the spec leaves open: each is a constant without a body, so no
proof can lean on one (the assumption log names each). -/

namespace Sys2Proof.Config

/-- A fresh undefined value, by the model's counter of them. DESIGN CHOICE: log entry 10. -/
opaque freeValue : Nat → BitVec 64

/-- A fresh undefined choice between two outcomes the spec allows. DESIGN CHOICE: log entry 11. -/
opaque freeBool : Nat → Bool

/-- The fraction bits of the 24-bit I and Q between slicer stages (R209), which the spec does not state. DESIGN CHOICE: log entry 12. -/
opaque slcFraction : Nat

/-- What a value outside 24 bits becomes between slicer stages, which the spec does not state. DESIGN CHOICE: log entry 13. -/
opaque slcOverflow : Int → Int

/-- The direction in which a tie of a rounding to nearest goes, where the spec does not state it, by the number to be rounded.
DESIGN CHOICE: log entry 14. -/
opaque tieUp : Int → Bool

/-- Whether a slicer's output instant that is no multiple of 2^-16 ns is rounded up, by the instant in 2^-33 ns (R222). DESIGN CHOICE: log
entry 20. DESIGN CHOICE: log entry 20. -/
opaque instantUp : Int → Bool

/-- Whether an entry of the slicers' sine and cosine tables (R216) is the 18-bit value above or below the exact one. DESIGN CHOICE: log entry 15. -/
opaque tableUp : Nat → Bool

/-- Whether a power domain (a slicer cluster, the protection merge unit, the host DMA engine or a cascade port) is routed to a slot
fabric quadrant (R42), which the spec does not state. DESIGN CHOICE: log entry 16. -/
opaque routed : Nat → Nat → Bool

/-- The bank, modulo 96, of a class B location with a number of powered banks: allocations are striped across the powered banks (R200) in a
way the spec does not state. DESIGN CHOICE: log entry 204. -/
opaque bankOf : Nat → Nat → Nat

/-- The words of the boot ROM (R383), whose content the spec does not state. DESIGN CHOICE: log entry 17. -/
opaque romWord : Nat → BitVec 32

/-- The SHA-384 of bytes, a function the spec names and does not define (R484). DESIGN CHOICE: log entry 18. -/
opaque sha384 : List (BitVec 8) → Nat

/-- Whether a signature (96 bytes) over a hash verifies under a public key (96 bytes), by ECDSA P-384 (R484). DESIGN CHOICE: log entry 19. -/
opaque ecdsaP384 : List (BitVec 8) → Nat → List (BitVec 8) → Bool

end Sys2Proof.Config
end

