-- ==== Sys2Proof/Machine/RegMap.lean ====
section
/-! DEFINITION. The register map: every register of BAR0 the spec tables (R18, R447), its address, its fields with
their access codes, reset values and legal ranges, and one name per field. Written from the register tables of spec/. -/

namespace Sys2Proof.Machine

/-- The access codes of R18, with the sticky bits of R453 as a code of their own. -/
inductive Acc where
  | rw | ro | cfg | dng | boot | rs | sticky
  deriving DecidableEq, Repr

/-- Who has a register: one copy in each partition's view, one copy in partition 0's view only, one copy every view
reads, or one copy in the view of the owner of the resource (R447, R474). -/
inductive Scope where
  | part | p0 | dev | owner
  deriving DecidableEq, Repr

/-- A field of a register table: bits [hi:lo], access code, reset value, and the least and greatest legal value
(a value outside is a reserved encoding, R17). -/
structure FieldDesc where
  hi : Nat
  lo : Nat
  acc : Acc
  reset : Nat
  least : Nat
  greatest : Nat
  deriving DecidableEq, Repr

/-- A register table's register: its offset in its window and, for an array, how many and how far apart. -/
structure RegDesc where
  name : String
  scope : Scope
  off : Nat
  count : Nat
  stride : Nat
  fields : List FieldDesc
  deriving DecidableEq, Repr

/-- A named field of one register: the register's key and the bits. -/
structure FRef where
  key : Nat
  hi : Nat
  lo : Nat
  deriving DecidableEq, Repr

/-- The kinds of register window of BAR0 (R447). -/
inductive Block where
  | lane | grp | trib | tcnt | win | time | slc | mrg | plane | prot | refin | refout | refsel | hop | agr | cas | ring | host | sep | mem | boot | glb | integ | sem | perf | pwr | mgmt
  deriving DecidableEq, Repr

/-- The key of partition p's own copy of a register is its offset plus this. -/
def partKey (p : Nat) : Nat := (p + 1) * 0x1000000

/-- The window of lane n; n = 96 to 99 are the four cascade lanes (R309). -/
def laneBase (n : Nat) : Nat := if n < 96 then 0x100000 + n * 0x1000 else 0x71000 + (n - 96) * 0x1000

namespace LaneKlfCfg
/-- LANE_KLF_CFG (R75). -/
def reg (n : Nat) : Nat := laneBase n + 0x800
def txRate (n : Nat) : FRef := ⟨reg n, 5, 4⟩
def rxRate (n : Nat) : FRef := ⟨reg n, 3, 2⟩
def txFec (n : Nat) : FRef := ⟨reg n, 1, 1⟩
def rxFec (n : Nat) : FRef := ⟨reg n, 0, 0⟩
end LaneKlfCfg

namespace LaneKlfSrc
/-- LANE_KLF_SRC (R76). -/
def reg (n : Nat) : Nat := laneBase n + 0x804
def srcDev (n : Nat) : FRef := ⟨reg n, 15, 0⟩
end LaneKlfSrc

namespace LaneKlfStat
/-- LANE_KLF_STAT (R77). -/
def reg (n : Nat) : Nat := laneBase n + 0x808
def hdrErr (n : Nat) : FRef := ⟨reg n, 6, 6⟩
def unknownCtl (n : Nat) : FRef := ⟨reg n, 5, 5⟩
def ohCrcErr (n : Nat) : FRef := ⟨reg n, 4, 4⟩
def swapRefused (n : Nat) : FRef := ⟨reg n, 3, 3⟩
def swapHeld (n : Nat) : FRef := ⟨reg n, 2, 2⟩
def rxRateMismatch (n : Nat) : FRef := ⟨reg n, 1, 1⟩
def rxFecMismatch (n : Nat) : FRef := ⟨reg n, 0, 0⟩
end LaneKlfStat

namespace LaneKlfRxohCtl
/-- LANE_KLF_RXOH_CTL (R79). -/
def reg (n : Nat) : Nat := laneBase n + 0x80C
def pageValid (n : Nat) : FRef := ⟨reg n, 1, 1⟩
def freeze (n : Nat) : FRef := ⟨reg n, 0, 0⟩
end LaneKlfRxohCtl

namespace LaneKlfTxoh
/-- LANE_KLF_TXOH (R80). -/
def reg (n : Nat) (i : Nat) : Nat := laneBase n + 0x840 + i * 4
def bytes (n : Nat) (i : Nat) : FRef := ⟨reg n i, 31, 0⟩
end LaneKlfTxoh

namespace LaneKlfRxoh
/-- LANE_KLF_RXOH (R80). -/
def reg (n : Nat) (i : Nat) : Nat := laneBase n + 0x880 + i * 4
def bytes (n : Nat) (i : Nat) : FRef := ⟨reg n i, 31, 0⟩
end LaneKlfRxoh

namespace GrpCfg
/-- GRP_CFG (R90). -/
def reg (g : Nat) : Nat := 0x180000 + g * 0x1000 + 0x0
def ethMap (g : Nat) : FRef := ⟨reg g, 8, 6⟩
def clkAuto (g : Nat) : FRef := ⟨reg g, 5, 5⟩
def clkLane (g : Nat) : FRef := ⟨reg g, 4, 3⟩
def mode (g : Nat) : FRef := ⟨reg g, 2, 1⟩
def en (g : Nat) : FRef := ⟨reg g, 0, 0⟩
end GrpCfg

namespace GrpStat
/-- GRP_STAT (R90). -/
def reg (g : Nat) : Nat := 0x180000 + g * 0x1000 + 0x4
def modeAct (g : Nat) : FRef := ⟨reg g, 5, 4⟩
def clkHold (g : Nat) : FRef := ⟨reg g, 3, 3⟩
def clkLocked (g : Nat) : FRef := ⟨reg g, 2, 2⟩
def clkLaneAct (g : Nat) : FRef := ⟨reg g, 1, 0⟩
end GrpStat

namespace GrpFreq
/-- GRP_FREQ (R90). -/
def reg (g : Nat) : Nat := 0x180000 + g * 0x1000 + 0x8
def offset (g : Nat) : FRef := ⟨reg g, 31, 0⟩
end GrpFreq

namespace GrpSoak
/-- GRP_SOAK (R90). -/
def reg (g : Nat) : Nat := 0x180000 + g * 0x1000 + 0xC
def failClear (g : Nat) : FRef := ⟨reg g, 31, 16⟩
def failSoak (g : Nat) : FRef := ⟨reg g, 15, 0⟩
end GrpSoak

namespace LaneDskCfg
/-- LANE_DSK_CFG (R93). -/
def reg (n : Nat) : Nat := laneBase n + 0x8
def centre (n : Nat) : FRef := ⟨reg n, 7, 0⟩
end LaneDskCfg

namespace LaneDskStat
/-- LANE_DSK_STAT (R93). -/
def reg (n : Nat) : Nat := laneBase n + 0xC
def fillMax (n : Nat) : FRef := ⟨reg n, 26, 18⟩
def fillMin (n : Nat) : FRef := ⟨reg n, 17, 9⟩
def fill (n : Nat) : FRef := ⟨reg n, 8, 0⟩
end LaneDskStat

namespace LaneFreq
/-- LANE_FREQ (R93). -/
def reg (n : Nat) : Nat := laneBase n + 0x10
def offset (n : Nat) : FRef := ⟨reg n, 31, 0⟩
end LaneFreq

namespace LaneCfg
/-- LANE_CFG (R95). -/
def reg (n : Nat) : Nat := laneBase n + 0x0
def txIdle (n : Nat) : FRef := ⟨reg n, 1, 1⟩
def en (n : Nat) : FRef := ⟨reg n, 0, 0⟩
end LaneCfg

namespace LaneRxCfg
/-- LANE_RX_CFG (R95). -/
def reg (n : Nat) : Nat := laneBase n + 0x4
def lolPpm (n : Nat) : FRef := ⟨reg n, 23, 16⟩
def losHyst (n : Nat) : FRef := ⟨reg n, 15, 8⟩
def losThr (n : Nat) : FRef := ⟨reg n, 7, 0⟩
end LaneRxCfg

namespace LaneAcq
/-- LANE_ACQ (R101). -/
def reg (n : Nat) : Nat := laneBase n + 0x14
def detFmt (n : Nat) : FRef := ⟨reg n, 6, 4⟩
def state (n : Nat) : FRef := ⟨reg n, 2, 0⟩
end LaneAcq

namespace LaneFecCfg
/-- LANE_FEC_CFG (R105). -/
def reg (n : Nat) : Nat := laneBase n + 0x40
def sfUnc (n : Nat) : FRef := ⟨reg n, 23, 8⟩
def winExp (n : Nat) : FRef := ⟨reg n, 3, 0⟩
end LaneFecCfg

namespace LaneSdSet
/-- LANE_SD_SET (R105). -/
def reg (n : Nat) : Nat := laneBase n + 0x44
def count (n : Nat) : FRef := ⟨reg n, 23, 0⟩
end LaneSdSet

namespace LaneSdClr
/-- LANE_SD_CLR (R105). -/
def reg (n : Nat) : Nat := laneBase n + 0x48
def count (n : Nat) : FRef := ⟨reg n, 23, 0⟩
end LaneSdClr

namespace LaneSfSet
/-- LANE_SF_SET (R105). -/
def reg (n : Nat) : Nat := laneBase n + 0x4C
def count (n : Nat) : FRef := ⟨reg n, 23, 0⟩
end LaneSfSet

namespace LaneSfClr
/-- LANE_SF_CLR (R105). -/
def reg (n : Nat) : Nat := laneBase n + 0x50
def count (n : Nat) : FRef := ⟨reg n, 23, 0⟩
end LaneSfClr

namespace LaneFecWinCorr
/-- LANE_FEC_WIN_CORR (R105). -/
def reg (n : Nat) : Nat := laneBase n + 0x54
def count (n : Nat) : FRef := ⟨reg n, 31, 0⟩
end LaneFecWinCorr

namespace LaneFecWinUnc
/-- LANE_FEC_WIN_UNC (R105). -/
def reg (n : Nat) : Nat := laneBase n + 0x58
def count (n : Nat) : FRef := ⟨reg n, 31, 0⟩
end LaneFecWinUnc

namespace LaneCntReq
/-- LANE_CNT_REQ (R106). -/
def reg (n : Nat) : Nat := laneBase n + 0x60
def index (n : Nat) : FRef := ⟨reg n, 5, 0⟩
end LaneCntReq

namespace LaneCntStat
/-- LANE_CNT_STAT (R106). -/
def reg (n : Nat) : Nat := laneBase n + 0x64
def valid (n : Nat) : FRef := ⟨reg n, 0, 0⟩
end LaneCntStat

namespace LaneCntLo
/-- LANE_CNT_LO (R106). -/
def reg (n : Nat) : Nat := laneBase n + 0x68
def valueLo (n : Nat) : FRef := ⟨reg n, 31, 0⟩
end LaneCntLo

namespace LaneCntHi
/-- LANE_CNT_HI (R106). -/
def reg (n : Nat) : Nat := laneBase n + 0x6C
def valueHi (n : Nat) : FRef := ⟨reg n, 15, 0⟩
end LaneCntHi

namespace LaneDef
/-- LANE_DEF (R114). -/
def reg (n : Nat) : Nat := laneBase n + 0x20
def defs (n : Nat) : FRef := ⟨reg n, 9, 0⟩
end LaneDef

namespace LaneDefStky
/-- LANE_DEF_STKY (R114). -/
def reg (n : Nat) : Nat := laneBase n + 0x24
def stky (n : Nat) : FRef := ⟨reg n, 7, 0⟩
end LaneDefStky

namespace LaneDefIvl
/-- LANE_DEF_IVL (R114). -/
def reg (n : Nat) : Nat := laneBase n + 0x28
def ivl (n : Nat) : FRef := ⟨reg n, 7, 0⟩
end LaneDefIvl

namespace LaneFail
/-- LANE_FAIL (R114). -/
def reg (n : Nat) : Nat := laneBase n + 0x2C
def fail (n : Nat) : FRef := ⟨reg n, 7, 0⟩
end LaneFail

namespace LaneFailMask
/-- LANE_FAIL_MASK (R114). -/
def reg (n : Nat) : Nat := laneBase n + 0x30
def bdiSrc (n : Nat) : FRef := ⟨reg n, 15, 8⟩
def alarmMask (n : Nat) : FRef := ⟨reg n, 7, 0⟩
end LaneFailMask

namespace LaneEthCfg
/-- LANE_ETH_CFG (R123). -/
def reg (n : Nat) : Nat := laneBase n + 0x900
def rfOnLf (n : Nat) : FRef := ⟨reg n, 16, 16⟩
def maxFrame (n : Nat) : FRef := ⟨reg n, 13, 0⟩
end LaneEthCfg

namespace LaneEthStat
/-- LANE_ETH_STAT (R123). -/
def reg (n : Nat) : Nat := laneBase n + 0x904
def amLockAll (n : Nat) : FRef := ⟨reg n, 3, 3⟩
def rf (n : Nat) : FRef := ⟨reg n, 2, 2⟩
def lf (n : Nat) : FRef := ⟨reg n, 1, 1⟩
def alignStatus (n : Nat) : FRef := ⟨reg n, 0, 0⟩
end LaneEthStat

namespace TribCfg
/-- TRIB_CFG (R127). -/
def reg (t : Nat) : Nat := 0x200000 + t * 0x40 + 0x0
def merge (t : Nat) : FRef := ⟨reg t, 17, 17⟩
def inBundle (t : Nat) : FRef := ⟨reg t, 16, 16⟩
def bundle (t : Nat) : FRef := ⟨reg t, 15, 8⟩
def fmt (t : Nat) : FRef := ⟨reg t, 7, 4⟩
def src (t : Nat) : FRef := ⟨reg t, 3, 1⟩
def en (t : Nat) : FRef := ⟨reg t, 0, 0⟩
end TribCfg

namespace TribId
/-- TRIB_ID (R127). -/
def reg (t : Nat) : Nat := 0x200000 + t * 0x40 + 0x4
def rxId (t : Nat) : FRef := ⟨reg t, 27, 16⟩
def txId (t : Nat) : FRef := ⟨reg t, 11, 0⟩
end TribId

namespace TribPeriodLo
/-- TRIB_PERIOD_LO (R127). -/
def reg (t : Nat) : Nat := 0x200000 + t * 0x40 + 0x8
def periodLo (t : Nat) : FRef := ⟨reg t, 31, 0⟩
end TribPeriodLo

namespace TribPeriodHi
/-- TRIB_PERIOD_HI (R127). -/
def reg (t : Nat) : Nat := 0x200000 + t * 0x40 + 0xC
def periodHi (t : Nat) : FRef := ⟨reg t, 15, 0⟩
end TribPeriodHi

namespace TribAgeLo
/-- TRIB_AGE_LO (R127). -/
def reg (t : Nat) : Nat := 0x200000 + t * 0x40 + 0x10
def ageLo (t : Nat) : FRef := ⟨reg t, 31, 0⟩
end TribAgeLo

namespace TribAgeHi
/-- TRIB_AGE_HI (R127). -/
def reg (t : Nat) : Nat := 0x200000 + t * 0x40 + 0x14
def ageHi (t : Nat) : FRef := ⟨reg t, 15, 0⟩
end TribAgeHi

namespace TribEthCfg
/-- TRIB_ETH_CFG (R127). -/
def reg (t : Nat) : Nat := 0x200000 + t * 0x40 + 0x18
def hdrLen (t : Nat) : FRef := ⟨reg t, 31, 24⟩
def port (t : Nat) : FRef := ⟨reg t, 19, 13⟩
def tsMode (t : Nat) : FRef := ⟨reg t, 11, 11⟩
def gpp (t : Nat) : FRef := ⟨reg t, 10, 0⟩
end TribEthCfg

namespace TribDef
/-- TRIB_DEF (R127). -/
def reg (t : Nat) : Nat := 0x200000 + t * 0x40 + 0x20
def defs (t : Nat) : FRef := ⟨reg t, 5, 0⟩
end TribDef

namespace TribDefStky
/-- TRIB_DEF_STKY (R127). -/
def reg (t : Nat) : Nat := 0x200000 + t * 0x40 + 0x24
def stky (t : Nat) : FRef := ⟨reg t, 5, 0⟩
end TribDefStky

namespace TribRxSeq
/-- TRIB_RX_SEQ (R127). -/
def reg (t : Nat) : Nat := 0x200000 + t * 0x40 + 0x28
def seq (t : Nat) : FRef := ⟨reg t, 31, 0⟩
end TribRxSeq

namespace TribStat
/-- TRIB_STAT (R127). -/
def reg (t : Nat) : Nat := 0x200000 + t * 0x40 + 0x2C
def gcount (t : Nat) : FRef := ⟨reg t, 17, 5⟩
def cfgErr (t : Nat) : FRef := ⟨reg t, 4, 2⟩
def receiving (t : Nat) : FRef := ⟨reg t, 1, 1⟩
def anchored (t : Nat) : FRef := ⟨reg t, 0, 0⟩
end TribStat

namespace LaneCalRxCtl
/-- LANE_CAL_RX_CTL (R156). -/
def reg (n : Nat) : Nat := laneBase n + 0xA00
def rxBank (n : Nat) : FRef := ⟨reg n, 1, 1⟩
def follow (n : Nat) : FRef := ⟨reg n, 0, 0⟩
end LaneCalRxCtl

namespace LaneCalCrc
/-- LANE_CAL_CRC (R156). -/
def reg (n : Nat) (i : Nat) : Nat := laneBase n + 0xA04 + i * 4
def crc (n : Nat) (i : Nat) : FRef := ⟨reg n i, 31, 0⟩
end LaneCalCrc

namespace LaneCalStat
/-- LANE_CAL_STAT (R156). -/
def reg (n : Nat) : Nat := laneBase n + 0xA14
def calFault (n : Nat) : FRef := ⟨reg n, 30, 30⟩
def lateSwap (n : Nat) : FRef := ⟨reg n, 29, 29⟩
def slot (n : Nat) : FRef := ⟨reg n, 28, 16⟩
def rxSwapHeld (n : Nat) : FRef := ⟨reg n, 14, 14⟩
def txActive (n : Nat) : FRef := ⟨reg n, 13, 13⟩
def rxActive (n : Nat) : FRef := ⟨reg n, 12, 12⟩
def result (n : Nat) : FRef := ⟨reg n, 11, 8⟩
def checking (n : Nat) : FRef := ⟨reg n, 7, 4⟩
def committed (n : Nat) : FRef := ⟨reg n, 3, 0⟩
end LaneCalStat

namespace LaneCalRxSwap
/-- LANE_CAL_RX_SWAP (R156). -/
def reg (n : Nat) : Nat := laneBase n + 0xA18
def swapMf (n : Nat) : FRef := ⟨reg n, 31, 0⟩
end LaneCalRxSwap

namespace LaneEthUnm
/-- LANE_ETH_UNM (R167). -/
def reg (n : Nat) : Nat := laneBase n + 0x908
def count (n : Nat) : FRef := ⟨reg n, 31, 0⟩
end LaneEthUnm

namespace TribCntReq
/-- TRIB_CNT_REQ (R168). -/
def reg (p : Nat) : Nat := partKey p + 0x240000 + 0x0
def trib (p : Nat) : FRef := ⟨reg p, 27, 16⟩
def index (p : Nat) : FRef := ⟨reg p, 5, 0⟩
end TribCntReq

namespace TribCntStat
/-- TRIB_CNT_STAT (R168). -/
def reg (p : Nat) : Nat := partKey p + 0x240000 + 0x4
def valid (p : Nat) : FRef := ⟨reg p, 0, 0⟩
end TribCntStat

namespace TribCntLo
/-- TRIB_CNT_LO (R168). -/
def reg (p : Nat) : Nat := partKey p + 0x240000 + 0x8
def valueLo (p : Nat) : FRef := ⟨reg p, 31, 0⟩
end TribCntLo

namespace TribCntHi
/-- TRIB_CNT_HI (R168). -/
def reg (p : Nat) : Nat := partKey p + 0x240000 + 0xC
def valueHi (p : Nat) : FRef := ⟨reg p, 15, 0⟩
end TribCntHi

namespace TimeRdReq
/-- TIME_RD_REQ (R170). -/
def reg (p : Nat) : Nat := partKey p + 0x60000 + 0x0
def src (p : Nat) : FRef := ⟨reg p, 2, 0⟩
end TimeRdReq

namespace TimeRdStat
/-- TIME_RD_STAT (R170). -/
def reg (p : Nat) : Nat := partKey p + 0x60000 + 0x4
def none (p : Nat) : FRef := ⟨reg p, 1, 1⟩
def valid (p : Nat) : FRef := ⟨reg p, 0, 0⟩
end TimeRdStat

namespace TimeRd0
/-- TIME_RD_0 (R170). -/
def reg (p : Nat) : Nat := partKey p + 0x60000 + 0x8
def tLo (p : Nat) : FRef := ⟨reg p, 31, 0⟩
end TimeRd0

namespace TimeRd1
/-- TIME_RD_1 (R170). -/
def reg (p : Nat) : Nat := partKey p + 0x60000 + 0xC
def tMid (p : Nat) : FRef := ⟨reg p, 31, 0⟩
end TimeRd1

namespace TimeRd2
/-- TIME_RD_2 (R170). -/
def reg (p : Nat) : Nat := partKey p + 0x60000 + 0x10
def tHi (p : Nat) : FRef := ⟨reg p, 31, 0⟩
end TimeRd2

namespace TimeWr
/-- TIME_WR (R171). -/
def reg (i : Nat) : Nat := 0x60000 + 0x20 + i * 4
def value (i : Nat) : FRef := ⟨reg i, 31, 0⟩
end TimeWr

namespace TimeWrCtl
/-- TIME_WR_CTL (R171). -/
def reg : Nat := 0x60000 + 0x2C
def force : FRef := ⟨reg, 2, 2⟩
def op : FRef := ⟨reg, 1, 0⟩
end TimeWrCtl

namespace TimeWrStat
/-- TIME_WR_STAT (R171). -/
def reg : Nat := 0x60000 + 0x34
def busy : FRef := ⟨reg, 3, 3⟩
def result : FRef := ⟨reg, 2, 0⟩
end TimeWrStat

namespace TimeLagReq
/-- TIME_LAG_REQ (R175). -/
def reg (p : Nat) : Nat := partKey p + 0x60000 + 0x40
def trib (p : Nat) : FRef := ⟨reg p, 11, 0⟩
end TimeLagReq

namespace TimeLagStat
/-- TIME_LAG_STAT (R175). -/
def reg (p : Nat) : Nat := partKey p + 0x60000 + 0x44
def valid (p : Nat) : FRef := ⟨reg p, 0, 0⟩
end TimeLagStat

namespace TimeLagMin
/-- TIME_LAG_MIN (R175). -/
def reg (p : Nat) : Nat := partKey p + 0x60000 + 0x48
def min (p : Nat) : FRef := ⟨reg p, 31, 0⟩
end TimeLagMin

namespace TimeLagMax
/-- TIME_LAG_MAX (R175). -/
def reg (p : Nat) : Nat := partKey p + 0x60000 + 0x4C
def max (p : Nat) : FRef := ⟨reg p, 31, 0⟩
end TimeLagMax

namespace TimeActMiss
/-- TIME_ACT_MISS (R182). -/
def reg (p : Nat) : Nat := partKey p + 0x60000 + 0x50
def count (p : Nat) : FRef := ⟨reg p, 31, 0⟩
end TimeActMiss

namespace WinCfg
/-- WIN_CFG (R177). -/
def reg (w : Nat) : Nat := 0x61000 + w * 0x40 + 0x0
def state (w : Nat) : FRef := ⟨reg w, 31, 30⟩
def action (w : Nat) : FRef := ⟨reg w, 23, 18⟩
def target (w : Nat) : FRef := ⟨reg w, 17, 6⟩
def scope (w : Nat) : FRef := ⟨reg w, 5, 4⟩
def kind (w : Nat) : FRef := ⟨reg w, 2, 1⟩
def en (w : Nat) : FRef := ⟨reg w, 0, 0⟩
end WinCfg

namespace WinStart
/-- WIN_START (R177). -/
def reg (w : Nat) (i : Nat) : Nat := 0x61000 + w * 0x40 + 0x4 + i * 4
def start (w : Nat) (i : Nat) : FRef := ⟨reg w i, 31, 0⟩
end WinStart

namespace WinEnd
/-- WIN_END (R177). -/
def reg (w : Nat) (i : Nat) : Nat := 0x61000 + w * 0x40 + 0x10 + i * 4
def endT (w : Nat) (i : Nat) : FRef := ⟨reg w i, 31, 0⟩
end WinEnd

namespace WinPerLo
/-- WIN_PER_LO (R177). -/
def reg (w : Nat) : Nat := 0x61000 + w * 0x40 + 0x1C
def perLo (w : Nat) : FRef := ⟨reg w, 31, 0⟩
end WinPerLo

namespace WinPerHi
/-- WIN_PER_HI (R177). -/
def reg (w : Nat) : Nat := 0x61000 + w * 0x40 + 0x20
def perHi (w : Nat) : FRef := ⟨reg w, 15, 0⟩
end WinPerHi

namespace WinCount
/-- WIN_COUNT (R177). -/
def reg (w : Nat) : Nat := 0x61000 + w * 0x40 + 0x24
def left (w : Nat) : FRef := ⟨reg w, 31, 16⟩
def count (w : Nat) : FRef := ⟨reg w, 15, 0⟩
end WinCount

namespace TribLatLo
/-- TRIB_LAT_LO (R184). -/
def reg (t : Nat) : Nat := 0x200000 + t * 0x40 + 0x30
def latLo (t : Nat) : FRef := ⟨reg t, 31, 0⟩
end TribLatLo

namespace TribLatHi
/-- TRIB_LAT_HI (R184). -/
def reg (t : Nat) : Nat := 0x200000 + t * 0x40 + 0x34
def admitted (t : Nat) : FRef := ⟨reg t, 31, 31⟩
def void (t : Nat) : FRef := ⟨reg t, 30, 30⟩
def bufAct (t : Nat) : FRef := ⟨reg t, 29, 28⟩
def buf (t : Nat) : FRef := ⟨reg t, 27, 26⟩
def bundleBlank (t : Nat) : FRef := ⟨reg t, 25, 25⟩
def latHi (t : Nat) : FRef := ⟨reg t, 15, 0⟩
end TribLatHi

namespace TribArrMin
/-- TRIB_ARR_MIN (R184). -/
def reg (t : Nat) : Nat := 0x200000 + t * 0x40 + 0x38
def arrMin (t : Nat) : FRef := ⟨reg t, 31, 0⟩
end TribArrMin

namespace TribArrMax
/-- TRIB_ARR_MAX (R184). -/
def reg (t : Nat) : Nat := 0x200000 + t * 0x40 + 0x3C
def arrMax (t : Nat) : FRef := ⟨reg t, 31, 0⟩
end TribArrMax

namespace TimeRelLoad
/-- TIME_REL_LOAD (R195). -/
def reg (p : Nat) : Nat := partKey p + 0x60000 + 0x60
def wr (p : Nat) : FRef := ⟨reg p, 31, 16⟩
def rd (p : Nat) : FRef := ⟨reg p, 15, 0⟩
end TimeRelLoad

namespace TimeRelFree
/-- TIME_REL_FREE (R195). -/
def reg (p : Nat) : Nat := partKey p + 0x60000 + 0x64
def pages (p : Nat) : FRef := ⟨reg p, 13, 0⟩
end TimeRelFree

namespace TimeDeepLoad
/-- TIME_DEEP_LOAD (R195). -/
def reg (p : Nat) : Nat := partKey p + 0x60000 + 0x68
def s1 (p : Nat) : FRef := ⟨reg p, 31, 16⟩
def s0 (p : Nat) : FRef := ⟨reg p, 15, 0⟩
end TimeDeepLoad

namespace SlcCfg
/-- SLC_CFG (R236). -/
def reg (e : Nat) : Nat := 0x300000 + e * 0x100 + 0x0
def inTrib (e : Nat) : FRef := ⟨reg e, 27, 16⟩
def k (e : Nat) : FRef := ⟨reg e, 7, 4⟩
def en (e : Nat) : FRef := ⟨reg e, 0, 0⟩
end SlcCfg

namespace SlcOut
/-- SLC_OUT (R236). -/
def reg (e : Nat) : Nat := 0x300000 + e * 0x100 + 0x4
def outTrib (e : Nat) : FRef := ⟨reg e, 11, 0⟩
end SlcOut

namespace SlcNcoLo
/-- SLC_NCO_LO (R236). -/
def reg (e : Nat) : Nat := 0x300000 + e * 0x100 + 0x8
def wordLo (e : Nat) : FRef := ⟨reg e, 31, 0⟩
end SlcNcoLo

namespace SlcNcoHi
/-- SLC_NCO_HI (R236). -/
def reg (e : Nat) : Nat := 0x300000 + e * 0x100 + 0xC
def now (e : Nat) : FRef := ⟨reg e, 31, 31⟩
def wordHi (e : Nat) : FRef := ⟨reg e, 15, 0⟩
end SlcNcoHi

namespace SlcNcoPh0
/-- SLC_NCO_PH0 (R236). -/
def reg (e : Nat) : Nat := 0x300000 + e * 0x100 + 0x10
def ph0 (e : Nat) : FRef := ⟨reg e, 15, 0⟩
end SlcNcoPh0

namespace SlcAnchor
/-- SLC_ANCHOR (R236). -/
def reg (e : Nat) (i : Nat) : Nat := 0x300000 + e * 0x100 + 0x14 + i * 4
def anchor (e : Nat) (i : Nat) : FRef := ⟨reg e i, 31, 0⟩
end SlcAnchor

namespace SlcAdjLo
/-- SLC_ADJ_LO (R236). -/
def reg (e : Nat) : Nat := 0x300000 + e * 0x100 + 0x20
def adjLo (e : Nat) : FRef := ⟨reg e, 31, 0⟩
end SlcAdjLo

namespace SlcAdjHi
/-- SLC_ADJ_HI (R236). -/
def reg (e : Nat) : Nat := 0x300000 + e * 0x100 + 0x24
def adjHi (e : Nat) : FRef := ⟨reg e, 15, 0⟩
end SlcAdjHi

namespace SlcGain
/-- SLC_GAIN (R236). -/
def reg (e : Nat) : Nat := 0x300000 + e * 0x100 + 0x28
def coarse (e : Nat) : FRef := ⟨reg e, 19, 16⟩
def fine (e : Nat) : FRef := ⟨reg e, 15, 0⟩
end SlcGain

namespace SlcQth0
/-- SLC_QTH_0 (R236). -/
def reg (e : Nat) : Nat := 0x300000 + e * 0x100 + 0x2C
def t0 (e : Nat) : FRef := ⟨reg e, 12, 0⟩
end SlcQth0

namespace SlcQth1
/-- SLC_QTH_1 (R236). -/
def reg (e : Nat) : Nat := 0x300000 + e * 0x100 + 0x30
def t2 (e : Nat) : FRef := ⟨reg e, 28, 16⟩
def t1 (e : Nat) : FRef := ⟨reg e, 12, 0⟩
end SlcQth1

namespace SlcQth2
/-- SLC_QTH_2 (R236). -/
def reg (e : Nat) : Nat := 0x300000 + e * 0x100 + 0x34
def t4 (e : Nat) : FRef := ⟨reg e, 28, 16⟩
def t3 (e : Nat) : FRef := ⟨reg e, 12, 0⟩
end SlcQth2

namespace SlcQth3
/-- SLC_QTH_3 (R236). -/
def reg (e : Nat) : Nat := 0x300000 + e * 0x100 + 0x38
def t6 (e : Nat) : FRef := ⟨reg e, 28, 16⟩
def t5 (e : Nat) : FRef := ⟨reg e, 12, 0⟩
end SlcQth3

namespace SlcQth4
/-- SLC_QTH_4 (R236). -/
def reg (e : Nat) : Nat := 0x300000 + e * 0x100 + 0x3C
def t7 (e : Nat) : FRef := ⟨reg e, 12, 0⟩
end SlcQth4

namespace SlcCtl
/-- SLC_CTL (R236). -/
def reg (e : Nat) : Nat := 0x300000 + e * 0x100 + 0x40
def coefBank (e : Nat) : FRef := ⟨reg e, 0, 0⟩
end SlcCtl

namespace SlcCoefCrc
/-- SLC_COEF_CRC (R236). -/
def reg (e : Nat) (i : Nat) : Nat := 0x300000 + e * 0x100 + 0x44 + i * 4
def crc (e : Nat) (i : Nat) : FRef := ⟨reg e i, 31, 0⟩
end SlcCoefCrc

namespace SlcStat
/-- SLC_STAT (R236). -/
def reg (e : Nat) : Nat := 0x300000 + e * 0x100 + 0x4C
def cfgErr (e : Nat) : FRef := ⟨reg e, 31, 28⟩
def chkResult (e : Nat) : FRef := ⟨reg e, 27, 24⟩
def checking (e : Nat) : FRef := ⟨reg e, 5, 4⟩
def committed (e : Nat) : FRef := ⟨reg e, 3, 2⟩
def bankAct (e : Nat) : FRef := ⟨reg e, 1, 1⟩
def running (e : Nat) : FRef := ⟨reg e, 0, 0⟩
end SlcStat

namespace SlcCntReq
/-- SLC_CNT_REQ (R236). -/
def reg (e : Nat) : Nat := 0x300000 + e * 0x100 + 0x50
def index (e : Nat) : FRef := ⟨reg e, 5, 0⟩
end SlcCntReq

namespace SlcCntStat
/-- SLC_CNT_STAT (R236). -/
def reg (e : Nat) : Nat := 0x300000 + e * 0x100 + 0x54
def valid (e : Nat) : FRef := ⟨reg e, 0, 0⟩
end SlcCntStat

namespace SlcCntLo
/-- SLC_CNT_LO (R236). -/
def reg (e : Nat) : Nat := 0x300000 + e * 0x100 + 0x58
def valueLo (e : Nat) : FRef := ⟨reg e, 31, 0⟩
end SlcCntLo

namespace SlcCntHi
/-- SLC_CNT_HI (R236). -/
def reg (e : Nat) : Nat := 0x300000 + e * 0x100 + 0x5C
def valueHi (e : Nat) : FRef := ⟨reg e, 15, 0⟩
end SlcCntHi

namespace SlcCluCfg
/-- SLC_CLU_CFG (R237). -/
def reg (e : Nat) : Nat := 0x300000 + e * 0x100 + 0x80
def gang (e : Nat) : FRef := ⟨reg e, 1, 0⟩
end SlcCluCfg

namespace SlcCluLoad
/-- SLC_CLU_LOAD (R237). -/
def reg (e : Nat) : Nat := 0x300000 + e * 0x100 + 0x84
def inLoad (e : Nat) : FRef := ⟨reg e, 31, 16⟩
def outLoad (e : Nat) : FRef := ⟨reg e, 15, 0⟩
end SlcCluLoad

namespace ProtMrgCfg
/-- PROT_MRG_CFG (R252). -/
def reg (t : Nat) : Nat := 0x80000 + t * 8 + 0x8000
def laneB (t : Nat) : FRef := ⟨reg t, 24, 18⟩
def laneA (t : Nat) : FRef := ⟨reg t, 17, 11⟩
def honour (t : Nat) : FRef := ⟨reg t, 10, 10⟩
def sel (t : Nat) : FRef := ⟨reg t, 9, 8⟩
def cmd (t : Nat) : FRef := ⟨reg t, 6, 4⟩
end ProtMrgCfg

namespace ProtMrgStat
/-- PROT_MRG_STAT (R252). -/
def reg (t : Nat) : Nat := 0x80000 + t * 8 + 0x8004
def bCond (t : Nat) : FRef := ⟨reg t, 11, 10⟩
def aCond (t : Nat) : FRef := ⟨reg t, 9, 8⟩
def implied (t : Nat) : FRef := ⟨reg t, 7, 6⟩
def selLast (t : Nat) : FRef := ⟨reg t, 5, 4⟩
def mism (t : Nat) : FRef := ⟨reg t, 3, 3⟩
end ProtMrgStat

namespace ProtCntReq
/-- PROT_CNT_REQ (R253). -/
def reg (p : Nat) : Nat := partKey p + 0x80000 + 0x100
def trib (p : Nat) : FRef := ⟨reg p, 27, 16⟩
def index (p : Nat) : FRef := ⟨reg p, 5, 0⟩
end ProtCntReq

namespace ProtCntStat
/-- PROT_CNT_STAT (R253). -/
def reg (p : Nat) : Nat := partKey p + 0x80000 + 0x104
def valid (p : Nat) : FRef := ⟨reg p, 0, 0⟩
end ProtCntStat

namespace ProtCntLo
/-- PROT_CNT_LO (R253). -/
def reg (p : Nat) : Nat := partKey p + 0x80000 + 0x108
def valueLo (p : Nat) : FRef := ⟨reg p, 31, 0⟩
end ProtCntLo

namespace ProtCntHi
/-- PROT_CNT_HI (R253). -/
def reg (p : Nat) : Nat := partKey p + 0x80000 + 0x10C
def valueHi (p : Nat) : FRef := ⟨reg p, 15, 0⟩
end ProtCntHi

namespace ProtPairCfg
/-- PROT_PAIR_CFG (R269). -/
def reg : Nat := 0x80000 + 0x0
def hbMiss : FRef := ⟨reg, 15, 8⟩
def relOnFault : FRef := ⟨reg, 6, 6⟩
def autoClaim : FRef := ⟨reg, 5, 5⟩
def hbCas : FRef := ⟨reg, 4, 4⟩
end ProtPairCfg

namespace ProtPairCtl
/-- PROT_PAIR_CTL (R269). -/
def reg : Nat := 0x80000 + 0x8
def op : FRef := ⟨reg, 2, 0⟩
end ProtPairCtl

namespace ProtPairStat
/-- PROT_PAIR_STAT (R269). -/
def reg : Nat := 0x80000 + 0x10
def cmdResult : FRef := ⟨reg, 18, 16⟩
def hbSelf : FRef := ⟨reg, 15, 15⟩
def backoff : FRef := ⟨reg, 14, 14⟩
def outCont : FRef := ⟨reg, 13, 13⟩
def claimFault : FRef := ⟨reg, 12, 12⟩
def isolated : FRef := ⟨reg, 11, 11⟩
def peerValid : FRef := ⟨reg, 10, 10⟩
def peerRole : FRef := ⟨reg, 9, 8⟩
def hbCasOk : FRef := ⟨reg, 7, 7⟩
def hbPinOk : FRef := ⟨reg, 6, 6⟩
def wireIn : FRef := ⟨reg, 5, 5⟩
def wireDrive : FRef := ⟨reg, 4, 4⟩
def side : FRef := ⟨reg, 3, 3⟩
def role : FRef := ⟨reg, 2, 0⟩
end ProtPairStat

namespace ProtPairT
/-- PROT_PAIR_T (R269). -/
def reg : Nat := 0x80000 + 0x14
def tSec : FRef := ⟨reg, 31, 0⟩
end ProtPairT

namespace ProtPairHb
/-- PROT_PAIR_HB (R269). -/
def reg (i : Nat) : Nat := 0x80000 + 0x18 + i * 4
def frame (i : Nat) : FRef := ⟨reg i, 31, 0⟩
end ProtPairHb

namespace ProtOutCont
/-- PROT_OUT_CONT (R269). -/
def reg : Nat := 0x80000 + 0x24
def cont : FRef := ⟨reg, 10, 0⟩
end ProtOutCont

namespace ProtLane
/-- PROT_LANE (R270). -/
def reg (n : Nat) : Nat := 0x80000 + n * 4 + 0x1000
def rxRole (n : Nat) : FRef := ⟨reg n, 9, 8⟩
def rxReq (n : Nat) : FRef := ⟨reg n, 5, 4⟩
def txReq (n : Nat) : FRef := ⟨reg n, 1, 0⟩
end ProtLane

namespace RefselCfg
/-- REFSEL_CFG (R302). -/
def reg : Nat := 0x50000 + 0x0
def wtr : FRef := ⟨reg, 31, 24⟩
def qlOwn : FRef := ⟨reg, 23, 20⟩
def forceIn : FRef := ⟨reg, 19, 16⟩
def forceEn : FRef := ⟨reg, 15, 15⟩
def forceFr : FRef := ⟨reg, 14, 14⟩
def qlSelect : FRef := ⟨reg, 13, 13⟩
def revert : FRef := ⟨reg, 12, 12⟩
def dnuBack : FRef := ⟨reg, 11, 11⟩
end RefselCfg

namespace RefselStat
/-- REFSEL_STAT (R302). -/
def reg : Nat := 0x50000 + 0x4
def qlOut : FRef := ⟨reg, 31, 28⟩
def timeTrace : FRef := ⟨reg, 27, 27⟩
def histValid : FRef := ⟨reg, 26, 26⟩
def slewing : FRef := ⟨reg, 25, 25⟩
def qlHo : FRef := ⟨reg, 24, 24⟩
def sel : FRef := ⟨reg, 23, 20⟩
def next : FRef := ⟨reg, 19, 16⟩
def selValid : FRef := ⟨reg, 15, 15⟩
def nextValid : FRef := ⟨reg, 14, 14⟩
def state : FRef := ⟨reg, 2, 0⟩
end RefselStat

namespace RefselPherr
/-- REFSEL_PHERR (R302). -/
def reg : Nat := 0x50000 + 0x8
def pherr : FRef := ⟨reg, 31, 0⟩
end RefselPherr

namespace RefselStky
/-- REFSEL_STKY (R302). -/
def reg : Nat := 0x50000 + 0xC
def stky : FRef := ⟨reg, 6, 0⟩
end RefselStky

namespace RefselOsc
/-- REFSEL_OSC (R302). -/
def reg : Nat := 0x50000 + 0x10
def tolPpm : FRef := ⟨reg, 15, 8⟩
def freq : FRef := ⟨reg, 1, 0⟩
end RefselOsc

namespace RefselLock
/-- REFSEL_LOCK (R302). -/
def reg : Nat := 0x50000 + 0x14
def lockS : FRef := ⟨reg, 31, 16⟩
def thrNs : FRef := ⟨reg, 15, 0⟩
end RefselLock

namespace RefselHist
/-- REFSEL_HIST (R302). -/
def reg : Nat := 0x50000 + 0x18
def histS : FRef := ⟨reg, 31, 16⟩
def guardS : FRef := ⟨reg, 15, 0⟩
end RefselHist

namespace RefselHoCfg
/-- REFSEL_HO_CFG (R302). -/
def reg : Nat := 0x50000 + 0x1C
def maxH : FRef := ⟨reg, 31, 16⟩
def qlHold : FRef := ⟨reg, 15, 8⟩
def tempSrc : FRef := ⟨reg, 1, 0⟩
end RefselHoCfg

namespace RefselHoBudget
/-- REFSEL_HO_BUDGET (R302). -/
def reg : Nat := 0x50000 + 0x20
def budget : FRef := ⟨reg, 31, 0⟩
end RefselHoBudget

namespace RefselHoRate
/-- REFSEL_HO_RATE (R302). -/
def reg : Nat := 0x50000 + 0x24
def r : FRef := ⟨reg, 31, 0⟩
end RefselHoRate

namespace RefselHoSigma
/-- REFSEL_HO_SIGMA (R302). -/
def reg : Nat := 0x50000 + 0x28
def sigma : FRef := ⟨reg, 31, 0⟩
end RefselHoSigma

namespace RefselHoTe
/-- REFSEL_HO_TE (R302). -/
def reg : Nat := 0x50000 + 0x2C
def te : FRef := ⟨reg, 31, 0⟩
end RefselHoTe

namespace RefselHoTime
/-- REFSEL_HO_TIME (R302). -/
def reg : Nat := 0x50000 + 0x30
def tW : FRef := ⟨reg, 31, 0⟩
end RefselHoTime

namespace RefselSlew
/-- REFSEL_SLEW (R302). -/
def reg : Nat := 0x50000 + 0x34
def slewPpb : FRef := ⟨reg, 15, 0⟩
end RefselSlew

namespace RefselDcoWrLo
/-- REFSEL_DCO_WR_LO (R302). -/
def reg : Nat := 0x50000 + 0x40
def wordLo : FRef := ⟨reg, 31, 0⟩
end RefselDcoWrLo

namespace RefselDcoWrHi
/-- REFSEL_DCO_WR_HI (R302). -/
def reg : Nat := 0x50000 + 0x44
def op : FRef := ⟨reg, 31, 31⟩
def wordHi : FRef := ⟨reg, 7, 0⟩
end RefselDcoWrHi

namespace RefselDcoRdReq
/-- REFSEL_DCO_RD_REQ (R302). -/
def reg : Nat := 0x50000 + 0x48
def req : FRef := ⟨reg, 0, 0⟩
end RefselDcoRdReq

namespace RefselDcoRdStat
/-- REFSEL_DCO_RD_STAT (R302). -/
def reg : Nat := 0x50000 + 0x4C
def valid : FRef := ⟨reg, 0, 0⟩
end RefselDcoRdStat

namespace RefselDcoRd0
/-- REFSEL_DCO_RD_0 (R302). -/
def reg : Nat := 0x50000 + 0x50
def dLo : FRef := ⟨reg, 31, 0⟩
end RefselDcoRd0

namespace RefselDcoRd1
/-- REFSEL_DCO_RD_1 (R302). -/
def reg : Nat := 0x50000 + 0x54
def dHi : FRef := ⟨reg, 7, 0⟩
end RefselDcoRd1

namespace RefselDcoRd2
/-- REFSEL_DCO_RD_2 (R302). -/
def reg : Nat := 0x50000 + 0x58
def tW : FRef := ⟨reg, 31, 0⟩
end RefselDcoRd2

namespace RefselDcoRd3
/-- REFSEL_DCO_RD_3 (R302). -/
def reg : Nat := 0x50000 + 0x5C
def tW : FRef := ⟨reg, 31, 0⟩
end RefselDcoRd3

namespace RefselDcoRd4
/-- REFSEL_DCO_RD_4 (R302). -/
def reg : Nat := 0x50000 + 0x60
def tHi : FRef := ⟨reg, 31, 0⟩
end RefselDcoRd4

namespace RefselHost
/-- REFSEL_HOST (R302). -/
def reg : Nat := 0x50000 + 0x70
def clockClass : FRef := ⟨reg, 31, 24⟩
def locked : FRef := ⟨reg, 16, 16⟩
def wdogMs : FRef := ⟨reg, 15, 0⟩
end RefselHost

namespace RefselTemp
/-- REFSEL_TEMP (R302). -/
def reg (i : Nat) : Nat := 0x50000 + 0x80 + i * 4
def temp (i : Nat) : FRef := ⟨reg i, 31, 16⟩
def off (i : Nat) : FRef := ⟨reg i, 15, 0⟩
end RefselTemp

namespace RefselAgeA
/-- REFSEL_AGE_A (R302). -/
def reg : Nat := 0x50000 + 0xA0
def a : FRef := ⟨reg, 31, 0⟩
end RefselAgeA

namespace RefselAgeB
/-- REFSEL_AGE_B (R302). -/
def reg : Nat := 0x50000 + 0xA4
def b : FRef := ⟨reg, 31, 0⟩
end RefselAgeB

namespace RefselAgeC
/-- REFSEL_AGE_C (R302). -/
def reg : Nat := 0x50000 + 0xA8
def c : FRef := ⟨reg, 31, 0⟩
end RefselAgeC

namespace RefselAgeEpoch
/-- REFSEL_AGE_EPOCH (R302). -/
def reg : Nat := 0x50000 + 0xAC
def epoch : FRef := ⟨reg, 31, 0⟩
end RefselAgeEpoch

namespace RefselInCfg
/-- REFSEL_IN_CFG (R303). -/
def reg (n : Nat) : Nat := 0x50100 + n * 0x20 + 0x0
def timeAlign (n : Nat) : FRef := ⟨reg n, 24, 24⟩
def group (n : Nat) : FRef := ⟨reg n, 23, 19⟩
def qual (n : Nat) : FRef := ⟨reg n, 16, 16⟩
def qlFixed (n : Nat) : FRef := ⟨reg n, 15, 12⟩
def prio (n : Nat) : FRef := ⟨reg n, 7, 4⟩
def en (n : Nat) : FRef := ⟨reg n, 0, 0⟩
end RefselInCfg

namespace RefselInFreq
/-- REFSEL_IN_FREQ (R303). -/
def reg (n : Nat) : Nat := 0x50100 + n * 0x20 + 0x4
def freq (n : Nat) : FRef := ⟨reg n, 31, 0⟩
end RefselInFreq

namespace RefselInBw
/-- REFSEL_IN_BW (R303). -/
def reg (n : Nat) : Nat := 0x50100 + n * 0x20 + 0x8
def bw (n : Nat) : FRef := ⟨reg n, 23, 0⟩
end RefselInBw

namespace RefselInLim
/-- REFSEL_IN_LIM (R303). -/
def reg (n : Nat) : Nat := 0x50100 + n * 0x20 + 0xC
def reject (n : Nat) : FRef := ⟨reg n, 31, 16⟩
def accept (n : Nat) : FRef := ⟨reg n, 15, 0⟩
end RefselInLim

namespace RefselInSoak
/-- REFSEL_IN_SOAK (R303). -/
def reg (n : Nat) : Nat := 0x50100 + n * 0x20 + 0x10
def dqSoak (n : Nat) : FRef := ⟨reg n, 31, 16⟩
def qSoak (n : Nat) : FRef := ⟨reg n, 15, 0⟩
end RefselInSoak

namespace RefselInDelay
/-- REFSEL_IN_DELAY (R303). -/
def reg (n : Nat) : Nat := 0x50100 + n * 0x20 + 0x14
def delay (n : Nat) : FRef := ⟨reg n, 31, 0⟩
end RefselInDelay

namespace RefselInOff
/-- REFSEL_IN_OFF (R303). -/
def reg (n : Nat) : Nat := 0x50100 + n * 0x20 + 0x18
def offset (n : Nat) : FRef := ⟨reg n, 31, 0⟩
end RefselInOff

namespace RefselInStat
/-- REFSEL_IN_STAT (R303). -/
def reg (n : Nat) : Nat := 0x50100 + n * 0x20 + 0x1C
def qlRx (n : Nat) : FRef := ⟨reg n, 15, 12⟩
def qlFail (n : Nat) : FRef := ⟨reg n, 6, 6⟩
def selected (n : Nat) : FRef := ⟨reg n, 5, 5⟩
def candidate (n : Nat) : FRef := ⟨reg n, 4, 4⟩
def soaking (n : Nat) : FRef := ⟨reg n, 3, 3⟩
def freqFault (n : Nat) : FRef := ⟨reg n, 2, 2⟩
def actFault (n : Nat) : FRef := ⟨reg n, 1, 1⟩
def qualified (n : Nat) : FRef := ⟨reg n, 0, 0⟩
end RefselInStat

namespace RefselOutCfg
/-- REFSEL_OUT_CFG (R304). -/
def reg (o : Nat) : Nat := 0x50400 + o * 0x20 + 0x0
def en (o : Nat) : FRef := ⟨reg o, 0, 0⟩
end RefselOutCfg

namespace RefselOutFreqLo
/-- REFSEL_OUT_FREQ_LO (R304). -/
def reg (o : Nat) : Nat := 0x50400 + o * 0x20 + 0x4
def freqLo (o : Nat) : FRef := ⟨reg o, 31, 0⟩
end RefselOutFreqLo

namespace RefselOutFreqHi
/-- REFSEL_OUT_FREQ_HI (R304). -/
def reg (o : Nat) : Nat := 0x50400 + o * 0x20 + 0x8
def freqHi (o : Nat) : FRef := ⟨reg o, 15, 0⟩
end RefselOutFreqHi

namespace RefselOutWidth
/-- REFSEL_OUT_WIDTH (R304). -/
def reg (o : Nat) : Nat := 0x50400 + o * 0x20 + 0xC
def width (o : Nat) : FRef := ⟨reg o, 18, 0⟩
end RefselOutWidth

namespace RefselOutDelay
/-- REFSEL_OUT_DELAY (R304). -/
def reg (o : Nat) : Nat := 0x50400 + o * 0x20 + 0x10
def delay (o : Nat) : FRef := ⟨reg o, 31, 0⟩
end RefselOutDelay

namespace RefselOutStat
/-- REFSEL_OUT_STAT (R304). -/
def reg (o : Nat) : Nat := 0x50400 + o * 0x20 + 0x14
def pending (o : Nat) : FRef := ⟨reg o, 2, 2⟩
def misaligned (o : Nat) : FRef := ⟨reg o, 1, 1⟩
def aligned (o : Nat) : FRef := ⟨reg o, 0, 0⟩
end RefselOutStat

namespace RefselOutMis
/-- REFSEL_OUT_MIS (R304). -/
def reg (o : Nat) : Nat := 0x50400 + o * 0x20 + 0x18
def mis (o : Nat) : FRef := ⟨reg o, 31, 0⟩
end RefselOutMis

namespace MgmtTodCfg
/-- MGMT_TOD_CFG (R305). -/
def reg : Nat := 0xC0000 + 0x400
def baud : FRef := ⟨reg, 6, 4⟩
def rxEn : FRef := ⟨reg, 1, 1⟩
def txEn : FRef := ⟨reg, 0, 0⟩
end MgmtTodCfg

namespace MgmtTodUtc
/-- MGMT_TOD_UTC (R305). -/
def reg : Nat := 0xC0000 + 0x404
def flags : FRef := ⟨reg, 18, 16⟩
def utcOff : FRef := ⟨reg, 15, 0⟩
end MgmtTodUtc

namespace MgmtTodRx0
/-- MGMT_TOD_RX_0 (R305). -/
def reg : Nat := 0xC0000 + 0x408
def secLo : FRef := ⟨reg, 31, 0⟩
end MgmtTodRx0

namespace MgmtTodRx1
/-- MGMT_TOD_RX_1 (R305). -/
def reg : Nat := 0xC0000 + 0x40C
def b8 : FRef := ⟨reg, 23, 16⟩
def secHi : FRef := ⟨reg, 15, 0⟩
end MgmtTodRx1

namespace MgmtTodStat
/-- MGMT_TOD_STAT (R305). -/
def reg : Nat := 0xC0000 + 0x410
def crcErr : FRef := ⟨reg, 3, 3⟩
def secErr : FRef := ⟨reg, 2, 2⟩
def rxValid : FRef := ⟨reg, 1, 1⟩
def rxStale : FRef := ⟨reg, 0, 0⟩
end MgmtTodStat

namespace CasCfg
/-- CAS_CFG (R333). -/
def reg : Nat := 0x70000 + 0x0
def devId : FRef := ⟨reg, 31, 16⟩
def peerNode : FRef := ⟨reg, 15, 10⟩
def autoSet : FRef := ⟨reg, 3, 3⟩
def autoEnum : FRef := ⟨reg, 2, 2⟩
def pairing : FRef := ⟨reg, 1, 1⟩
def en : FRef := ⟨reg, 0, 0⟩
end CasCfg

namespace CasStat
/-- CAS_STAT (R333). -/
def reg : Nat := 0x70000 + 0x4
def role : FRef := ⟨reg, 31, 30⟩
def numbered : FRef := ⟨reg, 29, 29⟩
def node : FRef := ⟨reg, 28, 23⟩
def ringN : FRef := ⟨reg, 22, 16⟩
def gen : FRef := ⟨reg, 15, 12⟩
def leading : FRef := ⟨reg, 11, 11⟩
def clash : FRef := ⟨reg, 10, 10⟩
def intact : FRef := ⟨reg, 9, 9⟩
def upValid : FRef := ⟨reg, 8, 8⟩
def upPort : FRef := ⟨reg, 7, 7⟩
def reach : FRef := ⟨reg, 6, 5⟩
def portUp : FRef := ⟨reg, 4, 3⟩
def secErr : FRef := ⟨reg, 2, 2⟩
def enumRes : FRef := ⟨reg, 1, 0⟩
end CasStat

namespace CasCtl
/-- CAS_CTL (R333). -/
def reg : Nat := 0x70000 + 0x8
def op : FRef := ⟨reg, 2, 0⟩
end CasCtl

namespace CasEpoch
/-- CAS_EPOCH (R333). -/
def reg : Nat := 0x70000 + 0x10
def epoch : FRef := ⟨reg, 31, 0⟩
end CasEpoch

namespace CasStage
/-- CAS_STAGE (R333). -/
def reg : Nat := 0x70000 + 0x14
def epoch : FRef := ⟨reg, 31, 0⟩
end CasStage

namespace CasStageRef
/-- CAS_STAGE_REF (R333). -/
def reg : Nat := 0x70000 + 0x18
def ref : FRef := ⟨reg, 31, 0⟩
end CasStageRef

namespace CasStageCtl
/-- CAS_STAGE_CTL (R333). -/
def reg : Nat := 0x70000 + 0x1C
def noDecision : FRef := ⟨reg, 5, 5⟩
def aborted : FRef := ⟨reg, 4, 4⟩
def pending : FRef := ⟨reg, 3, 3⟩
def armed : FRef := ⟨reg, 2, 2⟩
def refValid : FRef := ⟨reg, 1, 1⟩
def ready : FRef := ⟨reg, 0, 0⟩
end CasStageCtl

namespace CasPropE
/-- CAS_PROP_E (R333). -/
def reg : Nat := 0x70000 + 0x20
def epoch : FRef := ⟨reg, 31, 0⟩
end CasPropE

namespace CasPropT
/-- CAS_PROP_T (R333). -/
def reg (i : Nat) : Nat := 0x70000 + 0x24 + i * 4
def tW (i : Nat) : FRef := ⟨reg i, 31, 0⟩
end CasPropT

namespace CasPropStat
/-- CAS_PROP_STAT (R333). -/
def reg : Nat := 0x70000 + 0x30
def result : FRef := ⟨reg, 2, 0⟩
end CasPropStat

namespace CasMgr
/-- CAS_MGR (R333). -/
def reg : Nat := 0x70000 + 0x34
def dupId : FRef := ⟨reg, 16, 16⟩
def devId : FRef := ⟨reg, 15, 0⟩
end CasMgr

namespace CasHopOff
/-- CAS_HOP_OFF (R334). -/
def reg (c : Nat) : Nat := 0x70100 + c * 0x40 + 0x0
def off (c : Nat) : FRef := ⟨reg c, 31, 0⟩
end CasHopOff

namespace CasHopDly
/-- CAS_HOP_DLY (R334). -/
def reg (c : Nat) : Nat := 0x70100 + c * 0x40 + 0x4
def dly (c : Nat) : FRef := ⟨reg c, 31, 0⟩
end CasHopDly

namespace CasHopAsym
/-- CAS_HOP_ASYM (R334). -/
def reg (c : Nat) (i : Nat) : Nat := 0x70100 + c * 0x40 + 0x8 + i * 4
def e (c : Nat) (i : Nat) : FRef := ⟨reg c i, 31, 0⟩
end CasHopAsym

namespace CasHopCorr
/-- CAS_HOP_CORR (R334). -/
def reg (c : Nat) : Nat := 0x70100 + c * 0x40 + 0x10
def corr (c : Nat) : FRef := ⟨reg c, 31, 0⟩
end CasHopCorr

namespace CasHopStat
/-- CAS_HOP_STAT (R334). -/
def reg (c : Nat) : Nat := 0x70100 + c * 0x40 + 0x14
def reach (c : Nat) : FRef := ⟨reg c, 12, 12⟩
def hops (c : Nat) : FRef := ⟨reg c, 11, 6⟩
def valid (c : Nat) : FRef := ⟨reg c, 5, 5⟩
def calibrated (c : Nat) : FRef := ⟨reg c, 4, 4⟩
def pairs (c : Nat) : FRef := ⟨reg c, 3, 0⟩
end CasHopStat

namespace CasAgrWord
/-- CAS_AGR_WORD (R335). -/
def reg (d : Nat) (i : Nat) : Nat := 0x70800 + d * 0x20 + 0x0 + i * 4
def word (d : Nat) (i : Nat) : FRef := ⟨reg d i, 31, 0⟩
end CasAgrWord

namespace CasAgrExp
/-- CAS_AGR_EXP (R335). -/
def reg (d : Nat) : Nat := 0x70800 + d * 0x20 + 0x10
def exp (d : Nat) : FRef := ⟨reg d, 31, 0⟩
end CasAgrExp

namespace CasAgrCtl
/-- CAS_AGR_CTL (R335). -/
def reg (d : Nat) : Nat := 0x70800 + d * 0x20 + 0x14
def cause (d : Nat) : FRef := ⟨reg d, 6, 3⟩
def disagree (d : Nat) : FRef := ⟨reg d, 2, 2⟩
def present (d : Nat) : FRef := ⟨reg d, 1, 1⟩
def ignore (d : Nat) : FRef := ⟨reg d, 0, 0⟩
end CasAgrCtl

namespace HostFeatOffer
/-- HOST_FEAT_OFFER (R344). -/
def reg (p : Nat) (i : Nat) : Nat := partKey p + 0x40000 + 0x0 + i * 4
def offer (p : Nat) (i : Nat) : FRef := ⟨reg p i, 31, 0⟩
end HostFeatOffer

namespace HostFeatAccept
/-- HOST_FEAT_ACCEPT (R344). -/
def reg (p : Nat) (i : Nat) : Nat := partKey p + 0x40000 + 0x10 + i * 4
def accept (p : Nat) (i : Nat) : FRef := ⟨reg p i, 31, 0⟩
end HostFeatAccept

namespace HostCtl
/-- HOST_CTL (R344). -/
def reg (p : Nat) : Nat := partKey p + 0x40000 + 0x20
def go (p : Nat) : FRef := ⟨reg p, 0, 0⟩
end HostCtl

namespace HostStat
/-- HOST_STAT (R344). -/
def reg (p : Nat) : Nat := partKey p + 0x40000 + 0x24
def bme (p : Nat) : FRef := ⟨reg p, 4, 4⟩
def zeroing (p : Nat) : FRef := ⟨reg p, 3, 3⟩
def running (p : Nat) : FRef := ⟨reg p, 2, 2⟩
def featRes (p : Nat) : FRef := ⟨reg p, 1, 0⟩
end HostStat

namespace HostCto
/-- HOST_CTO (R344). -/
def reg (p : Nat) : Nat := partKey p + 0x40000 + 0x28
def ctoUs (p : Nat) : FRef := ⟨reg p, 15, 0⟩
end HostCto

namespace HostUrgLog
/-- HOST_URG_LOG (R344). -/
def reg (p : Nat) : Nat := partKey p + 0x40000 + 0x40
def valid (p : Nat) : FRef := ⟨reg p, 31, 31⟩
def result (p : Nat) : FRef := ⟨reg p, 27, 24⟩
def target (p : Nat) : FRef := ⟨reg p, 19, 8⟩
def op (p : Nat) : FRef := ⟨reg p, 7, 0⟩
end HostUrgLog

namespace HostOps
/-- HOST_OPS (R344). -/
def reg (p : Nat) : Nat := partKey p + 0x40000 + 0x44
def held (p : Nat) : FRef := ⟨reg p, 27, 16⟩
def floor (p : Nat) : FRef := ⟨reg p, 15, 0⟩
end HostOps

namespace HostRate
/-- HOST_RATE (R344). -/
def reg (p : Nat) : Nat := partKey p + 0x40000 + 0x48
def cap (p : Nat) : FRef := ⟨reg p, 31, 16⟩
def play (p : Nat) : FRef := ⟨reg p, 15, 0⟩
end HostRate

namespace HostRateLim
/-- HOST_RATE_LIM (R344). -/
def reg (p : Nat) : Nat := partKey p + 0x40000 + 0x4C
def cap (p : Nat) : FRef := ⟨reg p, 31, 16⟩
def play (p : Nat) : FRef := ⟨reg p, 15, 0⟩
end HostRateLim

namespace HostCtoLog
/-- HOST_CTO_LOG (R344). -/
def reg (p : Nat) : Nat := partKey p + 0x40000 + 0x50
def valid (p : Nat) : FRef := ⟨reg p, 31, 31⟩
def tag (p : Nat) : FRef := ⟨reg p, 29, 16⟩
def ring (p : Nat) : FRef := ⟨reg p, 13, 8⟩
def kind (p : Nat) : FRef := ⟨reg p, 1, 0⟩
end HostCtoLog

namespace HostLink
/-- HOST_LINK (R344). -/
def reg : Nat := 0x40000 + 0x80
def up : FRef := ⟨reg, 10, 10⟩
def flit : FRef := ⟨reg, 9, 9⟩
def width : FRef := ⟨reg, 8, 4⟩
def rate : FRef := ⟨reg, 3, 0⟩
end HostLink

namespace HostRingBaseLo
/-- HOST_RING_BASE_LO (R345). -/
def reg (p r : Nat) : Nat := partKey p + 0x41000 + r * 0x40 + 0x0
def baseLo (p r : Nat) : FRef := ⟨reg p r, 31, 0⟩
end HostRingBaseLo

namespace HostRingBaseHi
/-- HOST_RING_BASE_HI (R345). -/
def reg (p r : Nat) : Nat := partKey p + 0x41000 + r * 0x40 + 0x4
def baseHi (p r : Nat) : FRef := ⟨reg p r, 31, 0⟩
end HostRingBaseHi

namespace HostRingCfg
/-- HOST_RING_CFG (R345). -/
def reg (p r : Nat) : Nat := partKey p + 0x41000 + r * 0x40 + 0x8
def cpl (p r : Nat) : FRef := ⟨reg p r, 30, 25⟩
def vector (p r : Nat) : FRef := ⟨reg p r, 24, 19⟩
def gate (p r : Nat) : FRef := ⟨reg p r, 18, 18⟩
def follow (p r : Nat) : FRef := ⟨reg p r, 17, 17⟩
def sizeExp (p r : Nat) : FRef := ⟨reg p r, 15, 12⟩
def typ (p r : Nat) : FRef := ⟨reg p r, 9, 7⟩
def en (p r : Nat) : FRef := ⟨reg p r, 0, 0⟩
end HostRingCfg

namespace HostRingArg
/-- HOST_RING_ARG (R345). -/
def reg (p r : Nat) : Nat := partKey p + 0x41000 + r * 0x40 + 0xC
def arg (p r : Nat) : FRef := ⟨reg p r, 31, 0⟩
end HostRingArg

namespace HostRingIrq
/-- HOST_RING_IRQ (R345). -/
def reg (p r : Nat) : Nat := partKey p + 0x41000 + r * 0x40 + 0x10
def holdoffUs (p r : Nat) : FRef := ⟨reg p r, 31, 16⟩
def count (p r : Nat) : FRef := ⟨reg p r, 15, 0⟩
end HostRingIrq

namespace HostRingStat
/-- HOST_RING_STAT (R345). -/
def reg (p r : Nat) : Nat := partKey p + 0x41000 + r * 0x40 + 0x14
def devIdx (p r : Nat) : FRef := ⟨reg p r, 31, 16⟩
def err (p r : Nat) : FRef := ⟨reg p r, 15, 12⟩
def busy (p r : Nat) : FRef := ⟨reg p r, 11, 11⟩
def stopped (p r : Nat) : FRef := ⟨reg p r, 10, 10⟩
def held (p r : Nat) : FRef := ⟨reg p r, 9, 5⟩
end HostRingStat

namespace HostRingHidx
/-- HOST_RING_HIDX (R345). -/
def reg (p r : Nat) : Nat := partKey p + 0x41000 + r * 0x40 + 0x18
def hostIdx (p r : Nat) : FRef := ⟨reg p r, 15, 0⟩
end HostRingHidx

namespace HostCntReq
/-- HOST_CNT_REQ (R378). -/
def reg (p : Nat) : Nat := partKey p + 0x40000 + 0x100
def ring (p : Nat) : FRef := ⟨reg p, 11, 6⟩
def index (p : Nat) : FRef := ⟨reg p, 5, 0⟩
end HostCntReq

namespace HostCntStat
/-- HOST_CNT_STAT (R378). -/
def reg (p : Nat) : Nat := partKey p + 0x40000 + 0x104
def valid (p : Nat) : FRef := ⟨reg p, 0, 0⟩
end HostCntStat

namespace HostCntLo
/-- HOST_CNT_LO (R378). -/
def reg (p : Nat) : Nat := partKey p + 0x40000 + 0x108
def valueLo (p : Nat) : FRef := ⟨reg p, 31, 0⟩
end HostCntLo

namespace HostCntHi
/-- HOST_CNT_HI (R378). -/
def reg (p : Nat) : Nat := partKey p + 0x40000 + 0x10C
def valueHi (p : Nat) : FRef := ⟨reg p, 15, 0⟩
end HostCntHi

namespace SepCtl
/-- SEP_CTL (R422). -/
def reg (c : Nat) : Nat := 0x380000 + c * 0x1000 + 0x0
def en (c : Nat) : FRef := ⟨reg c, 0, 0⟩
end SepCtl

namespace SepCfg
/-- SEP_CFG (R422). -/
def reg (c : Nat) : Nat := 0x380000 + c * 0x1000 + 0x8
def hostDbg (c : Nat) : FRef := ⟨reg c, 1, 1⟩
def hostCtl (c : Nat) : FRef := ⟨reg c, 0, 0⟩
end SepCfg

namespace SepStat
/-- SEP_STAT (R422). -/
def reg (c : Nat) : Nat := 0x380000 + c * 0x1000 + 0xC
def forced (c : Nat) : FRef := ⟨reg c, 16, 16⟩
def cause (c : Nat) : FRef := ⟨reg c, 15, 8⟩
def inAtom (c : Nat) : FRef := ⟨reg c, 3, 3⟩
def state (c : Nat) : FRef := ⟨reg c, 2, 0⟩
end SepStat

namespace SepDpc
/-- SEP_DPC (R422). -/
def reg (c : Nat) : Nat := 0x380000 + c * 0x1000 + 0x10
def dpc (c : Nat) : FRef := ⟨reg c, 31, 0⟩
end SepDpc

namespace SepMboxIn
/-- SEP_MBOX_IN (R422). -/
def reg (c : Nat) : Nat := 0x380000 + c * 0x1000 + 0x14
def msg (c : Nat) : FRef := ⟨reg c, 31, 0⟩
end SepMboxIn

namespace SepMboxOut
/-- SEP_MBOX_OUT (R422). -/
def reg (c : Nat) : Nat := 0x380000 + c * 0x1000 + 0x18
def msg (c : Nat) : FRef := ⟨reg c, 31, 0⟩
end SepMboxOut

namespace SepDbgCtl
/-- SEP_DBG_CTL (R422). -/
def reg (c : Nat) : Nat := 0x380000 + c * 0x1000 + 0x20
def bp1En (c : Nat) : FRef := ⟨reg c, 9, 9⟩
def bp0En (c : Nat) : FRef := ⟨reg c, 8, 8⟩
def step (c : Nat) : FRef := ⟨reg c, 2, 2⟩
def resume (c : Nat) : FRef := ⟨reg c, 1, 1⟩
def haltReq (c : Nat) : FRef := ⟨reg c, 0, 0⟩
end SepDbgCtl

namespace SepDbgBp
/-- SEP_DBG_BP (R422). -/
def reg (c : Nat) (i : Nat) : Nat := 0x380000 + c * 0x1000 + 0x24 + i * 4
def addr (c : Nat) (i : Nat) : FRef := ⟨reg c i, 13, 2⟩
end SepDbgBp

namespace SepDbgSel
/-- SEP_DBG_SEL (R422). -/
def reg (c : Nat) : Nat := 0x380000 + c * 0x1000 + 0x2C
def csr (c : Nat) : FRef := ⟨reg c, 8, 8⟩
def index (c : Nat) : FRef := ⟨reg c, 7, 0⟩
end SepDbgSel

namespace SepDbgData
/-- SEP_DBG_DATA (R422). -/
def reg (c : Nat) : Nat := 0x380000 + c * 0x1000 + 0x30
def data (c : Nat) : FRef := ⟨reg c, 31, 0⟩
end SepDbgData

namespace SepFifo
/-- SEP_FIFO (R422). -/
def reg (c : Nat) : Nat := 0x380000 + c * 0x1000 + 0x40
def on (c : Nat) : FRef := ⟨reg c, 31, 31⟩
def free (c : Nat) : FRef := ⟨reg c, 21, 11⟩
def avail (c : Nat) : FRef := ⟨reg c, 10, 0⟩
end SepFifo

namespace SepFifoCnt
/-- SEP_FIFO_CNT (R422). -/
def reg (c : Nat) : Nat := 0x380000 + c * 0x1000 + 0x44
def discarded (c : Nat) : FRef := ⟨reg c, 31, 24⟩
def uncorr (c : Nat) : FRef := ⟨reg c, 23, 16⟩
def corr (c : Nat) : FRef := ⟨reg c, 15, 0⟩
end SepFifoCnt

namespace SepSemHeld
/-- SEP_SEM_HELD (R422). -/
def reg (c : Nat) (i : Nat) : Nat := 0x380000 + c * 0x1000 + 0x50 + i * 4
def held (c : Nat) (i : Nat) : FRef := ⟨reg c i, 31, 0⟩
end SepSemHeld

namespace MemScrubTgt
/-- MEM_SCRUB_TGT (R445). -/
def reg : Nat := 0x90000 + 0x0
def dS : FRef := ⟨reg, 31, 24⟩
def bMs : FRef := ⟨reg, 22, 12⟩
def tMs : FRef := ⟨reg, 10, 0⟩
end MemScrubTgt

namespace MemScrubLap
/-- MEM_SCRUB_LAP (R445). -/
def reg (i : Nat) : Nat := 0x90000 + 0x4 + i * 4
def lapUs (i : Nat) : FRef := ⟨reg i, 31, 0⟩
end MemScrubLap

namespace MemScrubStat
/-- MEM_SCRUB_STAT (R445). -/
def reg : Nat := 0x90000 + 0x10
def overF : FRef := ⟨reg, 2, 0⟩
end MemScrubStat

namespace MemZeroPend
/-- MEM_ZERO_PEND (R445). -/
def reg : Nat := 0x90000 + 0x14
def deepMib : FRef := ⟨reg, 31, 16⟩
def pages : FRef := ⟨reg, 13, 0⟩
end MemZeroPend

namespace MemHbmCfg
/-- MEM_HBM_CFG (R445). -/
def reg : Nat := 0x90000 + 0x20
def dieThr : FRef := ⟨reg, 7, 0⟩
end MemHbmCfg

namespace MemHbmStat
/-- MEM_HBM_STAT (R445). -/
def reg : Nat := 0x90000 + 0x24
def res : FRef := ⟨reg, 31, 30⟩
def lost1 : FRef := ⟨reg, 29, 29⟩
def lost0 : FRef := ⟨reg, 28, 28⟩
def dies1 : FRef := ⟨reg, 27, 16⟩
def dies0 : FRef := ⟨reg, 11, 0⟩
end MemHbmStat

namespace MemHbmCtl
/-- MEM_HBM_CTL (R445). -/
def reg : Nat := 0x90000 + 0x28
def stack : FRef := ⟨reg, 8, 8⟩
def die : FRef := ⟨reg, 7, 4⟩
def op : FRef := ⟨reg, 2, 0⟩
end MemHbmCtl

namespace MemFlipT
/-- MEM_FLIP_T (R445). -/
def reg : Nat := 0x90000 + 0x40
def arm : FRef := ⟨reg, 31, 31⟩
def mask : FRef := ⟨reg, 12, 0⟩
end MemFlipT

namespace MemFlipTAddr
/-- MEM_FLIP_T_ADDR (R445). -/
def reg : Nat := 0x90000 + 0x44
def addr : FRef := ⟨reg, 25, 0⟩
end MemFlipTAddr

namespace MemFlipBD
/-- MEM_FLIP_B_D (R445). -/
def reg (i : Nat) : Nat := 0x90000 + 0x50 + i * 4
def dmask (i : Nat) : FRef := ⟨reg i, 31, 0⟩
end MemFlipBD

namespace MemFlipB
/-- MEM_FLIP_B (R445). -/
def reg : Nat := 0x90000 + 0x58
def arm : FRef := ⟨reg, 31, 31⟩
def trib : FRef := ⟨reg, 27, 16⟩
def cmask : FRef := ⟨reg, 7, 0⟩
end MemFlipB

namespace MemFlipD
/-- MEM_FLIP_D (R445). -/
def reg : Nat := 0x90000 + 0x60
def arm : FRef := ⟨reg, 31, 31⟩
def trib : FRef := ⟨reg, 27, 16⟩
def pos : FRef := ⟨reg, 11, 8⟩
def value : FRef := ⟨reg, 7, 0⟩
end MemFlipD

namespace MemLog0
/-- MEM_LOG_0 (R445). -/
def reg : Nat := 0x90000 + 0x80
def valid : FRef := ⟨reg, 31, 31⟩
def cls : FRef := ⟨reg, 30, 29⟩
def stack : FRef := ⟨reg, 28, 28⟩
def pos : FRef := ⟨reg, 27, 24⟩
end MemLog0

namespace MemLog1
/-- MEM_LOG_1 (R445). -/
def reg : Nat := 0x90000 + 0x84
def loc : FRef := ⟨reg, 31, 0⟩
end MemLog1

namespace BootMapTrib
/-- BOOT_MAP_TRIB (R475). -/
def reg (i : Nat) : Nat := 0x10000 + 0x1000 + i * 32
def count (i : Nat) : FRef := ⟨reg i, 28, 16⟩
def base (i : Nat) : FRef := ⟨reg i, 11, 0⟩
end BootMapTrib

namespace BootMapWin
/-- BOOT_MAP_WIN (R475). -/
def reg (i : Nat) : Nat := 0x10000 + 0x1004 + i * 32
def count (i : Nat) : FRef := ⟨reg i, 24, 16⟩
def base (i : Nat) : FRef := ⟨reg i, 7, 0⟩
end BootMapWin

namespace BootMapPages
/-- BOOT_MAP_PAGES (R475). -/
def reg (i : Nat) : Nat := 0x10000 + 0x1008 + i * 32
def pages (i : Nat) : FRef := ⟨reg i, 13, 0⟩
end BootMapPages

namespace BootMapDeep
/-- BOOT_MAP_DEEP (R475). -/
def reg (i : Nat) : Nat := 0x10000 + 0x100C + i * 32
def s1 (i : Nat) : FRef := ⟨reg i, 31, 16⟩
def s0 (i : Nat) : FRef := ⟨reg i, 15, 0⟩
end BootMapDeep

namespace BootMapRate
/-- BOOT_MAP_RATE (R475). -/
def reg (i : Nat) : Nat := 0x10000 + 0x1010 + i * 32
def cap (i : Nat) : FRef := ⟨reg i, 31, 16⟩
def play (i : Nat) : FRef := ⟨reg i, 15, 0⟩
end BootMapRate

namespace BootMapGrp
/-- BOOT_MAP_GRP (R475). -/
def reg (i : Nat) : Nat := 0x10000 + 0x1200 + i * 4
def owner (i : Nat) : FRef := ⟨reg i, 3, 0⟩
end BootMapGrp

namespace BootMapSlc
/-- BOOT_MAP_SLC (R475). -/
def reg (i : Nat) : Nat := 0x10000 + 0x1280 + i * 4
def owner0 (i : Nat) : FRef := ⟨reg i, 3, 0⟩
def owner1 (i : Nat) : FRef := ⟨reg i, 7, 4⟩
def owner2 (i : Nat) : FRef := ⟨reg i, 11, 8⟩
def owner3 (i : Nat) : FRef := ⟨reg i, 15, 12⟩
def owner4 (i : Nat) : FRef := ⟨reg i, 19, 16⟩
def owner5 (i : Nat) : FRef := ⟨reg i, 23, 20⟩
def owner6 (i : Nat) : FRef := ⟨reg i, 27, 24⟩
def owner7 (i : Nat) : FRef := ⟨reg i, 31, 28⟩
end BootMapSlc

namespace BootMapSem
/-- BOOT_MAP_SEM (R475). -/
def reg (i : Nat) : Nat := 0x10000 + 0x12C0 + i * 4
def owner0 (i : Nat) : FRef := ⟨reg i, 3, 0⟩
def owner1 (i : Nat) : FRef := ⟨reg i, 7, 4⟩
def owner2 (i : Nat) : FRef := ⟨reg i, 11, 8⟩
def owner3 (i : Nat) : FRef := ⟨reg i, 15, 12⟩
def owner4 (i : Nat) : FRef := ⟨reg i, 19, 16⟩
def owner5 (i : Nat) : FRef := ⟨reg i, 23, 20⟩
def owner6 (i : Nat) : FRef := ⟨reg i, 27, 24⟩
def owner7 (i : Nat) : FRef := ⟨reg i, 31, 28⟩
end BootMapSem

namespace BootMapSemEn
/-- BOOT_MAP_SEM_EN (R475). -/
def reg (i : Nat) : Nat := 0x10000 + 0x12E0 + i * 4
def en (i : Nat) : FRef := ⟨reg i, 31, 0⟩
end BootMapSemEn

namespace BootMapStat
/-- BOOT_MAP_STAT (R475). -/
def reg : Nat := 0x10000 + 0x12F0
def part : FRef := ⟨reg, 11, 8⟩
def inForce : FRef := ⟨reg, 4, 4⟩
def err : FRef := ⟨reg, 3, 0⟩
end BootMapStat

namespace GlbId
/-- GLB_ID (R478). -/
def reg : Nat := 0x0 + 0x0
def part : FRef := ⟨reg, 31, 16⟩
def family : FRef := ⟨reg, 15, 8⟩
def stepping : FRef := ⟨reg, 7, 0⟩
end GlbId

namespace GlbCap
/-- GLB_CAP (R478). -/
def reg : Nat := 0x0 + 0x4
def clusters : FRef := ⟨reg, 31, 24⟩
def cores : FRef := ⟨reg, 23, 16⟩
def groups : FRef := ⟨reg, 15, 8⟩
def lanes : FRef := ⟨reg, 7, 0⟩
end GlbCap

namespace GlbCap2
/-- GLB_CAP2 (R478). -/
def reg (p : Nat) : Nat := partKey p + 0x8
def partitions (p : Nat) : FRef := ⟨reg p, 30, 24⟩
def winHalf (p : Nat) : FRef := ⟨reg p, 23, 16⟩
def tribs (p : Nat) : FRef := ⟨reg p, 12, 0⟩
end GlbCap2

namespace GlbStrap
/-- GLB_STRAP (R478). -/
def reg : Nat := 0x0 + 0x10
def pair : FRef := ⟨reg, 4, 4⟩
def role : FRef := ⟨reg, 3, 2⟩
def mode : FRef := ⟨reg, 1, 0⟩
end GlbStrap

namespace GlbPhase
/-- GLB_PHASE (R478). -/
def reg : Nat := 0x0 + 0x20
def ctlRes : FRef := ⟨reg, 10, 9⟩
def bootDone : FRef := ⟨reg, 8, 8⟩
def cause : FRef := ⟨reg, 6, 4⟩
def phase : FRef := ⟨reg, 1, 0⟩
end GlbPhase

namespace GlbPhaseCfg
/-- GLB_PHASE_CFG (R478). -/
def reg : Nat := 0x0 + 0x24
def duskOnProt : FRef := ⟨reg, 17, 17⟩
def duskOnUnc : FRef := ⟨reg, 16, 16⟩
def duskHoldMs : FRef := ⟨reg, 15, 0⟩
end GlbPhaseCfg

namespace GlbPhaseCtl
/-- GLB_PHASE_CTL (R478). -/
def reg : Nat := 0x0 + 0x28
def op : FRef := ⟨reg, 1, 0⟩
end GlbPhaseCtl

namespace GlbPace
/-- GLB_PACE (R478). -/
def reg : Nat := 0x0 + 0x30
def adaptive : FRef := ⟨reg, 3, 3⟩
def pending : FRef := ⟨reg, 2, 2⟩
def admMode : FRef := ⟨reg, 1, 1⟩
def mode : FRef := ⟨reg, 0, 0⟩
end GlbPace

namespace GlbDebug
/-- GLB_DEBUG (R478). -/
def reg (p : Nat) : Nat := partKey p + 0x40
def peekAll (p : Nat) : FRef := ⟨reg p, 31, 16⟩
def peekHost (p : Nat) : FRef := ⟨reg p, 0, 0⟩
end GlbDebug

namespace GlbQosHost
/-- GLB_QOS_HOST (R478). -/
def reg (i : Nat) : Nat := 0x0 + 0x50 + i * 4
def qos0 (i : Nat) : FRef := ⟨reg i, 2, 0⟩
def qos1 (i : Nat) : FRef := ⟨reg i, 6, 4⟩
def qos2 (i : Nat) : FRef := ⟨reg i, 10, 8⟩
def qos3 (i : Nat) : FRef := ⟨reg i, 14, 12⟩
def qos4 (i : Nat) : FRef := ⟨reg i, 18, 16⟩
def qos5 (i : Nat) : FRef := ⟨reg i, 22, 20⟩
def qos6 (i : Nat) : FRef := ⟨reg i, 26, 24⟩
def qos7 (i : Nat) : FRef := ⟨reg i, 30, 28⟩
end GlbQosHost

namespace GlbQosCore
/-- GLB_QOS_CORE (R478). -/
def reg (i : Nat) : Nat := 0x0 + 0x58 + i * 4
def qos0 (i : Nat) : FRef := ⟨reg i, 2, 0⟩
def qos1 (i : Nat) : FRef := ⟨reg i, 6, 4⟩
def qos2 (i : Nat) : FRef := ⟨reg i, 10, 8⟩
def qos3 (i : Nat) : FRef := ⟨reg i, 14, 12⟩
def qos4 (i : Nat) : FRef := ⟨reg i, 18, 16⟩
def qos5 (i : Nat) : FRef := ⟨reg i, 22, 20⟩
def qos6 (i : Nat) : FRef := ⟨reg i, 26, 24⟩
def qos7 (i : Nat) : FRef := ⟨reg i, 30, 28⟩
end GlbQosCore

namespace GlbQosMisc
/-- GLB_QOS_MISC (R478). -/
def reg : Nat := 0x0 + 0x68
def digest : FRef := ⟨reg, 10, 8⟩
def jtag : FRef := ⟨reg, 6, 4⟩
def cascade : FRef := ⟨reg, 2, 0⟩
end GlbQosMisc

namespace IntegDigCfg
/-- INTEG_DIG_CFG (R479). -/
def reg : Nat := 0x20000 + 0x0
def en : FRef := ⟨reg, 0, 0⟩
end IntegDigCfg

namespace IntegDigRngBase
/-- INTEG_DIG_RNG_BASE (R479). -/
def reg (i : Nat) : Nat := 0x20000 + 0x10 + i * 8
def base (i : Nat) : FRef := ⟨reg i, 25, 6⟩
end IntegDigRngBase

namespace IntegDigRngLen
/-- INTEG_DIG_RNG_LEN (R479). -/
def reg (i : Nat) : Nat := 0x20000 + 0x14 + i * 8
def len (i : Nat) : FRef := ⟨reg i, 16, 0⟩
end IntegDigRngLen

namespace IntegDigVal
/-- INTEG_DIG_VAL (R479). -/
def reg : Nat := 0x20000 + 0x50
def val : FRef := ⟨reg, 31, 0⟩
end IntegDigVal

namespace IntegDigRef
/-- INTEG_DIG_REF (R479). -/
def reg : Nat := 0x20000 + 0x54
def ref : FRef := ⟨reg, 31, 0⟩
end IntegDigRef

namespace IntegDigStat
/-- INTEG_DIG_STAT (R479). -/
def reg : Nat := 0x20000 + 0x5C
def poison : FRef := ⟨reg, 4, 4⟩
def mism : FRef := ⟨reg, 3, 3⟩
def committed : FRef := ⟨reg, 2, 2⟩
def matchLast : FRef := ⟨reg, 1, 1⟩
def digest : FRef := ⟨reg, 0, 0⟩
end IntegDigStat

namespace IntegDigLap
/-- INTEG_DIG_LAP (R479). -/
def reg : Nat := 0x20000 + 0x60
def lapUs : FRef := ⟨reg, 31, 0⟩
end IntegDigLap

namespace IntegBuserr0
/-- INTEG_BUSERR_0 (R479). -/
def reg (p : Nat) : Nat := partKey p + 0x20000 + 0x100
def valid (p : Nat) : FRef := ⟨reg p, 31, 31⟩
def more (p : Nat) : FRef := ⟨reg p, 30, 30⟩
def cause (p : Nat) : FRef := ⟨reg p, 27, 24⟩
def master (p : Nat) : FRef := ⟨reg p, 21, 16⟩
def write (p : Nat) : FRef := ⟨reg p, 8, 8⟩
end IntegBuserr0

namespace IntegBuserr1
/-- INTEG_BUSERR_1 (R479). -/
def reg (p : Nat) : Nat := partKey p + 0x20000 + 0x104
def bar (p : Nat) : FRef := ⟨reg p, 31, 30⟩
def offset (p : Nat) : FRef := ⟨reg p, 25, 0⟩
end IntegBuserr1

namespace IntegBuserrCnt
/-- INTEG_BUSERR_CNT (R479). -/
def reg (p : Nat) : Nat := partKey p + 0x20000 + 0x108
def count (p : Nat) : FRef := ⟨reg p, 31, 0⟩
end IntegBuserrCnt

namespace IntegDwlog0
/-- INTEG_DWLOG_0 (R479). -/
def reg (p : Nat) : Nat := partKey p + 0x20000 + 0x110
def word (p : Nat) : FRef := ⟨reg p, 31, 16⟩
end IntegDwlog0

namespace IntegDwlog1
/-- INTEG_DWLOG_1 (R479). -/
def reg (p : Nat) : Nat := partKey p + 0x20000 + 0x114
def word (p : Nat) : FRef := ⟨reg p, 31, 0⟩
end IntegDwlog1

namespace IntegDwlogCnt
/-- INTEG_DWLOG_CNT (R479). -/
def reg (p : Nat) : Nat := partKey p + 0x20000 + 0x118
def count (p : Nat) : FRef := ⟨reg p, 31, 0⟩
end IntegDwlogCnt

namespace IntegCfgwe
/-- INTEG_CFGWE (R479). -/
def reg (p : Nat) : Nat := partKey p + 0x20000 + 0x120
def flags (p : Nat) : FRef := ⟨reg p, 17, 0⟩
end IntegCfgwe

namespace IntegCfgweAddr
/-- INTEG_CFGWE_ADDR (R479). -/
def reg (p : Nat) : Nat := partKey p + 0x20000 + 0x124
def offset (p : Nat) : FRef := ⟨reg p, 21, 0⟩
end IntegCfgweAddr

namespace SemAcq
/-- SEM_ACQ (R480). -/
def reg (p : Nat) (i : Nat) : Nat := partKey p + 0x30000 + 0x0 + i * 4
def result (p : Nat) (i : Nat) : FRef := ⟨reg p i, 2, 0⟩
end SemAcq

namespace SemRel
/-- SEM_REL (R480). -/
def reg (p : Nat) (i : Nat) : Nat := partKey p + 0x30000 + 0x100 + i * 4
def word (p : Nat) (i : Nat) : FRef := ⟨reg p i, 31, 0⟩
end SemRel

namespace SemRelRes
/-- SEM_REL_RES (R480). -/
def reg (p : Nat) : Nat := partKey p + 0x30000 + 0x200
def result (p : Nat) : FRef := ⟨reg p, 2, 0⟩
end SemRelRes

namespace SemStat
/-- SEM_STAT (R480). -/
def reg (p : Nat) (i : Nat) : Nat := partKey p + 0x30000 + 0x300 + i * 4
def waiters (p : Nat) (i : Nat) : FRef := ⟨reg p i, 8, 8⟩
def holder (p : Nat) (i : Nat) : FRef := ⟨reg p i, 7, 2⟩
def abandoned (p : Nat) (i : Nat) : FRef := ⟨reg p i, 1, 1⟩
def held (p : Nat) (i : Nat) : FRef := ⟨reg p i, 0, 0⟩
end SemStat

namespace SemHeld
/-- SEM_HELD (R480). -/
def reg (p : Nat) (i : Nat) : Nat := partKey p + 0x30000 + 0x400 + i * 4
def held (p : Nat) (i : Nat) : FRef := ⟨reg p i, 31, 0⟩
end SemHeld

namespace BootStat
/-- BOOT_STAT (R505). -/
def reg : Nat := 0x10000 + 0x0
def err : FRef := ⟨reg, 31, 28⟩
def wdCount : FRef := ⟨reg, 27, 24⟩
def stage : FRef := ⟨reg, 19, 16⟩
def ledgerNew : FRef := ⟨reg, 1, 1⟩
def warm : FRef := ⟨reg, 0, 0⟩
end BootStat

namespace BootCtl
/-- BOOT_CTL (R505). -/
def reg : Nat := 0x10000 + 0x4
def done : FRef := ⟨reg, 0, 0⟩
end BootCtl

namespace BootHostImg
/-- BOOT_HOST_IMG (R505). -/
def reg (i : Nat) : Nat := 0x10000 + 0x10 + i * 4
def addr (i : Nat) : FRef := ⟨reg i, 31, 0⟩
end BootHostImg

namespace BootHostImgLen
/-- BOOT_HOST_IMG_LEN (R505). -/
def reg : Nat := 0x10000 + 0x18
def len : FRef := ⟨reg, 22, 0⟩
end BootHostImgLen

namespace BootHostImgGo
/-- BOOT_HOST_IMG_GO (R505). -/
def reg : Nat := 0x10000 + 0x1C
def go : FRef := ⟨reg, 0, 0⟩
end BootHostImgGo

namespace BootReboot
/-- BOOT_REBOOT (R505). -/
def reg : Nat := 0x10000 + 0x20
def req : FRef := ⟨reg, 0, 0⟩
end BootReboot

namespace BootReset
/-- BOOT_RESET (R505). -/
def reg : Nat := 0x10000 + 0x28
def soft : FRef := ⟨reg, 0, 0⟩
end BootReset

namespace BootDbg
/-- BOOT_DBG (R505). -/
def reg : Nat := 0x10000 + 0x30
def policy : FRef := ⟨reg, 1, 0⟩
end BootDbg

namespace BootSecver
/-- BOOT_SECVER (R505). -/
def reg : Nat := 0x10000 + 0x34
def image : FRef := ⟨reg, 31, 16⟩
def min : FRef := ⟨reg, 15, 0⟩
end BootSecver

namespace PwrDomCtl
/-- PWR_DOM_CTL (R506). -/
def reg : Nat := 0xB0000 + 0x0
def op : FRef := ⟨reg, 9, 8⟩
def unit : FRef := ⟨reg, 7, 0⟩
end PwrDomCtl

namespace PwrDomStat
/-- PWR_DOM_STAT (R506). -/
def reg : Nat := 0xB0000 + 0x8
def unit : FRef := ⟨reg, 15, 8⟩
def res : FRef := ⟨reg, 2, 0⟩
end PwrDomStat

namespace PwrDomOn
/-- PWR_DOM_ON (R506). -/
def reg (i : Nat) : Nat := 0xB0000 + 0x10 + i * 4
def on (i : Nat) : FRef := ⟨reg i, 31, 0⟩
end PwrDomOn

namespace PwrStat
/-- PWR_STAT (R506). -/
def reg : Nat := 0xB0000 + 0x28
def lgDone : FRef := ⟨reg, 0, 0⟩
end PwrStat

namespace PwrPaceCtl
/-- PWR_PACE_CTL (R506). -/
def reg : Nat := 0xB0000 + 0x30
def force : FRef := ⟨reg, 1, 1⟩
def mode : FRef := ⟨reg, 0, 0⟩
end PwrPaceCtl

namespace PwrPaceCfg
/-- PWR_PACE_CFG (R506). -/
def reg : Nat := 0xB0000 + 0x38
def actForce : FRef := ⟨reg, 0, 0⟩
end PwrPaceCfg

namespace PwrPaceStat
/-- PWR_PACE_STAT (R506). -/
def reg : Nat := 0xB0000 + 0x3C
def voided : FRef := ⟨reg, 31, 16⟩
def res : FRef := ⟨reg, 1, 0⟩
end PwrPaceStat

namespace PwrTherm
/-- PWR_THERM (R506). -/
def reg : Nat := 0xB0000 + 0x40
def tj : FRef := ⟨reg, 31, 16⟩
def alarmThr : FRef := ⟨reg, 15, 0⟩
end PwrTherm

namespace PwrGrpRst
/-- PWR_GRP_RST (R506). -/
def reg : Nat := 0xB0000 + 0x50
def grp : FRef := ⟨reg, 23, 0⟩
end PwrGrpRst

namespace MgmtAlarmSrc
/-- MGMT_ALARM_SRC (R507). -/
def reg : Nat := 0xC0000 + 0x0
def src : FRef := ⟨reg, 10, 0⟩
end MgmtAlarmSrc

namespace MgmtAlarmStky
/-- MGMT_ALARM_STKY (R507). -/
def reg : Nat := 0xC0000 + 0x4
def stky : FRef := ⟨reg, 10, 0⟩
end MgmtAlarmStky

namespace MgmtAlarmMask
/-- MGMT_ALARM_MASK (R507). -/
def reg : Nat := 0xC0000 + 0x8
def mask : FRef := ⟨reg, 10, 0⟩
end MgmtAlarmMask

namespace MgmtI2cTgt
/-- MGMT_I2C_TGT (R507). -/
def reg : Nat := 0xC0000 + 0x100
def wrEn : FRef := ⟨reg, 7, 7⟩
def addr : FRef := ⟨reg, 6, 0⟩
end MgmtI2cTgt

namespace MgmtI2cCtl
/-- MGMT_I2C_CTL (R507). -/
def reg : Nat := 0xC0000 + 0x104
def tgtFast : FRef := ⟨reg, 1, 1⟩
def ctlFast : FRef := ⟨reg, 0, 0⟩
end MgmtI2cCtl

namespace MgmtI2cStat
/-- MGMT_I2C_STAT (R507). -/
def reg : Nat := 0xC0000 + 0x108
def stuck : FRef := ⟨reg, 2, 2⟩
def arbFail : FRef := ⟨reg, 1, 1⟩
def busy : FRef := ⟨reg, 0, 0⟩
end MgmtI2cStat

namespace MgmtEep
/-- MGMT_EEP (R507). -/
def reg : Nat := 0xC0000 + 0x200
def ledgerBase : FRef := ⟨reg, 31, 16⟩
def addr : FRef := ⟨reg, 6, 0⟩
end MgmtEep

namespace MgmtSens
/-- MGMT_SENS (R507). -/
def reg : Nat := 0xC0000 + 0x210
def en : FRef := ⟨reg, 31, 31⟩
def regF : FRef := ⟨reg, 23, 16⟩
def addr : FRef := ⟨reg, 6, 0⟩
end MgmtSens

namespace MgmtSensVal
/-- MGMT_SENS_VAL (R507). -/
def reg : Nat := 0xC0000 + 0x214
def stale : FRef := ⟨reg, 31, 31⟩
def temp : FRef := ⟨reg, 15, 0⟩
end MgmtSensVal

namespace PerfCtl
/-- PERF_CTL (R518). -/
def reg (p : Nat) : Nat := partKey p + 0xA0000 + 0x0
def clear (p : Nat) : FRef := ⟨reg p, 1, 1⟩
def run (p : Nat) : FRef := ⟨reg p, 0, 0⟩
end PerfCtl

namespace PerfCntCfg
/-- PERF_CNT_CFG (R518). -/
def reg (p : Nat) (i : Nat) : Nat := partKey p + 0xA0000 + 0x10 + i * 4
def en (p : Nat) (i : Nat) : FRef := ⟨reg p i, 31, 31⟩
def lvl (p : Nat) (i : Nat) : FRef := ⟨reg p i, 30, 30⟩
def arg (p : Nat) (i : Nat) : FRef := ⟨reg p i, 27, 16⟩
def event (p : Nat) (i : Nat) : FRef := ⟨reg p i, 7, 0⟩
end PerfCntCfg

namespace PerfCntReq
/-- PERF_CNT_REQ (R518). -/
def reg (p : Nat) : Nat := partKey p + 0xA0000 + 0x100
def index (p : Nat) : FRef := ⟨reg p, 3, 0⟩
end PerfCntReq

namespace PerfCntStat
/-- PERF_CNT_STAT (R518). -/
def reg (p : Nat) : Nat := partKey p + 0xA0000 + 0x104
def valid (p : Nat) : FRef := ⟨reg p, 0, 0⟩
end PerfCntStat

namespace PerfCntLo
/-- PERF_CNT_LO (R518). -/
def reg (p : Nat) : Nat := partKey p + 0xA0000 + 0x108
def valueLo (p : Nat) : FRef := ⟨reg p, 31, 0⟩
end PerfCntLo

namespace PerfCntHi
/-- PERF_CNT_HI (R518). -/
def reg (p : Nat) : Nat := partKey p + 0xA0000 + 0x10C
def valueHi (p : Nat) : FRef := ⟨reg p, 15, 0⟩
end PerfCntHi

namespace PerfVtCfg
/-- PERF_VT_CFG (R518). -/
def reg (p : Nat) : Nat := partKey p + 0xA0000 + 0x200
def en (p : Nat) : FRef := ⟨reg p, 31, 31⟩
def kind (p : Nat) : FRef := ⟨reg p, 30, 30⟩
def rateExp (p : Nat) : FRef := ⟨reg p, 28, 24⟩
def core (p : Nat) : FRef := ⟨reg p, 20, 16⟩
def trib (p : Nat) : FRef := ⟨reg p, 11, 0⟩
end PerfVtCfg

namespace PerfVtSeed
/-- PERF_VT_SEED (R518). -/
def reg (p : Nat) : Nat := partKey p + 0xA0000 + 0x204
def seed (p : Nat) : FRef := ⟨reg p, 31, 0⟩
end PerfVtSeed

namespace PerfVtStat
/-- PERF_VT_STAT (R518). -/
def reg (p : Nat) : Nat := partKey p + 0xA0000 + 0x208
def lost (p : Nat) : FRef := ⟨reg p, 31, 24⟩
def inflight (p : Nat) : FRef := ⟨reg p, 18, 16⟩
def skipped (p : Nat) : FRef := ⟨reg p, 15, 0⟩
end PerfVtStat

namespace PerfPaceNow
/-- PERF_PACE_NOW (R518). -/
def reg : Nat := 0xA0000 + 0x300
def quad : FRef := ⟨reg, 28, 24⟩
def period : FRef := ⟨reg, 15, 0⟩
end PerfPaceNow

namespace PerfPaceMax
/-- PERF_PACE_MAX (R518). -/
def reg : Nat := 0xA0000 + 0x304
def period : FRef := ⟨reg, 15, 0⟩
end PerfPaceMax

namespace PerfPaceMin
/-- PERF_PACE_MIN (R518). -/
def reg : Nat := 0xA0000 + 0x308
def period : FRef := ⟨reg, 15, 0⟩
end PerfPaceMin

namespace PerfPaceStat
/-- PERF_PACE_STAT (R518). -/
def reg : Nat := 0xA0000 + 0x30C
def overF : FRef := ⟨reg, 0, 0⟩
end PerfPaceStat

namespace PwrAvs
/-- PWR_AVS (R526). -/
def reg : Nat := 0xB0000 + 0x60
def adaptive : FRef := ⟨reg, 31, 31⟩
def nak : FRef := ⟨reg, 17, 17⟩
def timeout : FRef := ⟨reg, 16, 16⟩
def reqMv : FRef := ⟨reg, 15, 0⟩
end PwrAvs

namespace MgmtIoFault
/-- MGMT_IO_FAULT (R535). -/
def reg : Nat := 0xC0000 + 0x300
def pairHb : FRef := ⟨reg, 15, 15⟩
def i2cC : FRef := ⟨reg, 14, 14⟩
def i2cT : FRef := ⟨reg, 13, 13⟩
def alarm : FRef := ⟨reg, 12, 12⟩
def out : FRef := ⟨reg, 10, 0⟩
end MgmtIoFault

namespace CasCntReq
/-- CAS_CNT_REQ (R336). -/
def reg : Nat := 0x70000 + 0x300
def port : FRef := ⟨reg, 8, 8⟩
def index : FRef := ⟨reg, 5, 0⟩
end CasCntReq

namespace CasCntStat
/-- CAS_CNT_STAT (R336). -/
def reg : Nat := 0x70000 + 0x304
def valid : FRef := ⟨reg, 0, 0⟩
end CasCntStat

namespace CasCntLo
/-- CAS_CNT_LO (R336). -/
def reg : Nat := 0x70000 + 0x308
def valueLo : FRef := ⟨reg, 31, 0⟩
end CasCntLo

namespace CasCntHi
/-- CAS_CNT_HI (R336). -/
def reg : Nat := 0x70000 + 0x30C
def valueHi : FRef := ⟨reg, 15, 0⟩
end CasCntHi

namespace CasAgrDis
/-- CAS_AGR_DIS (R335). -/
def reg (i : Nat) : Nat := 0x70000 + 0x200 + i * 4
def nodes (i : Nat) : FRef := ⟨reg i, 31, 0⟩
end CasAgrDis

namespace CasAgrSil
/-- CAS_AGR_SIL (R335). -/
def reg (i : Nat) : Nat := 0x70000 + 0x208 + i * 4
def nodes (i : Nat) : FRef := ⟨reg i, 31, 0⟩
end CasAgrSil

namespace MemCntReq
/-- MEM_CNT_REQ (R446). -/
def reg : Nat := 0x90000 + 0x100
def index : FRef := ⟨reg, 5, 0⟩
end MemCntReq

namespace MemCntStat
/-- MEM_CNT_STAT (R446). -/
def reg : Nat := 0x90000 + 0x104
def valid : FRef := ⟨reg, 0, 0⟩
end MemCntStat

namespace MemCntLo
/-- MEM_CNT_LO (R446). -/
def reg : Nat := 0x90000 + 0x108
def valueLo : FRef := ⟨reg, 31, 0⟩
end MemCntLo

namespace MemCntHi
/-- MEM_CNT_HI (R446). -/
def reg : Nat := 0x90000 + 0x10C
def valueHi : FRef := ⟨reg, 15, 0⟩
end MemCntHi

def laneRegs0 : List RegDesc := [
  ⟨"LANE_KLF_CFG", .owner, 0x800, 1, 4, [⟨5, 4, .cfg, 0, 0, 3⟩, ⟨3, 2, .cfg, 0, 0, 3⟩, ⟨1, 1, .cfg, 1, 0, 1⟩, ⟨0, 0, .cfg, 1, 0, 1⟩]⟩,
  ⟨"LANE_KLF_SRC", .owner, 0x804, 1, 4, [⟨15, 0, .cfg, 0, 0, 65535⟩]⟩,
  ⟨"LANE_KLF_STAT", .owner, 0x808, 1, 4, [⟨6, 6, .sticky, 0, 0, 1⟩, ⟨5, 5, .sticky, 0, 0, 1⟩, ⟨4, 4, .sticky, 0, 0, 1⟩, ⟨3, 3, .sticky, 0, 0, 1⟩, ⟨2, 2, .ro, 0, 0, 1⟩, ⟨1, 1, .ro, 0, 0, 1⟩, ⟨0, 0, .ro, 0, 0, 1⟩]⟩,
  ⟨"LANE_KLF_RXOH_CTL", .owner, 0x80C, 1, 4, [⟨1, 1, .ro, 0, 0, 1⟩, ⟨0, 0, .rw, 0, 0, 1⟩]⟩,
  ⟨"LANE_KLF_TXOH", .owner, 0x840, 16, 4, [⟨31, 0, .rw, 0, 0, 4294967295⟩]⟩,
  ⟨"LANE_KLF_RXOH", .owner, 0x880, 16, 4, [⟨31, 0, .ro, 0, 0, 4294967295⟩]⟩,
  ⟨"LANE_DSK_CFG", .owner, 0x8, 1, 4, [⟨7, 0, .cfg, 2, 2, 128⟩]⟩,
  ⟨"LANE_DSK_STAT", .owner, 0xC, 1, 4, [⟨26, 18, .rs, 0, 0, 511⟩, ⟨17, 9, .rs, 0, 0, 511⟩, ⟨8, 0, .ro, 0, 0, 511⟩]⟩,
  ⟨"LANE_FREQ", .owner, 0x10, 1, 4, [⟨31, 0, .ro, 0, 0, 4294967295⟩]⟩,
  ⟨"LANE_CFG", .owner, 0x0, 1, 4, [⟨1, 1, .rw, 0, 0, 1⟩, ⟨0, 0, .rw, 0, 0, 1⟩]⟩,
  ⟨"LANE_RX_CFG", .owner, 0x4, 1, 4, [⟨23, 16, .cfg, 5, 1, 50⟩, ⟨15, 8, .cfg, 20, 5, 55⟩, ⟨7, 0, .cfg, 60, 20, 200⟩]⟩,
  ⟨"LANE_ACQ", .owner, 0x14, 1, 4, [⟨6, 4, .ro, 0, 0, 7⟩, ⟨2, 0, .ro, 0, 0, 7⟩]⟩]

def laneRegs1 : List RegDesc := [
  ⟨"LANE_FEC_CFG", .owner, 0x40, 1, 4, [⟨23, 8, .cfg, 1, 1, 65535⟩, ⟨3, 0, .cfg, 10, 6, 16⟩]⟩,
  ⟨"LANE_SD_SET", .owner, 0x44, 1, 4, [⟨23, 0, .cfg, 3547, 0, 16777215⟩]⟩,
  ⟨"LANE_SD_CLR", .owner, 0x48, 1, 4, [⟨23, 0, .cfg, 355, 0, 16777215⟩]⟩,
  ⟨"LANE_SF_SET", .owner, 0x4C, 1, 4, [⟨23, 0, .cfg, 35468, 0, 16777215⟩]⟩,
  ⟨"LANE_SF_CLR", .owner, 0x50, 1, 4, [⟨23, 0, .cfg, 3547, 0, 16777215⟩]⟩,
  ⟨"LANE_FEC_WIN_CORR", .owner, 0x54, 1, 4, [⟨31, 0, .ro, 0, 0, 4294967295⟩]⟩,
  ⟨"LANE_FEC_WIN_UNC", .owner, 0x58, 1, 4, [⟨31, 0, .ro, 0, 0, 4294967295⟩]⟩,
  ⟨"LANE_CNT_REQ", .owner, 0x60, 1, 4, [⟨5, 0, .rw, 0, 0, 63⟩]⟩,
  ⟨"LANE_CNT_STAT", .owner, 0x64, 1, 4, [⟨0, 0, .ro, 0, 0, 1⟩]⟩,
  ⟨"LANE_CNT_LO", .owner, 0x68, 1, 4, [⟨31, 0, .ro, 0, 0, 4294967295⟩]⟩,
  ⟨"LANE_CNT_HI", .owner, 0x6C, 1, 4, [⟨15, 0, .rs, 0, 0, 65535⟩]⟩,
  ⟨"LANE_DEF", .owner, 0x20, 1, 4, [⟨9, 0, .ro, 0, 0, 1023⟩]⟩]

def laneRegs2 : List RegDesc := [
  ⟨"LANE_DEF_STKY", .owner, 0x24, 1, 4, [⟨7, 0, .sticky, 0, 0, 255⟩]⟩,
  ⟨"LANE_DEF_IVL", .owner, 0x28, 1, 4, [⟨7, 0, .rs, 0, 0, 255⟩]⟩,
  ⟨"LANE_FAIL", .owner, 0x2C, 1, 4, [⟨7, 0, .ro, 0, 0, 255⟩]⟩,
  ⟨"LANE_FAIL_MASK", .owner, 0x30, 1, 4, [⟨15, 8, .rw, 31, 0, 255⟩, ⟨7, 0, .rw, 0, 0, 255⟩]⟩,
  ⟨"LANE_ETH_CFG", .owner, 0x900, 1, 4, [⟨16, 16, .cfg, 1, 0, 1⟩, ⟨13, 0, .cfg, 9216, 64, 9216⟩]⟩,
  ⟨"LANE_ETH_STAT", .owner, 0x904, 1, 4, [⟨3, 3, .ro, 0, 0, 1⟩, ⟨2, 2, .ro, 0, 0, 1⟩, ⟨1, 1, .ro, 0, 0, 1⟩, ⟨0, 0, .ro, 0, 0, 1⟩]⟩,
  ⟨"LANE_CAL_RX_CTL", .owner, 0xA00, 1, 4, [⟨1, 1, .rw, 0, 0, 1⟩, ⟨0, 0, .rw, 1, 0, 1⟩]⟩,
  ⟨"LANE_CAL_CRC", .owner, 0xA04, 4, 4, [⟨31, 0, .rw, 0, 0, 4294967295⟩]⟩,
  ⟨"LANE_CAL_STAT", .owner, 0xA14, 1, 4, [⟨30, 30, .sticky, 0, 0, 1⟩, ⟨29, 29, .sticky, 0, 0, 1⟩, ⟨28, 16, .ro, 0, 0, 8191⟩, ⟨14, 14, .ro, 0, 0, 1⟩, ⟨13, 13, .ro, 0, 0, 1⟩, ⟨12, 12, .ro, 0, 0, 1⟩, ⟨11, 8, .ro, 0, 0, 15⟩, ⟨7, 4, .ro, 0, 0, 15⟩, ⟨3, 0, .ro, 0, 0, 15⟩]⟩,
  ⟨"LANE_CAL_RX_SWAP", .owner, 0xA18, 1, 4, [⟨31, 0, .ro, 0, 0, 4294967295⟩]⟩,
  ⟨"LANE_ETH_UNM", .owner, 0x908, 1, 4, [⟨31, 0, .rs, 0, 0, 4294967295⟩]⟩]

/-- The registers of a lane window. -/
def laneRegs : List RegDesc := laneRegs0 ++ laneRegs1 ++ laneRegs2

def grpRegs0 : List RegDesc := [
  ⟨"GRP_CFG", .owner, 0x0, 1, 4, [⟨8, 6, .cfg, 0, 0, 4⟩, ⟨5, 5, .cfg, 1, 0, 1⟩, ⟨4, 3, .cfg, 0, 0, 3⟩, ⟨2, 1, .cfg, 0, 0, 2⟩, ⟨0, 0, .rw, 0, 0, 1⟩]⟩,
  ⟨"GRP_STAT", .owner, 0x4, 1, 4, [⟨5, 4, .ro, 2, 0, 3⟩, ⟨3, 3, .ro, 0, 0, 1⟩, ⟨2, 2, .ro, 0, 0, 1⟩, ⟨1, 0, .ro, 0, 0, 3⟩]⟩,
  ⟨"GRP_FREQ", .owner, 0x8, 1, 4, [⟨31, 0, .ro, 0, 0, 4294967295⟩]⟩,
  ⟨"GRP_SOAK", .owner, 0xC, 1, 4, [⟨31, 16, .rw, 100, 1, 65535⟩, ⟨15, 0, .rw, 25, 1, 65535⟩]⟩]

/-- The registers of a grp window. -/
def grpRegs : List RegDesc := grpRegs0

def tribRegs0 : List RegDesc := [
  ⟨"TRIB_CFG", .owner, 0x0, 1, 4, [⟨17, 17, .cfg, 0, 0, 1⟩, ⟨16, 16, .cfg, 0, 0, 1⟩, ⟨15, 8, .cfg, 0, 0, 255⟩, ⟨7, 4, .cfg, 0, 0, 15⟩, ⟨3, 1, .cfg, 0, 0, 4⟩, ⟨0, 0, .rw, 0, 0, 1⟩]⟩,
  ⟨"TRIB_ID", .owner, 0x4, 1, 4, [⟨27, 16, .cfg, 0, 0, 4095⟩, ⟨11, 0, .cfg, 0, 0, 4095⟩]⟩,
  ⟨"TRIB_PERIOD_LO", .owner, 0x8, 1, 4, [⟨31, 0, .cfg, 0, 0, 4294967295⟩]⟩,
  ⟨"TRIB_PERIOD_HI", .owner, 0xC, 1, 4, [⟨15, 0, .cfg, 0, 0, 65535⟩]⟩,
  ⟨"TRIB_AGE_LO", .owner, 0x10, 1, 4, [⟨31, 0, .cfg, 0, 0, 4294967295⟩]⟩,
  ⟨"TRIB_AGE_HI", .owner, 0x14, 1, 4, [⟨15, 0, .cfg, 0, 0, 65535⟩]⟩,
  ⟨"TRIB_ETH_CFG", .owner, 0x18, 1, 4, [⟨31, 24, .cfg, 0, 46, 124⟩, ⟨19, 13, .cfg, 0, 0, 127⟩, ⟨11, 11, .cfg, 0, 0, 1⟩, ⟨10, 0, .cfg, 0, 1, 1120⟩]⟩,
  ⟨"TRIB_DEF", .owner, 0x20, 1, 4, [⟨5, 0, .ro, 0, 0, 63⟩]⟩,
  ⟨"TRIB_DEF_STKY", .owner, 0x24, 1, 4, [⟨5, 0, .sticky, 0, 0, 63⟩]⟩,
  ⟨"TRIB_RX_SEQ", .owner, 0x28, 1, 4, [⟨31, 0, .ro, 0, 0, 4294967295⟩]⟩,
  ⟨"TRIB_STAT", .owner, 0x2C, 1, 4, [⟨17, 5, .ro, 0, 0, 8191⟩, ⟨4, 2, .ro, 0, 0, 7⟩, ⟨1, 1, .ro, 0, 0, 1⟩, ⟨0, 0, .ro, 0, 0, 1⟩]⟩,
  ⟨"TRIB_LAT_LO", .owner, 0x30, 1, 4, [⟨31, 0, .rw, 0, 0, 4294967295⟩]⟩]

def tribRegs1 : List RegDesc := [
  ⟨"TRIB_LAT_HI", .owner, 0x34, 1, 4, [⟨31, 31, .ro, 0, 0, 1⟩, ⟨30, 30, .ro, 0, 0, 1⟩, ⟨29, 28, .ro, 0, 0, 3⟩, ⟨27, 26, .rw, 0, 0, 2⟩, ⟨25, 25, .rw, 0, 0, 1⟩, ⟨15, 0, .rw, 0, 0, 65535⟩]⟩,
  ⟨"TRIB_ARR_MIN", .owner, 0x38, 1, 4, [⟨31, 0, .rw, 0, 0, 4294967295⟩]⟩,
  ⟨"TRIB_ARR_MAX", .owner, 0x3C, 1, 4, [⟨31, 0, .rw, 0, 0, 4294967295⟩]⟩]

/-- The registers of a trib window. -/
def tribRegs : List RegDesc := tribRegs0 ++ tribRegs1

def tcntRegs0 : List RegDesc := [
  ⟨"TRIB_CNT_REQ", .part, 0x0, 1, 4, [⟨27, 16, .rw, 0, 0, 4095⟩, ⟨5, 0, .rw, 0, 0, 63⟩]⟩,
  ⟨"TRIB_CNT_STAT", .part, 0x4, 1, 4, [⟨0, 0, .ro, 0, 0, 1⟩]⟩,
  ⟨"TRIB_CNT_LO", .part, 0x8, 1, 4, [⟨31, 0, .ro, 0, 0, 4294967295⟩]⟩,
  ⟨"TRIB_CNT_HI", .part, 0xC, 1, 4, [⟨15, 0, .rs, 0, 0, 65535⟩]⟩]

/-- The registers of a tcnt window. -/
def tcntRegs : List RegDesc := tcntRegs0

def winRegs0 : List RegDesc := [
  ⟨"WIN_CFG", .owner, 0x0, 1, 4, [⟨31, 30, .ro, 0, 0, 3⟩, ⟨23, 18, .cfg, 0, 0, 63⟩, ⟨17, 6, .cfg, 0, 0, 4095⟩, ⟨5, 4, .cfg, 0, 0, 2⟩, ⟨2, 1, .cfg, 0, 0, 2⟩, ⟨0, 0, .rw, 0, 0, 1⟩]⟩,
  ⟨"WIN_START", .owner, 0x4, 3, 4, [⟨31, 0, .cfg, 0, 0, 4294967295⟩]⟩,
  ⟨"WIN_END", .owner, 0x10, 3, 4, [⟨31, 0, .cfg, 0, 0, 4294967295⟩]⟩,
  ⟨"WIN_PER_LO", .owner, 0x1C, 1, 4, [⟨31, 0, .cfg, 0, 0, 4294967295⟩]⟩,
  ⟨"WIN_PER_HI", .owner, 0x20, 1, 4, [⟨15, 0, .cfg, 0, 0, 65535⟩]⟩,
  ⟨"WIN_COUNT", .owner, 0x24, 1, 4, [⟨31, 16, .ro, 0, 0, 65535⟩, ⟨15, 0, .cfg, 0, 0, 65535⟩]⟩]

/-- The registers of a win window. -/
def winRegs : List RegDesc := winRegs0

def timeRegs0 : List RegDesc := [
  ⟨"TIME_RD_REQ", .part, 0x0, 1, 4, [⟨2, 0, .rw, 0, 0, 3⟩]⟩,
  ⟨"TIME_RD_STAT", .part, 0x4, 1, 4, [⟨1, 1, .ro, 0, 0, 1⟩, ⟨0, 0, .ro, 0, 0, 1⟩]⟩,
  ⟨"TIME_RD_0", .part, 0x8, 1, 4, [⟨31, 0, .ro, 0, 0, 4294967295⟩]⟩,
  ⟨"TIME_RD_1", .part, 0xC, 1, 4, [⟨31, 0, .ro, 0, 0, 4294967295⟩]⟩,
  ⟨"TIME_RD_2", .part, 0x10, 1, 4, [⟨31, 0, .rs, 0, 0, 4294967295⟩]⟩,
  ⟨"TIME_WR", .p0, 0x20, 3, 4, [⟨31, 0, .rw, 0, 0, 4294967295⟩]⟩,
  ⟨"TIME_WR_CTL", .p0, 0x2C, 1, 4, [⟨2, 2, .dng, 0, 0, 1⟩, ⟨1, 0, .dng, 0, 1, 2⟩]⟩,
  ⟨"TIME_WR_STAT", .p0, 0x34, 1, 4, [⟨3, 3, .ro, 0, 0, 1⟩, ⟨2, 0, .ro, 0, 0, 7⟩]⟩,
  ⟨"TIME_LAG_REQ", .part, 0x40, 1, 4, [⟨11, 0, .rw, 0, 0, 4095⟩]⟩,
  ⟨"TIME_LAG_STAT", .part, 0x44, 1, 4, [⟨0, 0, .ro, 0, 0, 1⟩]⟩,
  ⟨"TIME_LAG_MIN", .part, 0x48, 1, 4, [⟨31, 0, .ro, 0, 0, 4294967295⟩]⟩,
  ⟨"TIME_LAG_MAX", .part, 0x4C, 1, 4, [⟨31, 0, .rs, 0, 0, 4294967295⟩]⟩]

def timeRegs1 : List RegDesc := [
  ⟨"TIME_ACT_MISS", .part, 0x50, 1, 4, [⟨31, 0, .rs, 0, 0, 4294967295⟩]⟩,
  ⟨"TIME_REL_LOAD", .part, 0x60, 1, 4, [⟨31, 16, .ro, 0, 0, 65535⟩, ⟨15, 0, .ro, 0, 0, 65535⟩]⟩,
  ⟨"TIME_REL_FREE", .part, 0x64, 1, 4, [⟨13, 0, .ro, 0, 0, 16383⟩]⟩,
  ⟨"TIME_DEEP_LOAD", .part, 0x68, 1, 4, [⟨31, 16, .ro, 0, 0, 65535⟩, ⟨15, 0, .ro, 0, 0, 65535⟩]⟩]

/-- The registers of a time window. -/
def timeRegs : List RegDesc := timeRegs0 ++ timeRegs1

def slcRegs0 : List RegDesc := [
  ⟨"SLC_CFG", .owner, 0x0, 1, 4, [⟨27, 16, .cfg, 0, 0, 4095⟩, ⟨7, 4, .cfg, 0, 0, 12⟩, ⟨0, 0, .rw, 0, 0, 1⟩]⟩,
  ⟨"SLC_OUT", .owner, 0x4, 1, 4, [⟨11, 0, .cfg, 0, 0, 4095⟩]⟩,
  ⟨"SLC_NCO_LO", .owner, 0x8, 1, 4, [⟨31, 0, .rw, 0, 0, 4294967295⟩]⟩,
  ⟨"SLC_NCO_HI", .owner, 0xC, 1, 4, [⟨31, 31, .rw, 0, 0, 1⟩, ⟨15, 0, .rw, 0, 0, 65535⟩]⟩,
  ⟨"SLC_NCO_PH0", .owner, 0x10, 1, 4, [⟨15, 0, .rw, 0, 0, 65535⟩]⟩,
  ⟨"SLC_ANCHOR", .owner, 0x14, 3, 4, [⟨31, 0, .cfg, 0, 0, 4294967295⟩]⟩,
  ⟨"SLC_ADJ_LO", .owner, 0x20, 1, 4, [⟨31, 0, .cfg, 0, 0, 4294967295⟩]⟩,
  ⟨"SLC_ADJ_HI", .owner, 0x24, 1, 4, [⟨15, 0, .cfg, 0, 0, 65535⟩]⟩,
  ⟨"SLC_GAIN", .owner, 0x28, 1, 4, [⟨19, 16, .rw, 0, 0, 15⟩, ⟨15, 0, .rw, 32768, 0, 65535⟩]⟩,
  ⟨"SLC_QTH_0", .owner, 0x2C, 1, 4, [⟨12, 0, .cfg, 1024, 0, 8191⟩]⟩,
  ⟨"SLC_QTH_1", .owner, 0x30, 1, 4, [⟨28, 16, .cfg, 1536, 0, 8191⟩, ⟨12, 0, .cfg, 512, 0, 8191⟩]⟩,
  ⟨"SLC_QTH_2", .owner, 0x34, 1, 4, [⟨28, 16, .cfg, 3584, 0, 8191⟩, ⟨12, 0, .cfg, 2560, 0, 8191⟩]⟩]

def slcRegs1 : List RegDesc := [
  ⟨"SLC_QTH_3", .owner, 0x38, 1, 4, [⟨28, 16, .cfg, 5632, 0, 8191⟩, ⟨12, 0, .cfg, 4608, 0, 8191⟩]⟩,
  ⟨"SLC_QTH_4", .owner, 0x3C, 1, 4, [⟨12, 0, .cfg, 6656, 0, 8191⟩]⟩,
  ⟨"SLC_CTL", .owner, 0x40, 1, 4, [⟨0, 0, .rw, 0, 0, 1⟩]⟩,
  ⟨"SLC_COEF_CRC", .owner, 0x44, 2, 4, [⟨31, 0, .rw, 0, 0, 4294967295⟩]⟩,
  ⟨"SLC_STAT", .owner, 0x4C, 1, 4, [⟨31, 28, .ro, 0, 0, 15⟩, ⟨27, 24, .ro, 0, 0, 15⟩, ⟨5, 4, .ro, 0, 0, 3⟩, ⟨3, 2, .ro, 0, 0, 3⟩, ⟨1, 1, .ro, 0, 0, 1⟩, ⟨0, 0, .ro, 0, 0, 1⟩]⟩,
  ⟨"SLC_CNT_REQ", .owner, 0x50, 1, 4, [⟨5, 0, .rw, 0, 0, 63⟩]⟩,
  ⟨"SLC_CNT_STAT", .owner, 0x54, 1, 4, [⟨0, 0, .ro, 0, 0, 1⟩]⟩,
  ⟨"SLC_CNT_LO", .owner, 0x58, 1, 4, [⟨31, 0, .ro, 0, 0, 4294967295⟩]⟩,
  ⟨"SLC_CNT_HI", .owner, 0x5C, 1, 4, [⟨15, 0, .rs, 0, 0, 65535⟩]⟩,
  ⟨"SLC_CLU_CFG", .owner, 0x80, 1, 4, [⟨1, 0, .rw, 0, 0, 2⟩]⟩,
  ⟨"SLC_CLU_LOAD", .owner, 0x84, 1, 4, [⟨31, 16, .ro, 0, 0, 65535⟩, ⟨15, 0, .ro, 0, 0, 65535⟩]⟩]

/-- The registers of a slc window. -/
def slcRegs : List RegDesc := slcRegs0 ++ slcRegs1

def mrgRegs0 : List RegDesc := [
  ⟨"PROT_MRG_CFG", .owner, 0x8000, 1, 4, [⟨24, 18, .cfg, 0, 0, 95⟩, ⟨17, 11, .cfg, 0, 0, 95⟩, ⟨10, 10, .rw, 0, 0, 1⟩, ⟨9, 8, .rw, 0, 0, 3⟩, ⟨6, 4, .ro, 0, 0, 7⟩]⟩,
  ⟨"PROT_MRG_STAT", .owner, 0x8004, 1, 4, [⟨11, 10, .ro, 2, 0, 3⟩, ⟨9, 8, .ro, 2, 0, 3⟩, ⟨7, 6, .ro, 0, 0, 3⟩, ⟨5, 4, .ro, 3, 0, 3⟩, ⟨3, 3, .sticky, 0, 0, 1⟩]⟩]

/-- The registers of a mrg window. -/
def mrgRegs : List RegDesc := mrgRegs0

def planeRegs0 : List RegDesc := [
  ⟨"PROT_LANE", .owner, 0x1000, 1, 4, [⟨9, 8, .ro, 0, 0, 3⟩, ⟨5, 4, .ro, 0, 0, 3⟩, ⟨1, 0, .rw, 0, 0, 2⟩]⟩]

/-- The registers of a plane window. -/
def planeRegs : List RegDesc := planeRegs0

def protRegs0 : List RegDesc := [
  ⟨"PROT_CNT_REQ", .part, 0x100, 1, 4, [⟨27, 16, .rw, 0, 0, 4095⟩, ⟨5, 0, .rw, 0, 0, 63⟩]⟩,
  ⟨"PROT_CNT_STAT", .part, 0x104, 1, 4, [⟨0, 0, .ro, 0, 0, 1⟩]⟩,
  ⟨"PROT_CNT_LO", .part, 0x108, 1, 4, [⟨31, 0, .ro, 0, 0, 4294967295⟩]⟩,
  ⟨"PROT_CNT_HI", .part, 0x10C, 1, 4, [⟨15, 0, .rs, 0, 0, 65535⟩]⟩,
  ⟨"PROT_PAIR_CFG", .p0, 0x0, 1, 4, [⟨15, 8, .rw, 10, 1, 255⟩, ⟨6, 6, .rw, 1, 0, 1⟩, ⟨5, 5, .rw, 1, 0, 1⟩, ⟨4, 4, .rw, 1, 0, 1⟩]⟩,
  ⟨"PROT_PAIR_CTL", .p0, 0x8, 1, 4, [⟨2, 0, .dng, 0, 1, 5⟩]⟩,
  ⟨"PROT_PAIR_STAT", .p0, 0x10, 1, 4, [⟨18, 16, .ro, 0, 0, 7⟩, ⟨15, 15, .sticky, 0, 0, 1⟩, ⟨14, 14, .sticky, 0, 0, 1⟩, ⟨13, 13, .sticky, 0, 0, 1⟩, ⟨12, 12, .sticky, 0, 0, 1⟩, ⟨11, 11, .ro, 0, 0, 1⟩, ⟨10, 10, .ro, 0, 0, 1⟩, ⟨9, 8, .ro, 0, 0, 3⟩, ⟨7, 7, .ro, 0, 0, 1⟩, ⟨6, 6, .ro, 0, 0, 1⟩, ⟨5, 5, .ro, 1, 0, 1⟩, ⟨4, 4, .ro, 0, 0, 1⟩, ⟨3, 3, .ro, 0, 0, 1⟩, ⟨2, 0, .ro, 0, 0, 7⟩]⟩,
  ⟨"PROT_PAIR_T", .p0, 0x14, 1, 4, [⟨31, 0, .rw, 0, 0, 4294967295⟩]⟩,
  ⟨"PROT_PAIR_HB", .p0, 0x18, 3, 4, [⟨31, 0, .ro, 0, 0, 4294967295⟩]⟩,
  ⟨"PROT_OUT_CONT", .p0, 0x24, 1, 4, [⟨10, 0, .sticky, 0, 0, 2047⟩]⟩]

/-- The registers of a prot window. -/
def protRegs : List RegDesc := protRegs0

def refinRegs0 : List RegDesc := [
  ⟨"REFSEL_IN_CFG", .p0, 0x0, 1, 4, [⟨24, 24, .cfg, 0, 0, 1⟩, ⟨23, 19, .cfg, 0, 0, 23⟩, ⟨16, 16, .cfg, 0, 0, 1⟩, ⟨15, 12, .rw, 11, 0, 15⟩, ⟨7, 4, .rw, 0, 0, 15⟩, ⟨0, 0, .rw, 0, 0, 1⟩]⟩,
  ⟨"REFSEL_IN_FREQ", .p0, 0x4, 1, 4, [⟨31, 0, .cfg, 10000000, 1000, 1000000000⟩]⟩,
  ⟨"REFSEL_IN_BW", .p0, 0x8, 1, 4, [⟨23, 0, .rw, 0, 0, 16777215⟩]⟩,
  ⟨"REFSEL_IN_LIM", .p0, 0xC, 1, 4, [⟨31, 16, .cfg, 1200, 0, 65535⟩, ⟨15, 0, .cfg, 900, 0, 65535⟩]⟩,
  ⟨"REFSEL_IN_SOAK", .p0, 0x10, 1, 4, [⟨31, 16, .rw, 1, 1, 65535⟩, ⟨15, 0, .rw, 10, 1, 65535⟩]⟩,
  ⟨"REFSEL_IN_DELAY", .p0, 0x14, 1, 4, [⟨31, 0, .cfg, 0, 0, 4294967295⟩]⟩,
  ⟨"REFSEL_IN_OFF", .p0, 0x18, 1, 4, [⟨31, 0, .ro, 0, 0, 4294967295⟩]⟩,
  ⟨"REFSEL_IN_STAT", .p0, 0x1C, 1, 4, [⟨15, 12, .ro, 0, 0, 15⟩, ⟨6, 6, .ro, 0, 0, 1⟩, ⟨5, 5, .ro, 0, 0, 1⟩, ⟨4, 4, .ro, 0, 0, 1⟩, ⟨3, 3, .ro, 0, 0, 1⟩, ⟨2, 2, .ro, 0, 0, 1⟩, ⟨1, 1, .ro, 0, 0, 1⟩, ⟨0, 0, .ro, 0, 0, 1⟩]⟩]

/-- The registers of a refin window. -/
def refinRegs : List RegDesc := refinRegs0

def refoutRegs0 : List RegDesc := [
  ⟨"REFSEL_OUT_CFG", .p0, 0x0, 1, 4, [⟨0, 0, .rw, 0, 0, 1⟩]⟩,
  ⟨"REFSEL_OUT_FREQ_LO", .p0, 0x4, 1, 4, [⟨31, 0, .cfg, 2524971008, 0, 4294967295⟩]⟩,
  ⟨"REFSEL_OUT_FREQ_HI", .p0, 0x8, 1, 4, [⟨15, 0, .cfg, 152, 0, 65535⟩]⟩,
  ⟨"REFSEL_OUT_WIDTH", .p0, 0xC, 1, 4, [⟨18, 0, .cfg, 1000, 1, 500000⟩]⟩,
  ⟨"REFSEL_OUT_DELAY", .p0, 0x10, 1, 4, [⟨31, 0, .rw, 0, 0, 4294967295⟩]⟩,
  ⟨"REFSEL_OUT_STAT", .p0, 0x14, 1, 4, [⟨2, 2, .ro, 0, 0, 1⟩, ⟨1, 1, .ro, 0, 0, 1⟩, ⟨0, 0, .ro, 0, 0, 1⟩]⟩,
  ⟨"REFSEL_OUT_MIS", .p0, 0x18, 1, 4, [⟨31, 0, .ro, 0, 0, 4294967295⟩]⟩]

/-- The registers of a refout window. -/
def refoutRegs : List RegDesc := refoutRegs0

def refselRegs0 : List RegDesc := [
  ⟨"REFSEL_CFG", .p0, 0x0, 1, 4, [⟨31, 24, .rw, 60, 1, 255⟩, ⟨23, 20, .rw, 11, 0, 15⟩, ⟨19, 16, .rw, 0, 0, 15⟩, ⟨15, 15, .rw, 0, 0, 1⟩, ⟨14, 14, .rw, 0, 0, 1⟩, ⟨13, 13, .rw, 0, 0, 1⟩, ⟨12, 12, .rw, 1, 0, 1⟩, ⟨11, 11, .rw, 1, 0, 1⟩]⟩,
  ⟨"REFSEL_STAT", .p0, 0x4, 1, 4, [⟨31, 28, .ro, 11, 0, 15⟩, ⟨27, 27, .ro, 0, 0, 1⟩, ⟨26, 26, .ro, 0, 0, 1⟩, ⟨25, 25, .ro, 0, 0, 1⟩, ⟨24, 24, .ro, 0, 0, 1⟩, ⟨23, 20, .ro, 0, 0, 15⟩, ⟨19, 16, .ro, 0, 0, 15⟩, ⟨15, 15, .ro, 0, 0, 1⟩, ⟨14, 14, .ro, 0, 0, 1⟩, ⟨2, 0, .ro, 0, 0, 7⟩]⟩,
  ⟨"REFSEL_PHERR", .p0, 0x8, 1, 4, [⟨31, 0, .ro, 0, 0, 4294967295⟩]⟩,
  ⟨"REFSEL_STKY", .p0, 0xC, 1, 4, [⟨6, 0, .sticky, 0, 0, 127⟩]⟩,
  ⟨"REFSEL_OSC", .p0, 0x10, 1, 4, [⟨15, 8, .rw, 20, 1, 99⟩, ⟨1, 0, .boot, 2, 0, 3⟩]⟩,
  ⟨"REFSEL_LOCK", .p0, 0x14, 1, 4, [⟨31, 16, .rw, 10, 1, 65535⟩, ⟨15, 0, .rw, 100, 1, 65535⟩]⟩,
  ⟨"REFSEL_HIST", .p0, 0x18, 1, 4, [⟨31, 16, .rw, 100, 10, 65535⟩, ⟨15, 0, .rw, 2, 0, 60⟩]⟩,
  ⟨"REFSEL_HO_CFG", .p0, 0x1C, 1, 4, [⟨31, 16, .rw, 168, 1, 65535⟩, ⟨15, 8, .rw, 60, 0, 255⟩, ⟨1, 0, .rw, 1, 0, 2⟩]⟩,
  ⟨"REFSEL_HO_BUDGET", .p0, 0x20, 1, 4, [⟨31, 0, .rw, 1500, 0, 4294967295⟩]⟩,
  ⟨"REFSEL_HO_RATE", .p0, 0x24, 1, 4, [⟨31, 0, .rw, 100000, 0, 4294967295⟩]⟩,
  ⟨"REFSEL_HO_SIGMA", .p0, 0x28, 1, 4, [⟨31, 0, .ro, 0, 0, 4294967295⟩]⟩,
  ⟨"REFSEL_HO_TE", .p0, 0x2C, 1, 4, [⟨31, 0, .ro, 0, 0, 4294967295⟩]⟩]

def refselRegs1 : List RegDesc := [
  ⟨"REFSEL_HO_TIME", .p0, 0x30, 1, 4, [⟨31, 0, .ro, 0, 0, 4294967295⟩]⟩,
  ⟨"REFSEL_SLEW", .p0, 0x34, 1, 4, [⟨15, 0, .rw, 100, 1, 65535⟩]⟩,
  ⟨"REFSEL_DCO_WR_LO", .p0, 0x40, 1, 4, [⟨31, 0, .rw, 0, 0, 4294967295⟩]⟩,
  ⟨"REFSEL_DCO_WR_HI", .p0, 0x44, 1, 4, [⟨31, 31, .rw, 0, 0, 1⟩, ⟨7, 0, .rw, 0, 0, 255⟩]⟩,
  ⟨"REFSEL_DCO_RD_REQ", .p0, 0x48, 1, 4, [⟨0, 0, .rw, 0, 0, 1⟩]⟩,
  ⟨"REFSEL_DCO_RD_STAT", .p0, 0x4C, 1, 4, [⟨0, 0, .ro, 0, 0, 1⟩]⟩,
  ⟨"REFSEL_DCO_RD_0", .p0, 0x50, 1, 4, [⟨31, 0, .ro, 0, 0, 4294967295⟩]⟩,
  ⟨"REFSEL_DCO_RD_1", .p0, 0x54, 1, 4, [⟨7, 0, .ro, 0, 0, 255⟩]⟩,
  ⟨"REFSEL_DCO_RD_2", .p0, 0x58, 1, 4, [⟨31, 0, .ro, 0, 0, 4294967295⟩]⟩,
  ⟨"REFSEL_DCO_RD_3", .p0, 0x5C, 1, 4, [⟨31, 0, .ro, 0, 0, 4294967295⟩]⟩,
  ⟨"REFSEL_DCO_RD_4", .p0, 0x60, 1, 4, [⟨31, 0, .rs, 0, 0, 4294967295⟩]⟩,
  ⟨"REFSEL_HOST", .p0, 0x70, 1, 4, [⟨31, 24, .rw, 255, 0, 255⟩, ⟨16, 16, .rw, 0, 0, 1⟩, ⟨15, 0, .rw, 1000, 1, 65535⟩]⟩]

def refselRegs2 : List RegDesc := [
  ⟨"REFSEL_TEMP", .p0, 0x80, 8, 4, [⟨31, 16, .rw, 32768, 0, 65535⟩, ⟨15, 0, .rw, 0, 0, 65535⟩]⟩,
  ⟨"REFSEL_AGE_A", .p0, 0xA0, 1, 4, [⟨31, 0, .rw, 0, 0, 4294967295⟩]⟩,
  ⟨"REFSEL_AGE_B", .p0, 0xA4, 1, 4, [⟨31, 0, .rw, 0, 0, 4294967295⟩]⟩,
  ⟨"REFSEL_AGE_C", .p0, 0xA8, 1, 4, [⟨31, 0, .rw, 0, 0, 4294967295⟩]⟩,
  ⟨"REFSEL_AGE_EPOCH", .p0, 0xAC, 1, 4, [⟨31, 0, .rw, 0, 0, 4294967295⟩]⟩]

/-- The registers of a refsel window. -/
def refselRegs : List RegDesc := refselRegs0 ++ refselRegs1 ++ refselRegs2

def hopRegs0 : List RegDesc := [
  ⟨"CAS_HOP_OFF", .p0, 0x0, 1, 4, [⟨31, 0, .ro, 0, 0, 4294967295⟩]⟩,
  ⟨"CAS_HOP_DLY", .p0, 0x4, 1, 4, [⟨31, 0, .ro, 0, 0, 4294967295⟩]⟩,
  ⟨"CAS_HOP_ASYM", .p0, 0x8, 2, 4, [⟨31, 0, .ro, 0, 0, 4294967295⟩]⟩,
  ⟨"CAS_HOP_CORR", .p0, 0x10, 1, 4, [⟨31, 0, .rw, 0, 0, 4294967295⟩]⟩,
  ⟨"CAS_HOP_STAT", .p0, 0x14, 1, 4, [⟨12, 12, .ro, 0, 0, 1⟩, ⟨11, 6, .ro, 0, 0, 63⟩, ⟨5, 5, .ro, 0, 0, 1⟩, ⟨4, 4, .ro, 0, 0, 1⟩, ⟨3, 0, .ro, 0, 0, 15⟩]⟩]

/-- The registers of a hop window. -/
def hopRegs : List RegDesc := hopRegs0

def agrRegs0 : List RegDesc := [
  ⟨"CAS_AGR_WORD", .p0, 0x0, 4, 4, [⟨31, 0, .ro, 0, 0, 4294967295⟩]⟩,
  ⟨"CAS_AGR_EXP", .p0, 0x10, 1, 4, [⟨31, 0, .rw, 0, 0, 4294967295⟩]⟩,
  ⟨"CAS_AGR_CTL", .p0, 0x14, 1, 4, [⟨6, 3, .ro, 0, 0, 15⟩, ⟨2, 2, .ro, 0, 0, 1⟩, ⟨1, 1, .ro, 0, 0, 1⟩, ⟨0, 0, .rw, 0, 0, 1⟩]⟩]

/-- The registers of a agr window. -/
def agrRegs : List RegDesc := agrRegs0

def casRegs0 : List RegDesc := [
  ⟨"CAS_CFG", .p0, 0x0, 1, 4, [⟨31, 16, .cfg, 0, 0, 65535⟩, ⟨15, 10, .rw, 0, 0, 63⟩, ⟨3, 3, .rw, 1, 0, 1⟩, ⟨2, 2, .rw, 1, 0, 1⟩, ⟨1, 1, .cfg, 0, 0, 1⟩, ⟨0, 0, .rw, 0, 0, 1⟩]⟩,
  ⟨"CAS_STAT", .p0, 0x4, 1, 4, [⟨31, 30, .ro, 0, 0, 3⟩, ⟨29, 29, .ro, 0, 0, 1⟩, ⟨28, 23, .ro, 0, 0, 63⟩, ⟨22, 16, .ro, 0, 0, 127⟩, ⟨15, 12, .ro, 0, 0, 15⟩, ⟨11, 11, .ro, 0, 0, 1⟩, ⟨10, 10, .ro, 0, 0, 1⟩, ⟨9, 9, .ro, 0, 0, 1⟩, ⟨8, 8, .ro, 0, 0, 1⟩, ⟨7, 7, .ro, 0, 0, 1⟩, ⟨6, 5, .ro, 0, 0, 3⟩, ⟨4, 3, .ro, 0, 0, 3⟩, ⟨2, 2, .ro, 0, 0, 1⟩, ⟨1, 0, .ro, 0, 0, 3⟩]⟩,
  ⟨"CAS_CTL", .p0, 0x8, 1, 4, [⟨2, 0, .dng, 0, 1, 4⟩]⟩,
  ⟨"CAS_EPOCH", .p0, 0x10, 1, 4, [⟨31, 0, .ro, 0, 0, 4294967295⟩]⟩,
  ⟨"CAS_STAGE", .p0, 0x14, 1, 4, [⟨31, 0, .rw, 0, 0, 4294967295⟩]⟩,
  ⟨"CAS_STAGE_REF", .p0, 0x18, 1, 4, [⟨31, 0, .rw, 0, 0, 4294967295⟩]⟩,
  ⟨"CAS_STAGE_CTL", .p0, 0x1C, 1, 4, [⟨5, 5, .sticky, 0, 0, 1⟩, ⟨4, 4, .sticky, 0, 0, 1⟩, ⟨3, 3, .ro, 0, 0, 1⟩, ⟨2, 2, .ro, 0, 0, 1⟩, ⟨1, 1, .rw, 0, 0, 1⟩, ⟨0, 0, .rw, 0, 0, 1⟩]⟩,
  ⟨"CAS_PROP_E", .p0, 0x20, 1, 4, [⟨31, 0, .rw, 0, 0, 4294967295⟩]⟩,
  ⟨"CAS_PROP_T", .p0, 0x24, 3, 4, [⟨31, 0, .rw, 0, 0, 4294967295⟩]⟩,
  ⟨"CAS_PROP_STAT", .p0, 0x30, 1, 4, [⟨2, 0, .ro, 0, 0, 7⟩]⟩,
  ⟨"CAS_MGR", .p0, 0x34, 1, 4, [⟨16, 16, .ro, 0, 0, 1⟩, ⟨15, 0, .ro, 0, 0, 65535⟩]⟩,
  ⟨"CAS_CNT_REQ", .p0, 0x300, 1, 4, [⟨8, 8, .rw, 0, 0, 1⟩, ⟨5, 0, .rw, 0, 0, 63⟩]⟩]

def casRegs1 : List RegDesc := [
  ⟨"CAS_CNT_STAT", .p0, 0x304, 1, 4, [⟨0, 0, .ro, 0, 0, 1⟩]⟩,
  ⟨"CAS_CNT_LO", .p0, 0x308, 1, 4, [⟨31, 0, .ro, 0, 0, 4294967295⟩]⟩,
  ⟨"CAS_CNT_HI", .p0, 0x30C, 1, 4, [⟨15, 0, .rs, 0, 0, 65535⟩]⟩,
  ⟨"CAS_AGR_DIS", .p0, 0x200, 2, 4, [⟨31, 0, .ro, 0, 0, 4294967295⟩]⟩,
  ⟨"CAS_AGR_SIL", .p0, 0x208, 2, 4, [⟨31, 0, .ro, 0, 0, 4294967295⟩]⟩]

/-- The registers of a cas window. -/
def casRegs : List RegDesc := casRegs0 ++ casRegs1

def ringRegs0 : List RegDesc := [
  ⟨"HOST_RING_BASE_LO", .part, 0x0, 1, 4, [⟨31, 0, .cfg, 0, 0, 4294967295⟩]⟩,
  ⟨"HOST_RING_BASE_HI", .part, 0x4, 1, 4, [⟨31, 0, .cfg, 0, 0, 4294967295⟩]⟩,
  ⟨"HOST_RING_CFG", .part, 0x8, 1, 4, [⟨30, 25, .cfg, 0, 0, 63⟩, ⟨24, 19, .cfg, 0, 0, 63⟩, ⟨18, 18, .cfg, 0, 0, 1⟩, ⟨17, 17, .cfg, 0, 0, 1⟩, ⟨15, 12, .cfg, 8, 4, 15⟩, ⟨9, 7, .cfg, 0, 0, 5⟩, ⟨0, 0, .rw, 0, 0, 1⟩]⟩,
  ⟨"HOST_RING_ARG", .part, 0xC, 1, 4, [⟨31, 0, .cfg, 0, 0, 4294967295⟩]⟩,
  ⟨"HOST_RING_IRQ", .part, 0x10, 1, 4, [⟨31, 16, .rw, 0, 0, 65535⟩, ⟨15, 0, .rw, 1, 0, 65535⟩]⟩,
  ⟨"HOST_RING_STAT", .part, 0x14, 1, 4, [⟨31, 16, .ro, 0, 0, 65535⟩, ⟨15, 12, .ro, 0, 0, 15⟩, ⟨11, 11, .ro, 0, 0, 1⟩, ⟨10, 10, .ro, 0, 0, 1⟩, ⟨9, 5, .ro, 0, 0, 31⟩]⟩,
  ⟨"HOST_RING_HIDX", .part, 0x18, 1, 4, [⟨15, 0, .ro, 0, 0, 65535⟩]⟩]

/-- The registers of a ring window. -/
def ringRegs : List RegDesc := ringRegs0

def hostRegs0 : List RegDesc := [
  ⟨"HOST_FEAT_OFFER", .part, 0x0, 4, 4, [⟨31, 0, .ro, 0, 0, 4294967295⟩]⟩,
  ⟨"HOST_FEAT_ACCEPT", .part, 0x10, 4, 4, [⟨31, 0, .cfg, 0, 0, 4294967295⟩]⟩,
  ⟨"HOST_CTL", .part, 0x20, 1, 4, [⟨0, 0, .rw, 0, 0, 1⟩]⟩,
  ⟨"HOST_STAT", .part, 0x24, 1, 4, [⟨4, 4, .ro, 0, 0, 1⟩, ⟨3, 3, .ro, 0, 0, 1⟩, ⟨2, 2, .ro, 0, 0, 1⟩, ⟨1, 0, .ro, 0, 0, 3⟩]⟩,
  ⟨"HOST_CTO", .part, 0x28, 1, 4, [⟨15, 0, .rw, 1000, 50, 50000⟩]⟩,
  ⟨"HOST_URG_LOG", .part, 0x40, 1, 4, [⟨31, 31, .rs, 0, 0, 1⟩, ⟨27, 24, .ro, 0, 0, 15⟩, ⟨19, 8, .ro, 0, 0, 4095⟩, ⟨7, 0, .ro, 0, 0, 255⟩]⟩,
  ⟨"HOST_OPS", .part, 0x44, 1, 4, [⟨27, 16, .ro, 0, 0, 4095⟩, ⟨15, 0, .ro, 128, 0, 65535⟩]⟩,
  ⟨"HOST_RATE", .part, 0x48, 1, 4, [⟨31, 16, .ro, 0, 0, 65535⟩, ⟨15, 0, .ro, 0, 0, 65535⟩]⟩,
  ⟨"HOST_RATE_LIM", .part, 0x4C, 1, 4, [⟨31, 16, .ro, 0, 0, 65535⟩, ⟨15, 0, .ro, 0, 0, 65535⟩]⟩,
  ⟨"HOST_CTO_LOG", .part, 0x50, 1, 4, [⟨31, 31, .rs, 0, 0, 1⟩, ⟨29, 16, .ro, 0, 0, 16383⟩, ⟨13, 8, .ro, 0, 0, 63⟩, ⟨1, 0, .ro, 0, 0, 3⟩]⟩,
  ⟨"HOST_LINK", .p0, 0x80, 1, 4, [⟨10, 10, .ro, 0, 0, 1⟩, ⟨9, 9, .ro, 0, 0, 1⟩, ⟨8, 4, .ro, 0, 0, 31⟩, ⟨3, 0, .ro, 0, 0, 15⟩]⟩,
  ⟨"HOST_CNT_REQ", .part, 0x100, 1, 4, [⟨11, 6, .rw, 0, 0, 63⟩, ⟨5, 0, .rw, 0, 0, 63⟩]⟩]

def hostRegs1 : List RegDesc := [
  ⟨"HOST_CNT_STAT", .part, 0x104, 1, 4, [⟨0, 0, .ro, 0, 0, 1⟩]⟩,
  ⟨"HOST_CNT_LO", .part, 0x108, 1, 4, [⟨31, 0, .ro, 0, 0, 4294967295⟩]⟩,
  ⟨"HOST_CNT_HI", .part, 0x10C, 1, 4, [⟨15, 0, .rs, 0, 0, 65535⟩]⟩]

/-- The registers of a host window. -/
def hostRegs : List RegDesc := hostRegs0 ++ hostRegs1

def sepRegs0 : List RegDesc := [
  ⟨"SEP_CTL", .p0, 0x0, 1, 4, [⟨0, 0, .dng, 0, 0, 1⟩]⟩,
  ⟨"SEP_CFG", .p0, 0x8, 1, 4, [⟨1, 1, .boot, 0, 0, 1⟩, ⟨0, 0, .boot, 0, 0, 1⟩]⟩,
  ⟨"SEP_STAT", .p0, 0xC, 1, 4, [⟨16, 16, .sticky, 0, 0, 1⟩, ⟨15, 8, .ro, 0, 0, 255⟩, ⟨3, 3, .ro, 0, 0, 1⟩, ⟨2, 0, .ro, 0, 0, 7⟩]⟩,
  ⟨"SEP_DPC", .p0, 0x10, 1, 4, [⟨31, 0, .ro, 0, 0, 4294967295⟩]⟩,
  ⟨"SEP_MBOX_IN", .p0, 0x14, 1, 4, [⟨31, 0, .rw, 0, 0, 4294967295⟩]⟩,
  ⟨"SEP_MBOX_OUT", .p0, 0x18, 1, 4, [⟨31, 0, .rw, 0, 0, 4294967295⟩]⟩,
  ⟨"SEP_DBG_CTL", .p0, 0x20, 1, 4, [⟨9, 9, .rw, 0, 0, 1⟩, ⟨8, 8, .rw, 0, 0, 1⟩, ⟨2, 2, .rw, 0, 0, 1⟩, ⟨1, 1, .rw, 0, 0, 1⟩, ⟨0, 0, .rw, 0, 0, 1⟩]⟩,
  ⟨"SEP_DBG_BP", .p0, 0x24, 2, 4, [⟨13, 2, .rw, 0, 0, 4095⟩]⟩,
  ⟨"SEP_DBG_SEL", .p0, 0x2C, 1, 4, [⟨8, 8, .rw, 0, 0, 1⟩, ⟨7, 0, .rw, 0, 0, 255⟩]⟩,
  ⟨"SEP_DBG_DATA", .p0, 0x30, 1, 4, [⟨31, 0, .rw, 0, 0, 4294967295⟩]⟩,
  ⟨"SEP_FIFO", .p0, 0x40, 1, 4, [⟨31, 31, .ro, 0, 0, 1⟩, ⟨21, 11, .ro, 0, 0, 2047⟩, ⟨10, 0, .ro, 0, 0, 2047⟩]⟩,
  ⟨"SEP_FIFO_CNT", .p0, 0x44, 1, 4, [⟨31, 24, .rs, 0, 0, 255⟩, ⟨23, 16, .rs, 0, 0, 255⟩, ⟨15, 0, .rs, 0, 0, 65535⟩]⟩]

def sepRegs1 : List RegDesc := [
  ⟨"SEP_SEM_HELD", .p0, 0x50, 2, 4, [⟨31, 0, .ro, 0, 0, 4294967295⟩]⟩]

/-- The registers of a sep window. -/
def sepRegs : List RegDesc := sepRegs0 ++ sepRegs1

def memRegs0 : List RegDesc := [
  ⟨"MEM_SCRUB_TGT", .p0, 0x0, 1, 4, [⟨31, 24, .rw, 30, 1, 60⟩, ⟨22, 12, .rw, 1000, 10, 2000⟩, ⟨10, 0, .rw, 1000, 10, 2000⟩]⟩,
  ⟨"MEM_SCRUB_LAP", .p0, 0x4, 3, 4, [⟨31, 0, .ro, 0, 0, 4294967295⟩]⟩,
  ⟨"MEM_SCRUB_STAT", .p0, 0x10, 1, 4, [⟨2, 0, .sticky, 0, 0, 7⟩]⟩,
  ⟨"MEM_ZERO_PEND", .p0, 0x14, 1, 4, [⟨31, 16, .ro, 0, 0, 65535⟩, ⟨13, 0, .ro, 0, 0, 16383⟩]⟩,
  ⟨"MEM_HBM_CFG", .p0, 0x20, 1, 4, [⟨7, 0, .rw, 64, 1, 255⟩]⟩,
  ⟨"MEM_HBM_STAT", .p0, 0x24, 1, 4, [⟨31, 30, .ro, 0, 0, 3⟩, ⟨29, 29, .ro, 0, 0, 1⟩, ⟨28, 28, .ro, 0, 0, 1⟩, ⟨27, 16, .ro, 0, 0, 4095⟩, ⟨11, 0, .ro, 0, 0, 4095⟩]⟩,
  ⟨"MEM_HBM_CTL", .p0, 0x28, 1, 4, [⟨8, 8, .dng, 0, 0, 1⟩, ⟨7, 4, .dng, 0, 0, 11⟩, ⟨2, 0, .dng, 0, 1, 3⟩]⟩,
  ⟨"MEM_FLIP_T", .p0, 0x40, 1, 4, [⟨31, 31, .rw, 0, 0, 1⟩, ⟨12, 0, .rw, 0, 0, 8191⟩]⟩,
  ⟨"MEM_FLIP_T_ADDR", .p0, 0x44, 1, 4, [⟨25, 0, .rw, 0, 0, 67108863⟩]⟩,
  ⟨"MEM_FLIP_B_D", .p0, 0x50, 2, 4, [⟨31, 0, .rw, 0, 0, 4294967295⟩]⟩,
  ⟨"MEM_FLIP_B", .p0, 0x58, 1, 4, [⟨31, 31, .rw, 0, 0, 1⟩, ⟨27, 16, .rw, 0, 0, 4095⟩, ⟨7, 0, .rw, 0, 0, 255⟩]⟩,
  ⟨"MEM_FLIP_D", .p0, 0x60, 1, 4, [⟨31, 31, .rw, 0, 0, 1⟩, ⟨27, 16, .rw, 0, 0, 4095⟩, ⟨11, 8, .rw, 0, 0, 11⟩, ⟨7, 0, .rw, 0, 0, 255⟩]⟩]

def memRegs1 : List RegDesc := [
  ⟨"MEM_LOG_0", .p0, 0x80, 1, 4, [⟨31, 31, .ro, 0, 0, 1⟩, ⟨30, 29, .ro, 0, 0, 3⟩, ⟨28, 28, .ro, 0, 0, 1⟩, ⟨27, 24, .ro, 0, 0, 15⟩]⟩,
  ⟨"MEM_LOG_1", .p0, 0x84, 1, 4, [⟨31, 0, .rs, 0, 0, 4294967295⟩]⟩,
  ⟨"MEM_CNT_REQ", .p0, 0x100, 1, 4, [⟨5, 0, .rw, 0, 0, 63⟩]⟩,
  ⟨"MEM_CNT_STAT", .p0, 0x104, 1, 4, [⟨0, 0, .ro, 0, 0, 1⟩]⟩,
  ⟨"MEM_CNT_LO", .p0, 0x108, 1, 4, [⟨31, 0, .ro, 0, 0, 4294967295⟩]⟩,
  ⟨"MEM_CNT_HI", .p0, 0x10C, 1, 4, [⟨15, 0, .rs, 0, 0, 65535⟩]⟩]

/-- The registers of a mem window. -/
def memRegs : List RegDesc := memRegs0 ++ memRegs1

def bootRegs0 : List RegDesc := [
  ⟨"BOOT_MAP_TRIB", .p0, 0x1000, 16, 32, [⟨28, 16, .boot, 0, 0, 4096⟩, ⟨11, 0, .boot, 0, 0, 4095⟩]⟩,
  ⟨"BOOT_MAP_WIN", .p0, 0x1004, 16, 32, [⟨24, 16, .boot, 0, 0, 256⟩, ⟨7, 0, .boot, 0, 0, 255⟩]⟩,
  ⟨"BOOT_MAP_PAGES", .p0, 0x1008, 16, 32, [⟨13, 0, .boot, 0, 0, 16383⟩]⟩,
  ⟨"BOOT_MAP_DEEP", .p0, 0x100C, 16, 32, [⟨31, 16, .boot, 0, 0, 65535⟩, ⟨15, 0, .boot, 0, 0, 65535⟩]⟩,
  ⟨"BOOT_MAP_RATE", .p0, 0x1010, 16, 32, [⟨31, 16, .boot, 0, 0, 65535⟩, ⟨15, 0, .boot, 0, 0, 65535⟩]⟩,
  ⟨"BOOT_MAP_GRP", .p0, 0x1200, 24, 4, [⟨3, 0, .boot, 0, 0, 15⟩]⟩,
  ⟨"BOOT_MAP_SLC", .p0, 0x1280, 2, 4, [⟨3, 0, .boot, 0, 0, 15⟩, ⟨7, 4, .boot, 0, 0, 15⟩, ⟨11, 8, .boot, 0, 0, 15⟩, ⟨15, 12, .boot, 0, 0, 15⟩, ⟨19, 16, .boot, 0, 0, 15⟩, ⟨23, 20, .boot, 0, 0, 15⟩, ⟨27, 24, .boot, 0, 0, 15⟩, ⟨31, 28, .boot, 0, 0, 15⟩]⟩,
  ⟨"BOOT_MAP_SEM", .p0, 0x12C0, 8, 4, [⟨3, 0, .boot, 0, 0, 15⟩, ⟨7, 4, .boot, 0, 0, 15⟩, ⟨11, 8, .boot, 0, 0, 15⟩, ⟨15, 12, .boot, 0, 0, 15⟩, ⟨19, 16, .boot, 0, 0, 15⟩, ⟨23, 20, .boot, 0, 0, 15⟩, ⟨27, 24, .boot, 0, 0, 15⟩, ⟨31, 28, .boot, 0, 0, 15⟩]⟩,
  ⟨"BOOT_MAP_SEM_EN", .p0, 0x12E0, 2, 4, [⟨31, 0, .boot, 0, 0, 4294967295⟩]⟩,
  ⟨"BOOT_MAP_STAT", .p0, 0x12F0, 1, 4, [⟨11, 8, .ro, 0, 0, 15⟩, ⟨4, 4, .ro, 0, 0, 1⟩, ⟨3, 0, .ro, 0, 0, 15⟩]⟩,
  ⟨"BOOT_STAT", .p0, 0x0, 1, 4, [⟨31, 28, .ro, 0, 0, 15⟩, ⟨27, 24, .ro, 0, 0, 15⟩, ⟨19, 16, .ro, 0, 0, 15⟩, ⟨1, 1, .ro, 0, 0, 1⟩, ⟨0, 0, .ro, 0, 0, 1⟩]⟩,
  ⟨"BOOT_CTL", .p0, 0x4, 1, 4, [⟨0, 0, .boot, 0, 0, 1⟩]⟩]

def bootRegs1 : List RegDesc := [
  ⟨"BOOT_HOST_IMG", .p0, 0x10, 2, 4, [⟨31, 0, .rw, 0, 0, 4294967295⟩]⟩,
  ⟨"BOOT_HOST_IMG_LEN", .p0, 0x18, 1, 4, [⟨22, 0, .rw, 0, 0, 8388607⟩]⟩,
  ⟨"BOOT_HOST_IMG_GO", .p0, 0x1C, 1, 4, [⟨0, 0, .rw, 0, 0, 1⟩]⟩,
  ⟨"BOOT_REBOOT", .p0, 0x20, 1, 4, [⟨0, 0, .dng, 0, 0, 1⟩]⟩,
  ⟨"BOOT_RESET", .p0, 0x28, 1, 4, [⟨0, 0, .dng, 0, 0, 1⟩]⟩,
  ⟨"BOOT_DBG", .p0, 0x30, 1, 4, [⟨1, 0, .ro, 0, 0, 3⟩]⟩,
  ⟨"BOOT_SECVER", .p0, 0x34, 1, 4, [⟨31, 16, .ro, 0, 0, 65535⟩, ⟨15, 0, .ro, 0, 0, 65535⟩]⟩]

/-- The registers of a boot window. -/
def bootRegs : List RegDesc := bootRegs0 ++ bootRegs1

def glbRegs0 : List RegDesc := [
  ⟨"GLB_ID", .dev, 0x0, 1, 4, [⟨31, 16, .ro, 38400, 0, 65535⟩, ⟨15, 8, .ro, 1, 0, 255⟩, ⟨7, 0, .ro, 0, 0, 255⟩]⟩,
  ⟨"GLB_CAP", .dev, 0x4, 1, 4, [⟨31, 24, .ro, 16, 0, 255⟩, ⟨23, 16, .ro, 32, 0, 255⟩, ⟨15, 8, .ro, 24, 0, 255⟩, ⟨7, 0, .ro, 96, 0, 255⟩]⟩,
  ⟨"GLB_CAP2", .part, 0x8, 1, 4, [⟨30, 24, .ro, 16, 0, 127⟩, ⟨23, 16, .ro, 128, 0, 255⟩, ⟨12, 0, .ro, 4096, 0, 8191⟩]⟩,
  ⟨"GLB_STRAP", .dev, 0x10, 1, 4, [⟨4, 4, .ro, 0, 0, 1⟩, ⟨3, 2, .ro, 0, 0, 3⟩, ⟨1, 0, .ro, 0, 0, 3⟩]⟩,
  ⟨"GLB_PHASE", .dev, 0x20, 1, 4, [⟨10, 9, .ro, 0, 0, 3⟩, ⟨8, 8, .ro, 0, 0, 1⟩, ⟨6, 4, .ro, 0, 0, 7⟩, ⟨1, 0, .ro, 0, 0, 3⟩]⟩,
  ⟨"GLB_PHASE_CFG", .p0, 0x24, 1, 4, [⟨17, 17, .rw, 1, 0, 1⟩, ⟨16, 16, .rw, 1, 0, 1⟩, ⟨15, 0, .rw, 1000, 1, 65535⟩]⟩,
  ⟨"GLB_PHASE_CTL", .p0, 0x28, 1, 4, [⟨1, 0, .dng, 0, 1, 3⟩]⟩,
  ⟨"GLB_PACE", .dev, 0x30, 1, 4, [⟨3, 3, .ro, 0, 0, 1⟩, ⟨2, 2, .ro, 0, 0, 1⟩, ⟨1, 1, .ro, 0, 0, 1⟩, ⟨0, 0, .ro, 0, 0, 1⟩]⟩,
  ⟨"GLB_DEBUG", .part, 0x40, 1, 4, [⟨31, 16, .ro, 0, 0, 65535⟩, ⟨0, 0, .rw, 0, 0, 1⟩]⟩,
  ⟨"GLB_QOS_HOST", .p0, 0x50, 2, 4, [⟨2, 0, .boot, 0, 0, 7⟩, ⟨6, 4, .boot, 0, 0, 7⟩, ⟨10, 8, .boot, 0, 0, 7⟩, ⟨14, 12, .boot, 0, 0, 7⟩, ⟨18, 16, .boot, 0, 0, 7⟩, ⟨22, 20, .boot, 0, 0, 7⟩, ⟨26, 24, .boot, 0, 0, 7⟩, ⟨30, 28, .boot, 0, 0, 7⟩]⟩,
  ⟨"GLB_QOS_CORE", .p0, 0x58, 4, 4, [⟨2, 0, .boot, 0, 0, 7⟩, ⟨6, 4, .boot, 0, 0, 7⟩, ⟨10, 8, .boot, 0, 0, 7⟩, ⟨14, 12, .boot, 0, 0, 7⟩, ⟨18, 16, .boot, 0, 0, 7⟩, ⟨22, 20, .boot, 0, 0, 7⟩, ⟨26, 24, .boot, 0, 0, 7⟩, ⟨30, 28, .boot, 0, 0, 7⟩]⟩,
  ⟨"GLB_QOS_MISC", .p0, 0x68, 1, 4, [⟨10, 8, .boot, 1, 0, 7⟩, ⟨6, 4, .boot, 4, 0, 7⟩, ⟨2, 0, .boot, 6, 0, 7⟩]⟩]

/-- The registers of a glb window. -/
def glbRegs : List RegDesc := glbRegs0

def integRegs0 : List RegDesc := [
  ⟨"INTEG_DIG_CFG", .p0, 0x0, 1, 4, [⟨0, 0, .rw, 1, 0, 1⟩]⟩,
  ⟨"INTEG_DIG_RNG_BASE", .p0, 0x10, 8, 8, [⟨25, 6, .cfg, 0, 0, 1048575⟩]⟩,
  ⟨"INTEG_DIG_RNG_LEN", .p0, 0x14, 8, 8, [⟨16, 0, .cfg, 0, 0, 65536⟩]⟩,
  ⟨"INTEG_DIG_VAL", .p0, 0x50, 1, 4, [⟨31, 0, .ro, 0, 0, 4294967295⟩]⟩,
  ⟨"INTEG_DIG_REF", .p0, 0x54, 1, 4, [⟨31, 0, .dng, 0, 0, 4294967295⟩]⟩,
  ⟨"INTEG_DIG_STAT", .p0, 0x5C, 1, 4, [⟨4, 4, .sticky, 0, 0, 1⟩, ⟨3, 3, .sticky, 0, 0, 1⟩, ⟨2, 2, .ro, 0, 0, 1⟩, ⟨1, 1, .ro, 0, 0, 1⟩, ⟨0, 0, .ro, 0, 0, 1⟩]⟩,
  ⟨"INTEG_DIG_LAP", .p0, 0x60, 1, 4, [⟨31, 0, .ro, 0, 0, 4294967295⟩]⟩,
  ⟨"INTEG_BUSERR_0", .part, 0x100, 1, 4, [⟨31, 31, .ro, 0, 0, 1⟩, ⟨30, 30, .ro, 0, 0, 1⟩, ⟨27, 24, .ro, 0, 0, 15⟩, ⟨21, 16, .ro, 0, 0, 63⟩, ⟨8, 8, .ro, 0, 0, 1⟩]⟩,
  ⟨"INTEG_BUSERR_1", .part, 0x104, 1, 4, [⟨31, 30, .rs, 0, 0, 3⟩, ⟨25, 0, .rs, 0, 0, 67108863⟩]⟩,
  ⟨"INTEG_BUSERR_CNT", .part, 0x108, 1, 4, [⟨31, 0, .rs, 0, 0, 4294967295⟩]⟩,
  ⟨"INTEG_DWLOG_0", .part, 0x110, 1, 4, [⟨31, 16, .ro, 0, 0, 65535⟩]⟩,
  ⟨"INTEG_DWLOG_1", .part, 0x114, 1, 4, [⟨31, 0, .rs, 0, 0, 4294967295⟩]⟩]

def integRegs1 : List RegDesc := [
  ⟨"INTEG_DWLOG_CNT", .part, 0x118, 1, 4, [⟨31, 0, .rs, 0, 0, 4294967295⟩]⟩,
  ⟨"INTEG_CFGWE", .part, 0x120, 1, 4, [⟨17, 0, .sticky, 0, 0, 262143⟩]⟩,
  ⟨"INTEG_CFGWE_ADDR", .part, 0x124, 1, 4, [⟨21, 0, .ro, 0, 0, 4194303⟩]⟩]

/-- The registers of a integ window. -/
def integRegs : List RegDesc := integRegs0 ++ integRegs1

def semRegs0 : List RegDesc := [
  ⟨"SEM_ACQ", .part, 0x0, 64, 4, [⟨2, 0, .rs, 0, 0, 7⟩]⟩,
  ⟨"SEM_REL", .part, 0x100, 64, 4, [⟨31, 0, .rw, 0, 0, 4294967295⟩]⟩,
  ⟨"SEM_REL_RES", .part, 0x200, 1, 4, [⟨2, 0, .ro, 0, 0, 7⟩]⟩,
  ⟨"SEM_STAT", .part, 0x300, 64, 4, [⟨8, 8, .ro, 0, 0, 1⟩, ⟨7, 2, .ro, 0, 0, 63⟩, ⟨1, 1, .ro, 0, 0, 1⟩, ⟨0, 0, .ro, 0, 0, 1⟩]⟩,
  ⟨"SEM_HELD", .part, 0x400, 2, 4, [⟨31, 0, .ro, 0, 0, 4294967295⟩]⟩]

/-- The registers of a sem window. -/
def semRegs : List RegDesc := semRegs0

def perfRegs0 : List RegDesc := [
  ⟨"PERF_CTL", .part, 0x0, 1, 4, [⟨1, 1, .rw, 0, 0, 1⟩, ⟨0, 0, .rw, 0, 0, 1⟩]⟩,
  ⟨"PERF_CNT_CFG", .part, 0x10, 16, 4, [⟨31, 31, .rw, 0, 0, 1⟩, ⟨30, 30, .cfg, 0, 0, 1⟩, ⟨27, 16, .cfg, 4095, 0, 4095⟩, ⟨7, 0, .cfg, 0, 0, 255⟩]⟩,
  ⟨"PERF_CNT_REQ", .part, 0x100, 1, 4, [⟨3, 0, .rw, 0, 0, 15⟩]⟩,
  ⟨"PERF_CNT_STAT", .part, 0x104, 1, 4, [⟨0, 0, .ro, 0, 0, 1⟩]⟩,
  ⟨"PERF_CNT_LO", .part, 0x108, 1, 4, [⟨31, 0, .ro, 0, 0, 4294967295⟩]⟩,
  ⟨"PERF_CNT_HI", .part, 0x10C, 1, 4, [⟨15, 0, .rs, 0, 0, 65535⟩]⟩,
  ⟨"PERF_VT_CFG", .part, 0x200, 1, 4, [⟨31, 31, .rw, 0, 0, 1⟩, ⟨30, 30, .cfg, 0, 0, 1⟩, ⟨28, 24, .cfg, 20, 0, 31⟩, ⟨20, 16, .cfg, 0, 0, 31⟩, ⟨11, 0, .cfg, 4095, 0, 4095⟩]⟩,
  ⟨"PERF_VT_SEED", .part, 0x204, 1, 4, [⟨31, 0, .cfg, 1, 1, 4294967295⟩]⟩,
  ⟨"PERF_VT_STAT", .part, 0x208, 1, 4, [⟨31, 24, .rs, 0, 0, 255⟩, ⟨18, 16, .ro, 0, 0, 7⟩, ⟨15, 0, .rs, 0, 0, 65535⟩]⟩,
  ⟨"PERF_PACE_NOW", .p0, 0x300, 1, 4, [⟨28, 24, .ro, 0, 0, 31⟩, ⟨15, 0, .ro, 0, 0, 65535⟩]⟩,
  ⟨"PERF_PACE_MAX", .p0, 0x304, 1, 4, [⟨15, 0, .rs, 0, 0, 65535⟩]⟩,
  ⟨"PERF_PACE_MIN", .p0, 0x308, 1, 4, [⟨15, 0, .rs, 0, 0, 65535⟩]⟩]

def perfRegs1 : List RegDesc := [
  ⟨"PERF_PACE_STAT", .p0, 0x30C, 1, 4, [⟨0, 0, .sticky, 0, 0, 1⟩]⟩]

/-- The registers of a perf window. -/
def perfRegs : List RegDesc := perfRegs0 ++ perfRegs1

def pwrRegs0 : List RegDesc := [
  ⟨"PWR_DOM_CTL", .p0, 0x0, 1, 4, [⟨9, 8, .dng, 0, 0, 2⟩, ⟨7, 0, .dng, 0, 0, 255⟩]⟩,
  ⟨"PWR_DOM_STAT", .p0, 0x8, 1, 4, [⟨15, 8, .ro, 0, 0, 255⟩, ⟨2, 0, .ro, 0, 0, 7⟩]⟩,
  ⟨"PWR_DOM_ON", .p0, 0x10, 5, 4, [⟨31, 0, .ro, 0, 0, 4294967295⟩]⟩,
  ⟨"PWR_STAT", .p0, 0x28, 1, 4, [⟨0, 0, .ro, 0, 0, 1⟩]⟩,
  ⟨"PWR_PACE_CTL", .p0, 0x30, 1, 4, [⟨1, 1, .dng, 0, 0, 1⟩, ⟨0, 0, .dng, 0, 0, 1⟩]⟩,
  ⟨"PWR_PACE_CFG", .p0, 0x38, 1, 4, [⟨0, 0, .rw, 0, 0, 1⟩]⟩,
  ⟨"PWR_PACE_STAT", .p0, 0x3C, 1, 4, [⟨31, 16, .ro, 0, 0, 65535⟩, ⟨1, 0, .ro, 0, 0, 3⟩]⟩,
  ⟨"PWR_THERM", .p0, 0x40, 1, 4, [⟨31, 16, .ro, 0, 0, 65535⟩, ⟨15, 0, .rw, 10000, 5000, 12000⟩]⟩,
  ⟨"PWR_GRP_RST", .p0, 0x50, 1, 4, [⟨23, 0, .rw, 0, 0, 16777215⟩]⟩,
  ⟨"PWR_AVS", .p0, 0x60, 1, 4, [⟨31, 31, .rw, 1, 0, 1⟩, ⟨17, 17, .sticky, 0, 0, 1⟩, ⟨16, 16, .sticky, 0, 0, 1⟩, ⟨15, 0, .ro, 750, 0, 65535⟩]⟩]

/-- The registers of a pwr window. -/
def pwrRegs : List RegDesc := pwrRegs0

def mgmtRegs0 : List RegDesc := [
  ⟨"MGMT_TOD_CFG", .p0, 0x400, 1, 4, [⟨6, 4, .rw, 4, 0, 7⟩, ⟨1, 1, .rw, 0, 0, 1⟩, ⟨0, 0, .rw, 0, 0, 1⟩]⟩,
  ⟨"MGMT_TOD_UTC", .p0, 0x404, 1, 4, [⟨18, 16, .rw, 0, 0, 7⟩, ⟨15, 0, .rw, 0, 0, 65535⟩]⟩,
  ⟨"MGMT_TOD_RX_0", .p0, 0x408, 1, 4, [⟨31, 0, .ro, 0, 0, 4294967295⟩]⟩,
  ⟨"MGMT_TOD_RX_1", .p0, 0x40C, 1, 4, [⟨23, 16, .ro, 0, 0, 255⟩, ⟨15, 0, .ro, 0, 0, 65535⟩]⟩,
  ⟨"MGMT_TOD_STAT", .p0, 0x410, 1, 4, [⟨3, 3, .sticky, 0, 0, 1⟩, ⟨2, 2, .ro, 0, 0, 1⟩, ⟨1, 1, .ro, 0, 0, 1⟩, ⟨0, 0, .ro, 1, 0, 1⟩]⟩,
  ⟨"MGMT_ALARM_SRC", .p0, 0x0, 1, 4, [⟨10, 0, .ro, 0, 0, 2047⟩]⟩,
  ⟨"MGMT_ALARM_STKY", .p0, 0x4, 1, 4, [⟨10, 0, .sticky, 0, 0, 2047⟩]⟩,
  ⟨"MGMT_ALARM_MASK", .p0, 0x8, 1, 4, [⟨10, 0, .rw, 0, 0, 2047⟩]⟩,
  ⟨"MGMT_I2C_TGT", .p0, 0x100, 1, 4, [⟨7, 7, .boot, 0, 0, 1⟩, ⟨6, 0, .boot, 0, 0, 127⟩]⟩,
  ⟨"MGMT_I2C_CTL", .p0, 0x104, 1, 4, [⟨1, 1, .rw, 0, 0, 1⟩, ⟨0, 0, .rw, 0, 0, 1⟩]⟩,
  ⟨"MGMT_I2C_STAT", .p0, 0x108, 1, 4, [⟨2, 2, .sticky, 0, 0, 1⟩, ⟨1, 1, .sticky, 0, 0, 1⟩, ⟨0, 0, .ro, 0, 0, 1⟩]⟩,
  ⟨"MGMT_EEP", .p0, 0x200, 1, 4, [⟨31, 16, .rw, 0, 0, 65535⟩, ⟨6, 0, .rw, 80, 0, 127⟩]⟩]

def mgmtRegs1 : List RegDesc := [
  ⟨"MGMT_SENS", .p0, 0x210, 1, 4, [⟨31, 31, .rw, 0, 0, 1⟩, ⟨23, 16, .rw, 0, 0, 255⟩, ⟨6, 0, .rw, 72, 0, 127⟩]⟩,
  ⟨"MGMT_SENS_VAL", .p0, 0x214, 1, 4, [⟨31, 31, .ro, 0, 0, 1⟩, ⟨15, 0, .ro, 0, 0, 65535⟩]⟩,
  ⟨"MGMT_IO_FAULT", .p0, 0x300, 1, 4, [⟨15, 15, .sticky, 0, 0, 1⟩, ⟨14, 14, .sticky, 0, 0, 1⟩, ⟨13, 13, .sticky, 0, 0, 1⟩, ⟨12, 12, .sticky, 0, 0, 1⟩, ⟨10, 0, .sticky, 0, 0, 2047⟩]⟩]

/-- The registers of a mgmt window. -/
def mgmtRegs : List RegDesc := mgmtRegs0 ++ mgmtRegs1

/-- The registers of each kind of window. -/
def Block.regs : Block → List RegDesc
  | .lane => laneRegs
  | .grp => grpRegs
  | .trib => tribRegs
  | .tcnt => tcntRegs
  | .win => winRegs
  | .time => timeRegs
  | .slc => slcRegs
  | .mrg => mrgRegs
  | .plane => planeRegs
  | .prot => protRegs
  | .refin => refinRegs
  | .refout => refoutRegs
  | .refsel => refselRegs
  | .hop => hopRegs
  | .agr => agrRegs
  | .cas => casRegs
  | .ring => ringRegs
  | .host => hostRegs
  | .sep => sepRegs
  | .mem => memRegs
  | .boot => bootRegs
  | .glb => glbRegs
  | .integ => integRegs
  | .sem => semRegs
  | .perf => perfRegs
  | .pwr => pwrRegs
  | .mgmt => mgmtRegs

end Sys2Proof.Machine
end

