-- ==== Sys2Proof/Machine/SMap.lean ====
section
/-! DEFINITION. Sparse maps by number: a list of (key, value) pairs with strictly rising keys. Every register file,
counter set and per-unit state of the model is one of these, in one canonical form, so that equal maps are equal lists. -/

namespace Sys2Proof.Machine

/-- A map from numbers to values of type α. -/
abbrev SMap (α : Type) := List (Nat × α)

/-- The keys rise strictly, and all lie above the bound. -/
def SMap.risingFrom {α : Type} : Option Nat → SMap α → Bool
  | _, [] => true
  | b, (k, _) :: m => (match b with | none => true | some l => decide (l < k)) && SMap.risingFrom (some k) m

/-- The canonical form: strictly rising keys. -/
def SMap.rising {α : Type} (m : SMap α) : Bool := SMap.risingFrom none m

/-- The value at key k, if one is listed. -/
def SMap.find {α : Type} : SMap α → Nat → Option α
  | [], _ => none
  | (k', v) :: m, k => if k' = k then some v else SMap.find m k

/-- The map with v at key k. -/
def SMap.ins {α : Type} : SMap α → Nat → α → SMap α
  | [], k, v => [(k, v)]
  | (k', v') :: m, k, v =>
    if k < k' then (k, v) :: (k', v') :: m
    else if k' = k then (k, v) :: m
    else (k', v') :: SMap.ins m k v

/-- The map without key k. -/
def SMap.del {α : Type} : SMap α → Nat → SMap α
  | [], _ => []
  | (k', v') :: m, k => if k' = k then SMap.del m k else (k', v') :: SMap.del m k

/-- The value at key k, or d where none is listed. -/
def SMap.getD {α : Type} (m : SMap α) (k : Nat) (d : α) : α := (SMap.find m k).getD d

/-- The map with v at key k, where an unlisted key reads d: d itself is never listed. -/
def SMap.putD {α : Type} [DecidableEq α] (m : SMap α) (k : Nat) (d v : α) : SMap α :=
  if v = d then SMap.del m k else SMap.ins m k v

/-- No entry holds the value d. -/
def SMap.omits {α : Type} [DecidableEq α] (d : α) (m : SMap α) : Bool := m.all fun e => decide (e.2 ≠ d)

/-- The canonical form of a map whose unlisted keys read d. -/
def SMap.wfD {α : Type} [DecidableEq α] (d : α) (m : SMap α) : Bool := SMap.rising m && SMap.omits d m

end Sys2Proof.Machine
end

