-- ==== Sys2Proof/Machine/State.lean ====
section
/-! DEFINITION. The state of the block: every register, buffer, counter, mode and pin the spec gives it, the queue of
commands that wait, and the record of what it put out. Registers of BAR0 (the read-only status ones too) have one home,
the register file `regs`; what the spec gives beside them stands in the unit structures below. Times are counts of
2^-16 ns of device time unless a line says ticks (of 6.4 ns, R169). -/

namespace Sys2Proof.Machine

/-! ## Bus -/

/-- An open or expired first write of a D-class pair (R454). -/
structure DPair where
  master : Nat
  row : Nat
  addr : Nat
  value : Word
  openedAt : Nat
  expired : Bool
  deriving DecidableEq, Repr

/-- A mailbox of one master: its request, its snapshot words and its status bits (R457, R458). Before any request value
words read 0. -/
structure Mail where
  req : Nat := 0
  words : List Word := []
  none : Bool := false
  valid : Bool := false
  waiting : Bool := false
  deriving DecidableEq, Repr

/-- A bus target port: the last master granted, the grants each waiting master has waited through, and the position in
the cycle of 16 steps that holds the scrubber's reserved step (R463, R464). -/
structure PortSt where
  last : Nat := 51
  waited : SMap Nat := []
  stepNo : Nat := 0
  deriving DecidableEq, Repr

/-! ## Lanes -/

/-- A block handed to the demapper: its slot, the calendar bank and the time of its multiframe, whether it is a control block, its
payload after descrambling, the errored mark of R49, and when its first line bit reached the receive balls (R92). -/
structure SlotBlock where
  slot : Nat
  bank : Nat
  mfTime : Nat
  control : Bool
  payload : BitVec 64
  errored : Bool
  arrival : Nat
  deriving DecidableEq, Repr

/-- An overhead filter of R543: the value in force, the value last seen, and in how many consecutive multiframes. -/
structure Filt where
  value : Nat := 0
  seen : Nat := 0
  count : Nat := 0
  deriving DecidableEq, Repr

/-- The block, codeword and multiframe hunts of a receive lane (R96 to R98). -/
structure HuntSt where
  candPos : Nat := 0
  good : Nat := 0
  winBlocks : Nat := 0
  winBad : Nat := 0
  prevControl : Bool := false
  cwCand : Bool := false
  cwNo : Nat := 0
  cwDist : Nat := 0
  cwSeen : Nat := 0
  blk : Nat := 0
  tailBad : Bool := false
  cwMiss : Nat := 0
  ohPrev : Nat := 0
  ohCand : Bool := false
  oh : List Byte := []
  ohDone : Option (List Byte) := none
  mfGood : Nat := 0
  expect : Nat := 0
  mfBad : Nat := 0
  lastOdd : Option Nat := none
  freqGood : Nat := 0
  deriving DecidableEq, Repr

/-- The rest of a receive lane: the codeword in hand and the one that waits for its decoder (blocks with their arrivals), descrambler,
invalid headers of the codeword in hand and the errors of the last one (R103), FEC window with its codewords and the one that is complete
(R102, R122), overhead page and filters, the last CRC-good LOH_CTRL (R77), the time of the multiframe in hand and the slot that comes next
in it, the held receive swap, a written receive bank not yet taken, and the blocks that wait for the demapper. -/
structure RxSt where
  buf : List (Hdr × BitVec 64 × Nat) := []
  ready : Option (Nat × List (Hdr × BitVec 64 × Nat) × Option (Nat × Nat)) := none
  descr : BitVec 61 := 0
  cwErr : Nat := 0
  cwLast : Nat × Nat := (0, 0)
  winCw : Option Nat := none
  winErr : Nat := 0
  winUnc : Nat := 0
  winDone : Option (Nat × Nat) := none
  winFrom : Nat := 0
  mfErr : Nat := 0
  mfErrLast : Nat := 0
  page : List Byte := []
  ctrl : Option Nat := none
  rdi : Filt := {}
  rsd : Filt := {}
  rsf : Filt := {}
  req : Filt := {}
  role : Filt := {}
  ql : Filt := {}
  qlMissed : Nat := 0
  epochHalf : Option (Nat × Nat) := none
  farEpoch : Nat := 0
  lastSeq : Nat := 0
  lastTime : Nat := 0
  sinceValid : Nat := 0
  mfTime : Nat := 0
  flyNo : Nat := 0
  slots : List SlotBlock := []
  swapHeld : Option Nat := none
  bankWrite : Option Nat := none
  deriving DecidableEq, Repr

/-- What the transmitter carries of one tributary in the multiframe it is sending (R135 to R142): the grain count, F,
the accumulator of R142, the grains sent, the bytes fed to tcrc, the mark for the trail, the egress grid with the index of
its first unit, the overrange codes counted so far and the sample instants of the first and last grain. -/
structure TxTrib where
  trib : Nat
  gcount : Nat
  f : Nat
  acc : Nat
  sent : Nat := 0
  fed : List Byte := []
  dfct : Bool := false
  r0 : Nat := 0
  k : Nat := 0
  ovr : Nat := 0
  span : Option (Nat × Nat) := none
  deriving DecidableEq, Repr

/-- The transmit side of a lane: framing, whether the last block was a control block, scrambler, the codeword and multiframe in hand, the held announcement, and the
regeneration store of R483. -/
structure TxSt where
  startAt : Option Nat := none
  running : Bool := false
  seq : Nat := 0
  grid : Nat := 0
  mfTime : Nat := 0
  mfEnd : Nat := 0
  slot : Nat := 0
  ctlSent : Bool := false
  scr : BitVec 61 := BitVec.allOnes 61
  cw : List (BitVec 64) := []
  oh : List Byte := []
  held : Option Nat := none
  tribs : List TxTrib := []
  regenQ : List (List Byte × List SlotBlock) := []
  regenCur : List SlotBlock := []
  placedBy : Option Nat := none
  deriving DecidableEq, Repr

/-- A lane: its hunts, receive side and transmit side, the integration counts of core g + 1 for each defect (R109), and
the instants until which it holds BDI (R112). -/
structure LaneSt where
  hunt : HuntSt := {}
  rx : RxSt := {}
  tx : TxSt := {}
  present : SMap Nat := []
  absent : SMap Nat := []
  ivl : Nat := 0
  bdiRdi : Nat := 0
  bdiSd : Nat := 0
  bdiSf : Nat := 0
  slipped : Bool := false
  deriving DecidableEq, Repr

/-- A lane group: the overhead FIFO's pointers, record sequence and words (R407 to R414), when format detection runs again and the
family last detected (R115, 2 none), whether its CDR has lost the lock it had (R85), and the number of its last defect sample (R109). -/
structure GroupSt where
  wr : Nat := 0
  rd : Nat := 0
  mark : Nat := 0
  rel : Nat := 0
  recSeq : Nat := 0
  words : SMap Word := []
  noticed : Nat := 0
  retryAt : Option Nat := none
  fam : Nat := 2
  cdrLost : Bool := false
  sampledAt : Nat := 0
  deriving DecidableEq, Repr

/-! ## Tributaries -/

/-- One destination of an admission with the recorded egress terms (R189), the release time from which it is served and that from which
its next unit is sought, with the next grain of that unit, the causes its grains met so far (a bit each), and the grains of it that were
found unusable (R148), and the packets built for it. -/
structure DestSt where
  dest : Dest
  eAdv : Nat := 0
  eLag : Nat := 0
  q : Nat := 0
  start : Nat := 0
  nextFrom : Nat := 0
  nextGrain : Nat := 0
  causes : Nat := 0
  cut : Nat := 0
  built : Nat := 0
  deriving DecidableEq, Repr

/-- An admission (R188): owner, budget, arrival bounds, buffer (none on die, a stack for deep), pages and granules,
recorded T_min, grain rate, writes per grain into the release buffer, planes (R240), activation time and whether it is only that of the zeroing, the zeroing jobs it waits for and
what it takes from them, the row of R193 that makes it void from its activation on, destinations, the base page and codeword
of its allocation. -/
structure Adm where
  part : Nat
  l : Nat
  dMin : Int
  dMax : Int
  deep : Option Nat
  pages : Nat
  granules : Nat
  tMin : Nat
  rate : Nat
  writes : Nat
  planes : Nat := 1
  actTime : Nat
  asap : Bool := false
  waits : List Nat
  fromZero : Nat
  fromZeroG : Nat
  voidRow : Nat := 0
  dests : List DestSt
  bundleBlank : Bool
  basePage : Nat
  baseCw : Nat
  deriving DecidableEq, Repr

/-- A grain between the demapper, packet parser, slicer or playback ring and the release buffer: the sample instant of its
unit, its place, its content, whether it is blank, the copy and multiframe it came in (R241), its arrival, whether the host
delivered it poisoned (R368), its overrange codes where a slicer counted them (R225), and the lane at whose ingress boundary it stands (R22). -/
structure InGrain where
  instant : Nat
  idx : Nat
  payload : BitVec 64
  blank : Bool := false
  copy : Nat := 0
  mf : Nat := 0
  arrival : Nat := 0
  poison : Bool := false
  ovr : Nat := 0
  lane : Option Nat := none
  deriving DecidableEq, Repr

/-- A grain held for release (R200): its unit's release time and sample instant, its place, copy and multiframe, its
content, what it was received as (R199), the destinations that have not read it, its poison and stored bits in error,
whether it still lies in HBM (R203), whether it is late at every read (1, and 2 once counted: R203, R206), whether it was written under an
allocation that has been given up (R191), and its overrange codes. -/
structure BufGrain where
  rel : Nat
  instant : Nat
  idx : Nat
  copy : Nat
  mf : Nat
  payload : BitVec 64
  blank : Bool := false
  early : Bool := false
  left : List Dest := []
  poison : Bool := false
  errs : Nat := 0
  inHbm : Bool := false
  codeword : Nat := 0
  late : Nat := 0
  old : Bool := false
  ovr : Nat := 0
  deriving DecidableEq, Repr

/-- A grain read for a destination and waiting for its egress slot, packet or capture buffer: unit release time, instant,
place, content, cause of substitution (0 none, R199), the range flag of R13, overrange codes, and for a capture ring what the capture
gates make of it and whether they pass any of it (R179). -/
structure EgGrain where
  dest : Dest
  rel : Nat
  instant : Nat
  idx : Nat
  payload : BitVec 64
  cause : Nat
  flagged : Bool := false
  ovr : Nat := 0
  gated : BitVec 64 := 0
  pass : Bool := false
  deriving DecidableEq, Repr

/-- A multiframe of a copy of a merged tributary, verified by its trail (R241, R242): when in ticks, its units' first and last sample
instants, and the overrange codes its trail states. -/
structure MfRec where
  good : Bool := false
  order : Nat := 0
  verifiedAt : Nat := 0
  gcount : Nat := 0
  first : Nat := 0
  mfTime : Nat := 0
  defs : Nat := 0
  headGood : Bool := false
  errGrains : Nat := 0
  last : Nat := 0
  ovr : Nat := 0
  deriving DecidableEq, Repr

/-- The reception of one copy of a tributary (R145 to R147): the multiframe in hand, the anchor, the last unit's stated
instant, and the copy's service (R243). -/
structure CopySt where
  lane : Option Nat := none
  headGood : Bool := false
  gcount : Nat := 0
  prevCount : Nat := 0
  timeOff : Nat := 0
  first : Nat := 0
  acc : Nat := 0
  placed : Nat := 0
  fed : List Byte := []
  unit : List (BitVec 64 × Bool) := []
  defective : Bool := false
  errGrains : Nat := 0
  ranged : Bool := false
  anchored : Bool := false
  lastUnit : Option Nat := none
  seq : Nat := 0
  outOfService : Bool := false
  mismatches : Nat := 0
  agreed : Nat := 0
  lastGoodHead : Option Nat := none
  deriving DecidableEq, Repr

/-- A tributary: its two copies and their verified multiframes, the decided ones with the copy and the command it was decided under
(copy + 4 x command, R244), admission in force and the one to come, withdrawal, grains
between fabric and buffer, grains held and read, egress grid, grains found absent at reads with the multiframes or packets that lacked
them, units counted as missing and how often, units prefetched so far (R203), instants a budget decrease left out, grains substituted by unit (a bit each), lag
probe, defect window, the multiframes and packets with LATE or EARLY and the last one started, spans of instants with overrange codes and how
many (0 not stated, R138), packet counts, HBM codewords with dies in error, the time of its last unit, the grains discarded on other lanes (R239) and, by lane, the count and
accumulator by which those are told from fill. -/
structure TribSt where
  copyA : CopySt := {}
  copyB : CopySt := {}
  mfRecs : SMap MfRec := []
  decisions : SMap Nat := []
  mfOrder : Nat := 0
  adm : Option Adm := none
  pend : Option Adm := none
  withdrawAt : Option Nat := none
  oldL : Option (Nat × Nat) := none
  oldPages : Nat := 0
  oldGranules : Nat := 0
  oldStack : Option Nat := none
  fab : List InGrain := []
  wq : List InGrain := []
  held : List BufGrain := []
  egress : List EgGrain := []
  grid : Option Nat := none
  rebase : Option Nat := none
  absent : List (Nat × Nat × List Nat) := []
  missing : SMap Nat := []
  prefTo : Nat := 0
  never : List Nat := []
  substAt : SMap Nat := []
  lag : Option (Int × Int) := none
  defWin : Option (Nat × Nat × Nat) := none
  txDefs : SMap Nat := []
  txLast : Nat := 0
  ovr : List (Nat × Nat × Nat) := []
  packetNo : Nat := 0
  rxPacket : Option (Nat × Nat) := none
  hbmErr : SMap Nat := []
  lastUnitAt : Option Nat := none
  stray : Nat := 0
  strays : SMap (Nat × Nat) := []
  voidRow : Nat := 0
  playRing : Option Nat := none
  playEnd : Option Nat := none
  deriving DecidableEq, Repr


/-! ## Sepia cores -/

/-- A store that waits in a write buffer or an atomic buffer: its address, bytes (lowest first), and the address of the
store instruction. -/
structure Store where
  addr : Word
  bytes : List Byte
  pc : Word
  deriving DecidableEq, Repr

/-- An open atomic sequence: the address of ATOM_BEGIN, the instructions executed, and the held stores, newest first. -/
structure Atom where
  start : Word
  count : Nat
  stores : List Store
  deriving DecidableEq, Repr

/-- A CRC unit (R402 to R406): its settings as written, its settings as latched, and its running state (none after a
core reset, until the next start). -/
structure CrcUnit where
  cfg : Word := 32
  poly : BitVec 64 := 0
  init : BitVec 64 := 0
  sel : Nat := 0
  width : Nat := 32
  refin : Bool := false
  refout : Bool := false
  xorout : Bool := false
  lpoly : BitVec 64 := 0
  reg : Option (BitVec 64) := none
  deriving DecidableEq, Repr

/-- What a core waits for (SEP_STAT.state 2 and 3, R422): an event of a mask, a semaphore, or a FIFO word, with the
destination register. -/
inductive CoreWait where
  | none
  | event (mask rd : Nat)
  | lock (sem rd : Nat)
  | fifo (rd : Nat)
  deriving DecidableEq, Repr

/-- A Sepia core beside its SEP registers (R382, R388, R396, R398). x lists the registers that are not 0. haltPend: the steps left
of a deferred halt; trapPend: a trap (cause, EPC, TVAL) that a register write elsewhere has caused and stepPend: a step that one has
asked for, each taken up when that write is done. stepping: the instruction of a step is under way. -/
structure CoreSt where
  x : SMap Word := []
  pc : Word := 0
  ie : Bool := false
  pie : Bool := false
  inTrap : Bool := false
  atomAbort : Bool := false
  cause : Word := 0
  epc : Word := 0
  tval : Word := 0
  tvec : Word := 0x10
  ieMask : Nat := 0
  evpend : Nat := 0
  tickUs : Nat := 0
  lastTick : Nat := 0
  steps : Word := 0
  scratch0 : Word := 0
  scratch1 : Word := 0
  wbuf : List Store := []
  atom : Option Atom := none
  wait : CoreWait := .none
  haltPend : Option Nat := none
  trapPend : Option (Nat × Word × Word) := none
  stepPend : Bool := false
  stepping : Bool := false
  ck : CrcUnit := {}
  ckf : CrcUnit := {}
  deriving DecidableEq, Repr

/-- A semaphore: holder (0 to 31 cores, 32 + p host sides), ABANDONED, and the waiting holders in order (R415 to
R418). -/
structure SemSt where
  holder : Option Nat := none
  abandoned : Bool := false
  waiters : List Nat := []
  deriving DecidableEq, Repr

/-! ## Memory integrity -/

/-- The scrubber's lap of one class: next unit, instant of its start in ticks, target in us, and whether it has been reported as
over its target (R440, R441). -/
structure ScrubSt where
  next : Nat := 0
  startedAt : Nat := 0
  targetUs : Nat
  late : Bool := false
  deriving DecidableEq, Repr

/-- An open MEM event window (R444): start, count, location, consumer unit and kind. -/
structure MemWin where
  start : Nat
  count : Nat
  loc1 : Word
  loc0 : Word
  unit : Nat
  kind : Nat
  deriving DecidableEq, Repr

/-- A region being zeroed (R437, R438): its number in the queue, its owner's share, its on-die pages, or granules of a stack, or
bytes of capture staging, and when it ends. -/
structure ZeroJob where
  seq : Nat
  part : Nat
  pages : Nat := 0
  granules : Nat := 0
  stack : Nat := 0
  staging : Nat := 0
  endAt : Nat := 0
  deriving DecidableEq, Repr

/-- Memory integrity beside the MEM registers: scrub laps, domains whose class T memory is being filled (R427), MEM event windows, zeroing queue, per-die corrections in the
interval, and the domains switched since a stack was lost (R432, R433); the digest lap's start in ticks and the mismatching laps in a
row (R471); the blocks that the bank handshakes in hand move, with the tick (R33). -/
structure MemSt where
  scrubT : ScrubSt := { targetUs := 1000000 }
  scrubB : ScrubSt := { targetUs := 1000000 }
  scrubD : ScrubSt := { targetUs := 30000000 }
  filling : List Nat := []
  wins : SMap MemWin := []
  zero : List ZeroJob := []
  zeroSeq : Nat := 0
  dieCnt : SMap Nat := []
  cycled0 : Nat := 7
  cycled1 : Nat := 7
  dieInterval : Nat := 0
  digLapAt : Nat := 0
  digMism : Nat := 0
  shake : Nat × List Nat := (0, [])
  deriving DecidableEq, Repr

/-! ## Boot, power, management -/

/-- A window beside its registers (R178, R180): the next occurrence that has not fired or passed, and for CAL_SWAP how many
occurrences have had their request placed, and the occurrence already reported as missed. -/
structure WinSt where
  nextOcc : Nat := 0
  placed : Nat := 0
  missedOcc : Option Nat := none
  deriving DecidableEq, Repr

/-- The pending time operation's instant, force, kind (true a set) and operand, the time that the last forward change skipped, the last
stamp taken; the reasons to be held in reset
(power-on, thermal trip, lost clock); fuses, silicon stepping and pins; the last gasp; the boot loader (when boot starts, watchdog start
and expiries in a row, memories the loader has written: 2c + 0 or 1 for instruction and data memory of core c, a warm re-boot under
way); the protection map in force; DUSK; when switched-on units are ready; the pace ramp; pace by quad; failed sensor reads and lost
arbitrations in a row; the AVSBus request under way (mV, ticks, repeats); the lifetime ledger: EEPROM slots, whether a power-on reset has yet
to be counted, whether core 0 has loaded it, its sequence, the ticks of its last write, whether the first write after a power-on is due,
its counts as loaded (power-ons, minutes, minutes by bin), and what has been added since (ticks by bin, since when Tj holds), and the highest Tj seen.
DESIGN CHOICE: log entry 2. DESIGN CHOICE: log entry 135. -/
structure SysSt where
  timeOpAt : Nat := 0
  timeForce : Bool := false
  timeOpSet : Bool := false
  timeOpVal : Nat := 0
  stampAt : Nat := 0
  lateFrom : Nat := 0
  lateTo : Nat := 0
  porHeld : Bool := false
  thermalHold : Bool := false
  clkLost : Bool := false
  fuseDbg : Nat := 0
  fuseSecver : Nat := 0
  keyHash : Nat := 0
  stepping : Nat := 0
  pinMode : Nat := 0
  pinRole : Nat := 0
  pinPair : Nat := 0
  perstN : Bool := true
  trstN : Bool := false
  pwrfailN : Bool := true
  alarmLow : Bool := false
  lastGasp : Bool := false
  gaspTime : Nat := 0
  wdStart : Option Nat := none
  wdExpiries : Nat := 0
  bootAt : Option Nat := some 0
  loaded : List Nat := []
  warm : Bool := false
  mapInForce : SMap Word := []
  duskHeld : Bool := false
  duskSince : Nat := 0
  unitReadyAt : SMap Nat := []
  paceTarget : Option Nat := none
  supplyMv : Nat := 750
  rampEnd : Option Nat := none
  quadPace : SMap Nat := []
  sensFails : Nat := 0
  i2cLost : Nat := 0
  avsPending : Option (Nat × Nat × Nat) := none
  ledger : SMap (List Byte) := []
  coldPower : Bool := true
  ledgerOn : Bool := false
  ledgerSeq : Nat := 0
  ledgerAt : Nat := 0
  ledgerFirst : Bool := false
  powerOns : Nat := 0
  minutes : Nat := 0
  loadedAt : Nat := 0
  tjBins : List Nat := []
  tjTicks : List Nat := []
  tjAt : Nat := 0
  tjMax : Int := 0
  deriving DecidableEq, Repr

/-! ## Host interface -/

/-- A capture buffer being filled (R360 to R362). -/
structure CapBuf where
  index : Nat
  addr : Nat
  len : Nat
  trib : Nat
  units : Nat := 0
  bytes : Nat := 0
  rFirst : Nat := 0
  substituted : Bool := false
  poisoned : Bool := false
  openedAt : Nat := 0
  deriving DecidableEq, Repr

/-- A playback buffer being read (R366 to R368). -/
structure PlayBuf where
  index : Nat
  addr : Nat
  len : Nat
  trib : Nat
  instant : Nat
  nextGrain : Nat := 0
  done : Nat := 0
  missed : Nat := 0
  late : Bool := false
  overlap : Bool := false
  hostErr : Bool := false
  status : Nat := 0
  deriving DecidableEq, Repr

/-- A read of host memory in flight (R371). kind: 0 descriptor fetch, 1 playback data, 2 SEND_FRAME data. first: the index of the
descriptor, or the first unit of the data; issuedAt in ticks; cto: its timeout in us; orphan: a reset has abandoned it. DESIGN CHOICE: log entry 138. -/
structure HostRd where
  tag : Nat
  part : Nat
  ring : Nat
  kind : Nat
  addr : Nat
  len : Nat
  issuedAt : Nat
  buf : Nat := 0
  first : Nat := 0
  cto : Nat := 1000
  orphan : Bool := false
  deriving DecidableEq, Repr

/-- A descriptor ring beside its registers: entries that wait to be written (each with whether it is signalled at once),
events lost, descriptors held, interrupt moderation (oldest in ticks), buffers in use, descriptors that arrived ahead of an earlier
one, the telemetry record number, the last boundary written and the largest pace since (R516, R517), the frame that SEND_FRAME has read,
and the units dropped in front of it, by tributary and release time (R345 to R368). -/
structure RingSt where
  waiting : List (List Byte × Bool) := []
  lost : Nat := 0
  unsig : Nat := 0
  oldest : Nat := 0
  descs : List (Nat × List Byte) := []
  headSince : Nat := 0
  headBusy : Bool := false
  caps : List CapBuf := []
  plays : List PlayBuf := []
  dropped : Nat := 0
  closing : Bool := false
  halted : Bool := false
  telSeq : Nat := 0
  telAt : Nat := 0
  paceMax : Nat := 0
  early : List (Nat × List Byte) := []
  frame : Option (List Byte) := none
  cuts : List (Nat × Nat) := []
  deriving DecidableEq, Repr

/-- A Vermilion tag in flight (R511 to R513): serial, kind (false a grain, true an instruction), tributary or core, the
grain's instant and place or the instruction's pc, lane in, the stamps of its stages and which are approximate. -/
structure VtTag where
  serial : Nat
  instr : Bool
  unit : Nat
  instant : Nat
  idx : Nat
  laneIn : Nat
  laneOut : Nat := 0
  word : Nat := 0
  stamps : SMap Nat := []
  approx : Nat := 0
  cause : Nat := 0
  deriving DecidableEq, Repr

/-- A partition beside its registers: PCI Express function state, pending interrupts and the written words of the MSI-X table, resets, the rate
limiter of SEND_FRAME, and Vermilion and telemetry state. -/
structure PartSt where
  d3hot : Bool := false
  aerStatus : Nat := 0
  aerMask : Nat := 0
  msixPending : List Nat := []
  msix : SMap Nat := []
  lostEvents : Nat := 0
  resetZero : Bool := false
  vtLfsr : Nat := 1
  vtSerial : Nat := 0
  vtTags : List VtTag := []
  deriving DecidableEq, Repr

/-! ## Band slicers -/

/-- A grain, or the mark of a lost one, at an engine's input queue (R213, R215): the gang member's index, its place and
content. -/
structure SlcIn where
  tribNo : Nat
  instant : Nat
  idx : Nat
  payload : BitVec 64
  lost : Bool := false
  deriving DecidableEq, Repr

/-- An input instant at its position (R214, R215). -/
structure SlcPos where
  pos : Int
  i : Int
  q : Int
  blank : Bool
  sat : Bool
  mark : Option Nat
  deriving DecidableEq, Repr

/-- An output computed (R220, R221, R225): its position e_m, I and Q after gain and clamp, whether the gain clamped each, whether a blank or
a saturated input lies in its reach, and whether its coefficients were poisoned. -/
structure SlcOutp where
  pos : Int
  i : Int
  q : Int
  clampI : Bool := false
  clampQ : Bool := false
  blank : Bool := false
  sat : Bool := false
  poisoned : Bool := false
  deriving DecidableEq, Repr

/-- An engine (R208 to R227): its input queue, the unit of each member that is being gathered, instants that wait for their turn, the
highest position of each member, anchor in 2^-16 ns, next position, NCO with its staged word and the starts of resets to come, filter delay
lines (newest first), last blank and last saturated position, instants of marked inputs, and outputs that wait. -/
structure SlcSt where
  inq : List SlcIn := []
  part : SMap (List SlcIn) := []
  avail : List SlcPos := []
  seen : SMap Int := []
  anchor : Option Nat := none
  next : Option Int := none
  phase : Nat := 0
  freq : Nat := 0
  stagedNow : Option Nat := none
  staged : Option Nat := none
  ncoResets : List Nat := []
  half : List (List (Int × Int)) := []
  fir : List (Int × Int) := []
  lastBlank : Option Int := none
  lastSat : Option Int := none
  marks : List Nat := []
  outq : List SlcOutp := []
  deriving DecidableEq, Repr


/-- A control cell received on a cascade lane: its payload and its errored mark (R313). -/
structure CellIn where
  lane : Nat
  payload : BitVec 64
  errored : Bool
  deriving DecidableEq, Repr
/-! ## Timing -/

/-- A timing input (R274 to R278): since when it soaks (ticks), consecutive measurements beyond reject, its last edge. -/
structure InSt where
  soakFrom : Option Nat := none
  beyond : Nat := 0
  lastEdge : Option Nat := none
  deriving DecidableEq, Repr

/-- A timing output (R294, R295): its alignment instant and delay, the instant at which a new grid is reached, and the
accumulated change of device time since its alignment. -/
structure OutSt where
  ta : Nat := 0
  delay : Int := 0
  reachAt : Option Nat := none
  nextTa : Nat := 0
  nextDelay : Int := 0
  mis : Int := 0
  driven : Bool := false
  deriving DecidableEq, Repr

/-- The timing block beside its registers: the DCO word in force, since when, and the one to come (R289); its integral for the
1 s average (R286); entry of the timing state (ticks); the QL and time bit of the last LOCKED; when core 27 refreshed next; the
candidate that ranks above the selected input, and since when; the history, newest first: average, temperature, seconds; the
host watchdog; ESMC levels by port; ToD; edges of PPS_OUT0, PPS_IN0 and PPS_IN1; the build-out in 2^-16 ns, and since when it is slewed
away (R281, R282). -/
structure TimSt where
  d : Int := 0
  dAt : Nat := 0
  dNext : Option (Int × Nat) := none
  acc : Int := 0
  accAt : Nat := 0
  sampleAt : Nat := 0
  since : Nat := 0
  lockedEver : Bool := false
  lastQl : Nat := 11
  lastTime : Bool := false
  nextAt : Nat := 0
  above : Option (Nat × Nat) := none
  hist : List (Int × Int × Nat) := []
  predict : Bool := false
  hoFrom : Nat := 0
  hoLast : Nat := 0
  e0 : Nat := 0
  wdogAt : Nat := 0
  esmc : SMap (Nat × Nat) := []
  todAt : Option Nat := none
  ppsOut0 : Option Nat := none
  ppsIn0 : Option Nat := none
  ppsIn1 : Option Nat := none
  todSent : Option Nat := none
  ins : SMap InSt := []
  outs : SMap OutSt := []
  frames : SMap (Nat × Nat × Nat) := []
  buildOut : Int := 0
  slewFrom : Nat := 0
  deriving DecidableEq, Repr

/-! ## Device pair -/

/-- The pair state beside its registers (R255 to R266): consecutive good frames of the pin and ring paths; the ticks of the last
good frame of either path and of both, of the last own-side frame, of the last good frame that showed the peer active, claiming or
holding, of the last that showed holds, and of the last that showed a fit standby; since when the role was given up; the claim under
way (0 by vacancy or command, 1 a handover, 2 its probe has passed) with its trigger, its first drive, the last drive and its probe; the last
change of the wire; the handover instant armed by a yielding peer, the one under way, and the one at which this device gave its role, whose
success is judged; the frame number and when the last frame was sent. -/
structure PairSt where
  goodPin : Nat := 0
  goodCas : Nat := 0
  lastPin : Option Nat := none
  lastCas : Option Nat := none
  lastGood : Option Nat := none
  ownSide : Option Nat := none
  lastActive : Nat := 0
  lastHolds : Option Nat := none
  lastFit : Option Nat := none
  releasedAt : Option Nat := none
  claim : Nat := 0
  qualFrom : Nat := 0
  claimAt : Nat := 0
  driveAt : Nat := 0
  probeAt : Option Nat := none
  wireAt : Nat := 0
  armed : Option Nat := none
  hoAt : Option Nat := none
  gave : Option Nat := none
  failAt : Option Nat := none
  hbSeq : Nat := 0
  sentAt : Option Nat := none
  deriving DecidableEq, Repr

/-! ## Cascade -/

/-- A message assembled from cells, or being assembled (R314, R315): the port it came in by, its kind, whether it is broadcast, its
destination and source nodes, and its words so far. -/
structure CasMsg where
  port : Nat
  kind : Nat
  bcast : Bool
  dst : Nat
  src : Nat
  words : List Nat
  deriving DecidableEq, Repr

/-- A difference of one multiframe (R320): its lane of the port, its sequence, arrival less MF_TIME, and when it arrived. -/
structure TtRec where
  lane : Nat
  seq : Nat
  diff : Int
  arrived : Nat
  deriving DecidableEq, Repr

/-- A cascade port (R315 to R322): queued messages with their kinds and cells, the grains its full input queue could not take (R36), the cells of the
message that each lane sends, when
TIME_DIST last came (ticks) and whether RING down came after it, own and reverse differences, multiframes since the last TT_STAMP,
the last valid result (ticks), and the calibration under way. -/
structure CasPortSt where
  queue : List (Nat × List (BitVec 64)) := []
  lost : Nat := 0
  cur0 : List (BitVec 64) := []
  cur1 : List (BitVec 64) := []
  distAt : Option Nat := none
  ringDown : Bool := false
  fwd : List TtRec := []
  rev : List TtRec := []
  sinceStamp : Nat := 0
  resultAt : Option Nat := none
  calFrom : Option Nat := none
  calN : Nat := 0
  calSum0 : Int := 0
  calSum1 : Int := 0
  deriving DecidableEq, Repr

/-- Cascade control (R308 to R331): ports, messages being assembled, assembled ones that wait, and those passed to software; the
provisional number with its generation; the tag generator, tags sent of late with the ports they came back on; the enumeration under
way; when the leader was last heard (ticks), whether this manager may never lead, and whether it enumerates when the ring is intact;
since when the other port has had fewer hops; the proposal recorded, when it was last sent, its decision and when that was last sent;
the manager's epoch last heard; the reports held by node; the boundaries last reported and judged; agreeing judgements in a row; the
set of seconds that is due. -/
structure CasSt where
  ports : SMap CasPortSt := []
  asm : List CasMsg := []
  inbox : List CasMsg := []
  msgs : List CasMsg := []
  provisional : Option (Nat × Nat) := none
  lfsr : Nat := 1
  tags : List (Nat × Nat × Nat) := []
  enumAt : Option Nat := none
  leaderAt : Nat := 0
  noLead : Bool := false
  dupDev : Nat := 0
  enumWhenIntact : Bool := false
  fewerSince : Option Nat := none
  propE : Nat := 0
  propT : Nat := 0
  propSent : Nat := 0
  decision : Option Bool := none
  decisionSent : Nat := 0
  mgrEpoch : Option Nat := none
  reports : SMap (List (Nat × List Nat)) := []
  reportedMs : Nat := 0
  judgedMs : Nat := 0
  agreed : SMap Nat := []
  autoSet : Option (Nat × Nat) := none
  deriving DecidableEq, Repr

/-! ## What the block puts out -/

/-- An output of the block, in the order it leaves: data returned to a reader, error responses and messages, host writes
and interrupts, blocks, frames, cells and messages, and pins. DESIGN CHOICE: log entry 193. -/
inductive Output where
  | readData (master : Nat) (value : Word)
  | tableData (master : Nat) (bytes : List Byte) (poisoned : Bool)
  | busError (master : Nat) (write : Bool)
  | aer (part : Nat) (code : Nat)
  | grant (port master : Nat)
  | hostWrite (part : Nat) (addr : Nat) (bytes : List Byte) (relaxed : Bool)
  | hostRead (part : Nat) (addr len tag : Nat)
  | msi (part vector : Nat)
  | block (lane : Nat) (symbols : List Nat)
  | frame (port : Nat) (bytes : List Byte) (stamp : Nat)
  | heartbeat (words : List Word)
  | remoteFault (port : Nat) (on : Bool)
  | tod (bytes : List Byte)
  | pulse (out : Nat) (time : Nat)
  | claimWire (low : Bool)
  | i2c (bytes : List Byte) (ack : Bool)
  | i2cClear
  | eepromWrite (addr : Nat) (bytes : List Byte)
  | avs (mv : Nat)
  | alarm (low : Bool)
  deriving DecidableEq, Repr

/-! ## The state -/

/-- The state of the block. `pending` is the queue of commands, first in, first out. `clock` counts device time in
fifths of 2^-16 ns (a tick of 6.4 ns is a whole number of them) and `ticks` the transmit/system ticks that have passed.
`fresh` is the model's own counter from which free values are drawn. `out` is the record of outputs, newest first. -/
structure State where
  pending : List Instr
  clock : Nat
  ticks : Nat
  regs : SMap Word
  counters : SMap Nat
  mail : SMap Mail
  pairs : List DPair
  ports : SMap PortSt
  casErrs : Nat
  digErrs : Nat
  tbl : List Host.Cell
  tflip : SMap Nat
  lanes : SMap LaneSt
  groups : SMap GroupSt
  tribs : SMap TribSt
  cores : SMap CoreSt
  sems : SMap SemSt
  mem : MemSt
  sys : SysSt
  rings : SMap RingSt
  parts : SMap PartSt
  reads : List HostRd
  quarantine : List (Nat × Nat × Nat)
  slcs : SMap SlcSt
  cellsIn : List CellIn
  wins : SMap WinSt
  tim : TimSt
  pair : PairSt
  cas : CasSt
  fresh : Nat
  out : List Output
  deriving DecidableEq, Repr

/-- Why the block stops: no command of this block ends in a fault. DESIGN CHOICE: log entry 8. -/
inductive Fault where
  /-- Raised by no meaning: the spec answers every error of the block with a register, an event or a response. Safe. -/
  | none
  deriving DecidableEq, Repr

/-- Why a command is refused. DESIGN CHOICE: log entry 8. -/
inductive Refusal where
  /-- A command without a meaning in the model, by its mnemonic. Raised by the dispatch alone. Safe. -/
  | notModelled (mnemonic : String)
  deriving DecidableEq, Repr

/-- The block right after power-on reset is released: every register at its reset value, nothing written, nothing
running, the queue empty. DESIGN CHOICE: log entry 2. DESIGN CHOICE: log entry 183. DESIGN CHOICE: log entry 10. -/
def State.reset : State where
  pending := []
  clock := 0
  ticks := 0
  regs := []
  counters := []
  mail := []
  pairs := []
  ports := []
  casErrs := 0
  digErrs := 0
  tbl := []
  tflip := []
  lanes := []
  groups := []
  tribs := []
  cores := [(0, { pc := 0x80000 })]
  sems := []
  mem := {}
  sys := {}
  rings := []
  parts := []
  reads := []
  quarantine := []
  slcs := []
  cellsIn := []
  wins := []
  tim := {}
  pair := {}
  cas := {}
  fresh := 0
  out := []

end Sys2Proof.Machine
end

