-- ==== Sys2Proof/Machine/Ops.lean ====
section
/-! DEFINITION. The named operations over the state: register fields, counters, unit state, time, outputs and free
values. Every meaning is written over these. -/

namespace Sys2Proof.Machine

/-! ## The register map -/

/-- The window a BAR0 offset of the device view lies in: its kind, its device number, and the offset to look up in the
window's table (R447). -/
def locate (a : Nat) : Option (Block × Nat × Nat) :=
  if a < 0x10000 then some (.glb, 0, a)
  else if a < 0x20000 then some (.boot, 0, a - 0x10000)
  else if a < 0x30000 then some (.integ, 0, a - 0x20000)
  else if a < 0x40000 then some (.sem, 0, a - 0x30000)
  else if a < 0x41000 then some (.host, 0, a - 0x40000)
  else if a < 0x42000 then some (.ring, (a - 0x41000) / 0x40, (a - 0x41000) % 0x40)
  else if a < 0x50000 then none
  else if a < 0x50100 then some (.refsel, 0, a - 0x50000)
  else if a < 0x50300 then some (.refin, (a - 0x50100) / 0x20, (a - 0x50100) % 0x20)
  else if a < 0x50400 then none
  else if a < 0x50540 then some (.refout, (a - 0x50400) / 0x20, (a - 0x50400) % 0x20)
  else if a < 0x60000 then none
  else if a < 0x61000 then some (.time, 0, a - 0x60000)
  else if a < 0x65000 then some (.win, (a - 0x61000) / 0x40, (a - 0x61000) % 0x40)
  else if a < 0x70000 then none
  else if a < 0x70100 then some (.cas, 0, a - 0x70000)
  else if a < 0x70180 then some (.hop, (a - 0x70100) / 0x40, (a - 0x70100) % 0x40)
  else if a < 0x70800 then some (.cas, 0, a - 0x70000)
  else if a < 0x71000 then some (.agr, (a - 0x70800) / 0x20, (a - 0x70800) % 0x20)
  else if a < 0x75000 then some (.lane, 96 + (a - 0x71000) / 0x1000, (a - 0x71000) % 0x1000)
  else if a < 0x80000 then none
  else if a < 0x81000 then some (.prot, 0, a - 0x80000)
  else if a < 0x81190 then some (.plane, (a - 0x81000) / 4, 0x1000 + (a - 0x81000) % 4)
  else if a < 0x88000 then none
  else if a < 0x90000 then some (.mrg, (a - 0x88000) / 8, 0x8000 + (a - 0x88000) % 8)
  else if a < 0xA0000 then some (.mem, 0, a - 0x90000)
  else if a < 0xB0000 then some (.perf, 0, a - 0xA0000)
  else if a < 0xC0000 then some (.pwr, 0, a - 0xB0000)
  else if a < 0xD0000 then some (.mgmt, 0, a - 0xC0000)
  else if a < 0x100000 then none
  else if a < 0x160000 then some (.lane, (a - 0x100000) / 0x1000, (a - 0x100000) % 0x1000)
  else if a < 0x180000 then none
  else if a < 0x198000 then some (.grp, (a - 0x180000) / 0x1000, (a - 0x180000) % 0x1000)
  else if a < 0x200000 then none
  else if a < 0x240000 then some (.trib, (a - 0x200000) / 0x40, (a - 0x200000) % 0x40)
  else if a < 0x240010 then some (.tcnt, 0, a - 0x240000)
  else if a < 0x300000 then none
  else if a < 0x310000 then some (.slc, (a - 0x300000) / 0x100, (a - 0x300000) % 0x100)
  else if a < 0x380000 then none
  else if a < 0x3A0000 then some (.sep, (a - 0x380000) / 0x1000, (a - 0x380000) % 0x1000)
  else none

/-- The register of a window's table at an offset, with the index in its array; none where the offset is not tabled or
not word aligned. -/
def findDesc (ds : List RegDesc) (off : Nat) : Option (RegDesc × Nat) :=
  match ds with
  | [] => none
  | d :: ds =>
    if d.off ≤ off ∧ off < d.off + d.count * d.stride ∧ (off - d.off) % d.stride = 0 then
      some (d, (off - d.off) / d.stride)
    else findDesc ds off

/-- The number of values a field can hold. -/
def FieldDesc.span (f : FieldDesc) : Nat := 2 ^ (f.hi - f.lo + 1)

/-- The bits of a field. -/
def FieldDesc.mask (f : FieldDesc) : Nat := (f.span - 1) * 2 ^ f.lo

/-- The reset value of a register from its table. -/
def RegDesc.resetValue (d : RegDesc) : Nat := (d.fields.map fun f => f.reset * 2 ^ f.lo).sum

/-- The QoS of core c at reset (R462). -/
def coreQos (c : Nat) : Nat := if c = 0 then 7 else if c ≤ 24 then 5 else if c ≤ 28 then 6 else 2

/-- Reset values that a table gives in words or that depend on the partition, window or array index (R41, R283, R342,
R412, R462, R475); none where the table's number stands. DESIGN CHOICE: log entry 9. DESIGN CHOICE: log entry 135. -/
def specialReset (name : String) (part inst i : Nat) : Option Nat :=
  if name = "REFSEL_IN_CFG" then
    some ((if inst = 15 then 0x10000 else 0) + 11 * 2 ^ 12 + (if inst = 0 then 0x10 else if inst = 1 then 0x20 else 0)
      + (if inst ≤ 1 then 1 else 0))
  else if name = "REFSEL_IN_BW" then
    some (if inst ≤ 3 then 1000 else if inst ≤ 5 then 100 else if inst ≤ 13 then 100000 else if inst = 14 then 1000000
      else 0)
  else if name = "LANE_KLF_CFG" then (if 96 ≤ inst then some 0x17 else none)
  else if name = "HOST_FEAT_OFFER" then some (if i = 0 then (if part = 0 then 0xFF else 0xDF) else 0)
  else if name = "HOST_RATE_LIM" then some (if part = 0 then 800 * 2 ^ 16 + 800 else 0)
  else if name = "GLB_CAP2" then some (16 * 2 ^ 24 + 128 * 2 ^ 16 + (if part = 0 then 4096 else 0))
  else if name = "SEP_CTL" then some (if inst = 0 then 1 else 0)
  else if name = "SEP_STAT" then some (if inst = 0 then 1 else 6)
  else if name = "BOOT_MAP_TRIB" then some (if i = 0 then 4096 * 2 ^ 16 else 0)
  else if name = "BOOT_MAP_WIN" then some (if i = 0 then 256 * 2 ^ 16 else 0)
  else if name = "BOOT_MAP_PAGES" then some (if i = 0 then 12288 else 0)
  else if name = "BOOT_MAP_DEEP" then some (if i = 0 then 20480 * 2 ^ 16 + 20480 else 0)
  else if name = "BOOT_MAP_RATE" then some (if i = 0 then 800 * 2 ^ 16 + 800 else 0)
  else if name = "GLB_QOS_HOST" then
    some (((List.range 8).map fun j => (if 8 * i + j = 0 then 6 else 3) * 2 ^ (4 * j)).sum)
  else if name = "GLB_QOS_CORE" then some (((List.range 8).map fun j => coreQos (8 * i + j) * 2 ^ (4 * j)).sum)
  else if name = "PWR_DOM_ON" then some (if i = 0 then 0x607 else if i = 3 then 0x200000 else 0)
  else if name = "MGMT_I2C_TGT" then some 0x4C
  else if name = "TIME_REL_FREE" then some (if part = 0 then 12288 else 0)
  else none

/-- What an unlisted register reads as: its reset value. -/
def resetWord (key : Nat) : Word :=
  match locate (key % 0x1000000) with
  | none => 0
  | some (b, inst, off) =>
    match findDesc b.regs off with
    | none => 0
    | some (d, i) => BitVec.ofNat 32 ((specialReset d.name (key / 0x1000000 - 1) inst i).getD d.resetValue)

/-- The register file is canonical: keys rise, and no entry is a register's reset value. -/
def regsWf (m : SMap Word) : Bool := SMap.rising m && m.all fun e => decide (e.2 ≠ resetWord e.1)

/-! ## Register fields -/

/-- The stored word of a register. -/
def State.rget (s : State) (key : Nat) : Word := SMap.getD s.regs key (resetWord key)

/-- The state with a register's stored word replaced. -/
def State.rset (s : State) (key : Nat) (w : Word) : State :=
  { s with regs := SMap.putD s.regs key (resetWord key) w }

/-- A field of a word, as a number. -/
def FRef.of (r : FRef) (w : Word) : Nat := w.toNat / 2 ^ r.lo % 2 ^ (r.hi - r.lo + 1)

/-- A word with a field replaced by a number (taken modulo the field's width). -/
def FRef.put (r : FRef) (w : Word) (v : Nat) : Word :=
  BitVec.ofNat 32 (w.toNat - r.of w * 2 ^ r.lo + v % 2 ^ (r.hi - r.lo + 1) * 2 ^ r.lo)

/-- A register field. -/
def State.fget (s : State) (r : FRef) : Nat := r.of (s.rget r.key)

/-- A one-bit register field. -/
def State.fbit (s : State) (r : FRef) : Bool := s.fget r != 0

/-- The state with a register field set. -/
def State.fset (s : State) (r : FRef) (v : Nat) : State := s.rset r.key (r.put (s.rget r.key) v)

/-- The state with a one-bit register field set. -/
def State.fsetB (s : State) (r : FRef) (b : Bool) : State := s.fset r (if b then 1 else 0)

/-- The state with bits of a field ORed in, as the device sets sticky bits (R453). -/
def State.stick (s : State) (r : FRef) (v : Nat) : State := s.fset r (s.fget r ||| v)

/-- The state with a read-clear count raised by n, saturating at its field. -/
def State.fsat (s : State) (r : FRef) (n : Nat) : State := s.fset r (min (2 ^ (r.hi - r.lo + 1) - 1) (s.fget r + n))

/-- A number as a two's complement integer of the given width. -/
def toSigned (w v : Nat) : Int := if v < 2 ^ (w - 1) then v else (v : Int) - 2 ^ w

/-- An integer as a two's complement number of the given width. -/
def ofSigned (w : Nat) (v : Int) : Nat := (v % (2 ^ w : Int)).toNat

/-- A two-word field, low word first. -/
def State.fwide (s : State) (lo hi : FRef) : Nat := s.fget lo + s.fget hi * 2 ^ 32

/-! ## Power domains (R40) -/

/-- Power domain d is on. DEDUCED: log entry 121. -/
def State.domOn (s : State) (d : Nat) : Bool := (s.rget (PwrDomOn.reg (d / 32))).toNat.testBit (d % 32)

/-- Domain d is switched, and PWR_DOM_ON reports it. -/
def State.setDom (s : State) (d : Nat) (on : Bool) : State := s.fsetB ⟨PwrDomOn.reg (d / 32), d % 32, d % 32⟩ on

/-- Release-buffer banks that are powered: four to a quad, domains 17 to 40. -/
def State.poweredBanks (s : State) : Nat := 4 * ((List.range 24).filter fun k => s.domOn (17 + k)).length

/-! ## Ownership (R474) -/

/-- A word of the protection map in force (R476): the reset-value map until a checked one takes effect. DEDUCED: log entry 113. -/
def State.mword (s : State) (key : Nat) : Word := SMap.getD s.sys.mapInForce key (resetWord key)

/-- A field of the protection map in force. -/
def State.mget (s : State) (r : FRef) : Nat := r.of (s.mword r.key)

/-- The owner of a lane group. -/
def State.groupOwner (s : State) (g : Nat) : Nat := s.mget (BootMapGrp.owner g)

/-- The owner of a lane; cascade lanes belong to partition 0. -/
def State.laneOwner (s : State) (n : Nat) : Nat := if n < 96 then s.groupOwner (n / 4) else 0

/-- The source number of a lane in an event (R369). -/
def laneSource (n : Nat) : Nat := if n < 96 then n else 0x100 + (n - 96)

/-- The partition whose range of a map register holds x, given each partition's base and count. -/
def rangeOwner (base count : Nat → Nat) (x : Nat) : Option Nat :=
  (List.range 16).find? fun p => decide (base p ≤ x ∧ x < base p + count p)

/-- The owner of a tributary. -/
def State.tribOwner? (s : State) (t : Nat) : Option Nat :=
  rangeOwner (fun p => s.mget (BootMapTrib.base p)) (fun p => s.mget (BootMapTrib.count p)) t

/-- The owner of a window. -/
def State.winOwner? (s : State) (w : Nat) : Option Nat :=
  rangeOwner (fun p => s.mget (BootMapWin.base p)) (fun p => s.mget (BootMapWin.count p)) w

def State.tribOwner (s : State) (t : Nat) : Nat := (s.tribOwner? t).getD 0
def State.winOwner (s : State) (w : Nat) : Nat := (s.winOwner? w).getD 0

/-- A tributary's local number in its owner's view (R128). -/
def State.tribLocal (s : State) (t : Nat) : Nat := t - s.mget (BootMapTrib.base (s.tribOwner t))

/-- A window's local number in its owner's view. -/
def State.winLocal (s : State) (w : Nat) : Nat := w - s.mget (BootMapWin.base (s.winOwner w))

/-- The device number of a partition's local tributary, if granted. -/
def State.tribDevice (s : State) (p x : Nat) : Option Nat :=
  if x < s.mget (BootMapTrib.count p) then some (s.mget (BootMapTrib.base p) + x) else none

/-- The device number of a partition's local window, if granted. -/
def State.winDevice (s : State) (p x : Nat) : Option Nat :=
  if x < s.mget (BootMapWin.count p) then some (s.mget (BootMapWin.base p) + x) else none

/-- A field of four bits of a packed owner register. -/
def nibble (w : Word) (j : Nat) : Nat := w.toNat / 2 ^ (4 * j) % 16

/-- The owner of a slicer cluster. -/
def State.clusterOwner (s : State) (c : Nat) : Nat := nibble (s.mword (BootMapSlc.reg (c / 8))) (c % 8)

/-- The clusters of a partition, in ascending order. -/
def State.clustersOf (s : State) (p : Nat) : List Nat := (List.range 16).filter fun c => s.clusterOwner c == p

/-- An engine's local number in its owner's view: the clusters of the partition in ascending order. -/
def State.slcLocal (s : State) (e : Nat) : Nat :=
  ((s.clustersOf (s.clusterOwner (e / 16))).findIdx (· == e / 16)) * 16 + e % 16

/-- The device number of a partition's local engine: its clusters' engines in ascending order. -/
def State.slcDevice (s : State) (p x : Nat) : Option Nat := ((s.clustersOf p)[x / 16]?).map fun c => c * 16 + x % 16

/-- The host owner of a semaphore, where the map grants it to one (R415, R475). -/
def State.semOwner? (s : State) (i : Nat) : Option Nat :=
  if Nat.testBit (s.mword (BootMapSemEn.reg (i / 32))).toNat (i % 32) then
    some (nibble (s.mword (BootMapSem.reg (i / 8))) (i % 8))
  else none

/-! ## Counters -/

/-- The families of 48-bit counters (R106, R168, R207, R226, R238, R253, R336, R378, R446, R508). -/
inductive CtrKind where
  | lane | trib | slc | prot | host | cas | mem | perf
  deriving DecidableEq, Repr

/-- The number of a counter family. -/
def CtrKind.num : CtrKind → Nat
  | .lane => 0 | .trib => 1 | .slc => 2 | .prot => 3 | .host => 4 | .cas => 5 | .mem => 6 | .perf => 7

/-- The key of a counter: family, unit, index. -/
def ctrKey (k : CtrKind) (unit idx : Nat) : Nat := (k.num * 0x10000 + unit) * 64 + idx

/-- A counter's value. -/
def State.ctr (s : State) (k : CtrKind) (unit idx : Nat) : Nat := SMap.getD s.counters (ctrKey k unit idx) 0

/-- The state with a counter advanced by n, wrapping at 48 bits. -/
def State.ctrAdd (s : State) (k : CtrKind) (unit idx n : Nat) : State :=
  { s with counters := SMap.putD s.counters (ctrKey k unit idx) 0 ((s.ctr k unit idx + n) % 2 ^ 48) }

/-- The state with a counter set to 0. -/
def State.ctrZero (s : State) (k : CtrKind) (unit idx : Nat) : State :=
  { s with counters := SMap.del s.counters (ctrKey k unit idx) }

/-- n occurrences of a performance event of partition p's resource arg: every running edge counter that selects it counts
them while domain 6 is on (R40, R508 to R510). -/
def State.perfHit (s : State) (p code arg n : Nat) : State :=
  if n = 0 || !s.fbit (PerfCtl.run p) || !s.domOn 6 then s
  else (List.range 16).foldl (fun s k =>
    if s.fbit (PerfCntCfg.en p k) && !s.fbit (PerfCntCfg.lvl p k) && s.fget (PerfCntCfg.event p k) == code
        && (s.fget (PerfCntCfg.arg p k) == 0xFFF || s.fget (PerfCntCfg.arg p k) == arg) then s.ctrAdd .perf p k n
    else s) s

/-- The performance event that a counter of a family also is, with its partition and local resource number (R510). -/
def State.perfOf (s : State) (k : CtrKind) (unit idx : Nat) : Option (Nat × Nat × Nat) :=
  match k, idx with
  | .trib, 1 => some (s.tribOwner unit, 0x01, s.tribLocal unit)
  | .trib, 10 => some (s.tribOwner unit, 0x03, s.tribLocal unit)
  | .trib, 16 => some (s.tribOwner unit, 0x04, s.tribLocal unit)
  | .trib, 17 => some (s.tribOwner unit, 0x05, s.tribLocal unit)
  | .lane, 11 => some (s.laneOwner unit, 0x07, unit)
  | .lane, 2 => some (s.laneOwner unit, 0x08, unit)
  | .slc, 5 => some (s.clusterOwner (unit / 16), 0x0F, s.slcLocal unit)
  | .mem, 12 | .mem, 13 | .mem, 14 => some (0, 0x34, 0)
  | _, _ => none

/-- A counted event: its counter and the performance counters that select it. DEDUCED: log entry 22. -/
def State.bump (s : State) (k : CtrKind) (unit idx n : Nat) : State :=
  match s.perfOf k unit idx with
  | some (p, code, arg) => (s.ctrAdd k unit idx n).perfHit p code arg n
  | none => s.ctrAdd k unit idx n

/-! ## Unit state -/

def State.lane (s : State) (n : Nat) : LaneSt := SMap.getD s.lanes n {}
def State.setLane (s : State) (n : Nat) (v : LaneSt) : State := { s with lanes := SMap.putD s.lanes n {} v }
def State.group (s : State) (g : Nat) : GroupSt := SMap.getD s.groups g {}
def State.setGroup (s : State) (g : Nat) (v : GroupSt) : State := { s with groups := SMap.putD s.groups g {} v }
def State.trib (s : State) (t : Nat) : TribSt := SMap.getD s.tribs t {}
def State.setTrib (s : State) (t : Nat) (v : TribSt) : State := { s with tribs := SMap.putD s.tribs t {} v }
def State.core (s : State) (c : Nat) : CoreSt := SMap.getD s.cores c {}
def State.setCore (s : State) (c : Nat) (v : CoreSt) : State := { s with cores := SMap.putD s.cores c {} v }
def State.sem (s : State) (i : Nat) : SemSt := SMap.getD s.sems i {}
def State.setSem (s : State) (i : Nat) (v : SemSt) : State := { s with sems := SMap.putD s.sems i {} v }
def State.winSt (s : State) (w : Nat) : WinSt := SMap.getD s.wins w {}
def State.setWin (s : State) (w : Nat) (v : WinSt) : State := { s with wins := SMap.putD s.wins w {} v }
def State.part (s : State) (p : Nat) : PartSt := SMap.getD s.parts p {}
def State.setPart (s : State) (p : Nat) (v : PartSt) : State := { s with parts := SMap.putD s.parts p {} v }
/-- The key of ring r of partition p. -/
def ringKey (p r : Nat) : Nat := p * 64 + r
def State.ring (s : State) (p r : Nat) : RingSt := SMap.getD s.rings (ringKey p r) {}
def State.setRing (s : State) (p r : Nat) (v : RingSt) : State :=
  { s with rings := SMap.putD s.rings (ringKey p r) {} v }

/-- The key of a mailbox: the key of its request register. -/
def mailboxKey (p : Nat) : Mailbox → Nat
  | .timeRd => TimeRdReq.reg p
  | .timeLag => TimeLagReq.reg p
  | .tribCnt => TribCntReq.reg p
  | .laneCnt n => LaneCntReq.reg n
  | .slcCnt e => SlcCntReq.reg e
  | .protCnt => ProtCntReq.reg p
  | .hostCnt => HostCntReq.reg p
  | .casCnt => CasCntReq.reg
  | .memCnt => MemCntReq.reg
  | .perfCnt => PerfCntReq.reg p
  | .dcoRd => RefselDcoRdReq.reg

/-! ## Masters -/

/-- The partition whose view a master has: its own for a host side, partition 0's for every other (R448). DESIGN CHOICE: log entry 7. -/
def viewPart (m : Nat) : Nat := if 32 ≤ m ∧ m < 48 then m - 32 else 0

/-- The master is a host side. -/
def isHost (m : Nat) : Bool := decide (32 ≤ m ∧ m < 48)

/-- Reads of this master are free of side effects: JTAG always, a host side under its peek_host (R18). -/
def State.peeks (s : State) (m : Nat) : Bool := m = 49 || (isHost m && s.fbit (GlbDebug.peekHost (viewPart m)))

/-- The mailbox snapshot of a master (R458). -/
def State.mailOf (s : State) (m : Nat) (b : Mailbox) : Mail := SMap.getD s.mail (mailboxKey (viewPart m) b * 64 + m) {}

/-- The state with a master's mailbox snapshot replaced. -/
def State.setMail (s : State) (m : Nat) (b : Mailbox) (v : Mail) : State :=
  { s with mail := SMap.putD s.mail (mailboxKey (viewPart m) b * 64 + m) {} v }

/-- The device is in reset (R489): power-on reset, PERST_N low, a thermal trip, or no transmit/system clock. -/
def State.inReset (s : State) : Bool := s.sys.porHeld || !s.sys.perstN || s.sys.thermalHold || s.sys.clkLost

/-- The device answers nothing to master m: it is in reset, or m is JTAG and TRST_N is low (R462). DEDUCED: log entry 114. -/
def State.deaf (s : State) (m : Nat) : Bool := s.inReset || (m == 49 && !s.sys.trstN)

/-! ## Time -/

/-- Fifths of 2^-16 ns in a transmit/system tick of 6.4 ns (R169). DESIGN CHOICE: log entry 6. -/
def tickFifths : Nat := 2097152

/-- Device time in units of 2^-16 ns since the PTP epoch. DESIGN CHOICE: log entry 6. -/
def State.now (s : State) : Nat := s.clock / 5

/-- 1 ns, 1 us, 1 ms and 1 s in units of 2^-16 ns. -/
def tNs : Nat := 65536
def tUs : Nat := 65536000
def tMs : Nat := 65536000000
def tSec : Nat := 65536000000000

/-- Ticks in n nanoseconds of elapsed time, rounded up. -/
def ticksOfNs (n : Nat) : Nat := (n * 10 + 63) / 64

/-- The 96-bit device-time word (R8) of a time. -/
def timeWord (t : Nat) : Nat := t / tSec * 2 ^ 48 + t % tSec

/-- The nanoseconds field of a 96-bit device-time word exceeds 999,999,999 (R9). -/
def malformed (w : Nat) : Bool := decide (999999999 < w / 2 ^ 16 % 2 ^ 32)

/-- The time a 96-bit device-time word states. -/
def timeOf (w : Nat) : Nat := w / 2 ^ 48 * tSec + w % 2 ^ 48

/-- A number as n bytes, lowest first. -/
def leBytes (n v : Nat) : List Byte := (List.range n).map fun i => BitVec.ofNat 8 (v / 2 ^ (8 * i))

/-- The number that bytes spell, lowest first. -/
def ofLe : List Byte → Nat
  | [] => 0
  | b :: bs => b.toNat + 256 * ofLe bs

/-- The number that bytes spell, highest first. -/
def ofBe (bs : List Byte) : Nat := ofLe bs.reverse

/-- Bytes i to i + n - 1 of a list as a number, lowest first; missing bytes are 0. -/
def leAt (bs : List Byte) (i n : Nat) : Nat := ofLe ((bs.drop i).take n)

/-! ## Outputs and free values -/

/-- The state with an output recorded. DESIGN CHOICE: log entry 183. -/
def State.emit (s : State) (o : Output) : State := { s with out := o :: s.out }

/-- A value the spec leaves undefined, of w bits, and the state with the counter of them advanced. DESIGN CHOICE: log entry 10. -/
def State.free (s : State) (w : Nat) : Nat × State :=
  ((Config.freeValue s.fresh).toNat % 2 ^ w, { s with fresh := s.fresh + 1 })

/-- A choice the spec leaves open, and the state with the counter of them advanced. DESIGN CHOICE: log entry 11. -/
def State.freeB (s : State) : Bool × State := (Config.freeBool s.fresh, { s with fresh := s.fresh + 1 })

/-- The state changed by f where c holds. -/
def State.onlyIf (s : State) (c : Bool) (f : State → State) : State := if c then f s else s

/-- A change of the state made for each number of a list, in order. -/
def State.forEach (s : State) (l : List Nat) (f : State → Nat → State) : State := l.foldl f s

end Sys2Proof.Machine
end

