-- ==== Sys2Proof/Machine/Events.lean ====
section
/-! DEFINITION. Events to event rings (R369), entries of device-producer rings (R346, R348), MEM event windows (R444) and
the alarm summary (R498). -/

namespace Sys2Proof.Machine

/-- Entries of a ring: 2^size_exp (R345). -/
def State.ringSize (s : State) (p r : Nat) : Nat := 2 ^ s.fget (HostRingCfg.sizeExp p r)

/-- Entries the host has not consumed and those that wait in the device, of a device-producer ring (R346). -/
def State.ringUsed (s : State) (p r : Nat) : Nat :=
  (s.fget (HostRingStat.devIdx p r) + 65536 - s.fget (HostRingHidx.hostIdx p r)) % 65536 + (s.ring p r).waiting.length

/-- A ring is enabled with the given type. -/
def State.ringIs (s : State) (p r typ : Nat) : Bool :=
  s.fbit (HostRingCfg.en p r) && s.fget (HostRingCfg.typ p r) == typ

/-- An entry of 32 bytes from its parts; the phase bit is set when it is written (R348). -/
def padEntry (bs : List Byte) : List Byte := (bs ++ List.replicate 32 0).take 32

/-- An event entry (R369). -/
def eventEntry (kind source data0 stamp data1 : Nat) : List Byte :=
  padEntry (leBytes 1 kind ++ [0] ++ leBytes 2 source ++ leBytes 4 data0 ++ leBytes 12 (timeWord stamp) ++ leBytes 12 data1)

/-- The kind mask of an event ring: 0 is taken as every kind (R345). -/
def State.eventMask (s : State) (p r : Nat) : Nat :=
  if s.fget (HostRingArg.arg p r) = 0 then 2 ^ 32 - 1 else s.fget (HostRingArg.arg p r)

/-- Entries of an event take their place among those that wait, in order of their stamps (R369); continuation entries stay behind the event
they follow. -/
def placeEvent (stamp : Nat) (es waiting : List (List Byte × Bool)) : List (List Byte × Bool) :=
  let before (e : List Byte × Bool) : Bool := leAt e.1 0 1 == 0x8A || decide (leAt e.1 8 12 ≤ timeWord stamp)
  waiting.takeWhile before ++ es ++ waiting.dropWhile before

/-- Entries put on one event ring: all of them where it has room, after a LOST record where events were lost; otherwise
the event is dropped and counted (R369, R370). -/
def State.pushEvent (s : State) (p r : Nat) (stamp : Nat) (es : List (List Byte)) : State :=
  let g := s.ring p r
  let lostRec := if g.lost = 0 then [] else [eventEntry 0x11 r g.lost stamp 0]
  if s.ringUsed p r + lostRec.length + es.length ≤ s.ringSize p r then
    (s.setRing p r { g with waiting := placeEvent stamp ((lostRec ++ es).map (·, false)) g.waiting, lost := 0 }).fsetB (HostRingStat.busy p r) true
  else (s.setRing p r { g with lost := g.lost + 1 }).bump .host (p * 64 + r) 10 1

/-- The event rings of a partition that take a kind. -/
def State.eventRings (s : State) (p kind : Nat) : List Nat :=
  (List.range 64).filter fun r => s.ringIs p r 4 && Nat.testBit (s.eventMask p r) kind

/-- An event with its continuation entries, to every enabled event ring of the partition whose mask holds its kind; with
no such ring it is counted as lost. -/
def State.raiseMany (s : State) (p kind stamp : Nat) (es : List (List Byte)) : State :=
  match s.eventRings p kind with
  | [] => let q := s.part p; s.setPart p { q with lostEvents := q.lostEvents + 1 }
  | rs => s.forEach rs fun s r => s.pushEvent p r stamp es

/-- An event stamped with the given time. -/
def State.raiseAt (s : State) (p kind source data0 data1 stamp : Nat) : State :=
  s.raiseMany p kind stamp [eventEntry kind source data0 stamp data1]

/-- A stamp of the present device time, at full resolution within the tick (R169): where in the tick a command falls is open, not
before an earlier stamp. DESIGN CHOICE: log entry 216. -/
def State.stamp (s : State) : Nat × State :=
  let lo := if s.now ≤ s.sys.stampAt ∧ s.sys.stampAt < s.now + 419430 then s.sys.stampAt - s.now else 0
  let (f, s1) := s.free 19
  let x := s.now + lo + f % (419430 - lo)
  (x, { s1 with sys := { s1.sys with stampAt := x } })

/-- An event stamped with the present device time. -/
def State.raise (s : State) (p kind source data0 data1 : Nat) : State :=
  let (x, s1) := s.stamp
  s1.raiseAt p kind source data0 data1 x

/-! ## The alarm summary (R498) -/

/-- The alarm sources present, as bits 0 to 10. Boot failure and last gasp hold until a reset. -/
def State.alarmSources (s : State) : Nat :=
  let lane := (List.range 100).any fun n =>
    s.fget (LaneFail.fail n) &&& ((2 ^ 8 - 1) ^^^ s.fget (LaneFailMask.alarmMask n)) != 0
  let pair := s.fbit ProtPairStat.claimFault || s.fbit ProtPairStat.outCont || s.fbit ProtPairStat.isolated
    || (s.fbit ProtPairStat.hbPinOk != s.fbit ProtPairStat.hbCasOk) || s.pair.ownSide.isSome
  let node := s.fget (CasAgrDis.nodes 0) != 0 || s.fget (CasAgrDis.nodes 1) != 0 || s.fbit CasMgr.dupId
  let dbl := (List.range 32).any fun c => s.fget (SepStat.state c) == 5
  let timing := s.fget RefselStat.state == 3 || s.fget RefselStat.state == 4
  let mem := s.fbit MemLog0.valid || s.fget MemHbmStat.dies0 != 0 || s.fget MemHbmStat.dies1 != 0
    || s.fbit MemHbmStat.lost0 || s.fbit MemHbmStat.lost1
  let heat := decide (toSigned 16 (s.fget PwrTherm.alarmThr) ≤ toSigned 16 (s.fget PwrTherm.tj))
  let boot := s.fget BootStat.err != 0
  let link := !s.fbit HostLink.up && s.fbit (HostCtl.go 0)
  [lane, pair, node, s.fbit IntegDigStat.digest, dbl, timing, mem, heat, boot, s.sys.lastGasp, link].zipIdx.foldl
    (fun a e => if e.1 then a + 2 ^ e.2 else a) 0

/-- The sources drive MGMT_ALARM_SRC, its sticky copy and ALARM_N; sources 8 and 9 cannot be masked. -/
def State.alarm (s : State) : State :=
  let src := s.alarmSources
  let low := src &&& ((2 ^ 11 - 1) ^^^ (s.fget MgmtAlarmMask.mask &&& 0x4FF)) != 0
  let s1 := (s.fset MgmtAlarmSrc.src src).stick MgmtAlarmStky.stky src
  if low = s.sys.alarmLow then s1
  else ({ s1 with sys := { s1.sys with alarmLow := low } }).emit (.alarm low)

/-! ## Memory integrity events (R425, R444) -/

/-- The key of a MEM event window: partition, class, happening. -/
def memWinKey (p cls happening : Nat) : Nat := (p * 4 + cls) * 16 + happening

/-- A MEM happening: it opens or joins its window of 1 ms of device time (R444). -/
def State.memHappening (s : State) (p cls happening : Nat) (loc1 loc0 : Word) (unit kind : Nat) : State :=
  let k := memWinKey p cls happening
  let w := match SMap.find s.mem.wins k with
    | none => ⟨s.now, 1, loc1, loc0, unit, kind⟩
    | some w => { w with count := w.count + 1 }
  { s with mem := { s.mem with wins := SMap.ins s.mem.wins k w } }

/-- DUSK begins or its hold restarts on an uncorrectable unit, a failed die or a lost stack, or on a PAIR event, while enabled
(R465). cause: 1 uncorrectable, 2 protection, 3 command. DEDUCED: log entry 115. -/
def State.duskCause (s : State) (cause : Nat) : State :=
  let enabled := (cause = 1 && s.fbit GlbPhaseCfg.duskOnUnc) || (cause = 2 && s.fbit GlbPhaseCfg.duskOnProt)
  if !enabled then s
  else if s.fget GlbPhase.phase = 1 then
    { (s.fset GlbPhase.phase 2).fset GlbPhase.cause cause with
        sys := { s.sys with duskHeld := false, duskSince := s.ticks } }
  else if s.fget GlbPhase.phase = 2 then
    { s.fset GlbPhase.cause cause with sys := { s.sys with duskSince := s.ticks } }
  else s

/-- The index of a class's memory counters: corrected, found uncorrectable, poison consumed. -/
def memCtr (base cls : Nat) : Nat := base + cls

/-- An uncorrectable unit is found: counted, logged if the log is free, and a MEM happening 1 of the partition (R425). -/
def State.foundUncorrectable (s : State) (p cls stack pos : Nat) (loc : Word) (unit kind : Nat) : State :=
  let loc0 := BitVec.ofNat 32 (cls * 2 ^ 29 + stack * 2 ^ 28 + pos * 2 ^ 24)
  let s1 := s.bump .mem 0 (memCtr 3 cls) 1
  let s2 := if s1.fbit MemLog0.valid then s1
    else (s1.rset MemLog0.reg (BitVec.ofNat 32 (loc0.toNat + 2 ^ 31))).rset MemLog1.reg loc
  ((s2.memHappening p cls 1 loc loc0 unit kind).duskCause 1).alarm

/-- A consumer uses a poisoned unit: counted, and a MEM happening 2 (R425, R435). -/
def State.poisonConsumed (s : State) (p cls : Nat) (loc : Word) (unit kind : Nat) : State :=
  (s.bump .mem 0 (memCtr 6 cls) 1).memHappening p cls 2 loc (BitVec.ofNat 32 (cls * 2 ^ 29)) unit kind

end Sys2Proof.Machine
end

