-- ==== Sys2Proof/Machine/BusOps.lean ====
section
/-! DEFINITION. Bus errors and their log (R459 to R461), errors reported through AER, and the commands of host rings: the
descriptor at the head of a command ring, completions and the counts of held operations (R350 to R357). -/

namespace Sys2Proof.Machine

/-! ## Bus errors -/

/-- An error reported through AER by its bit in the AER status register, unless masked. PRESUMED: log entry 78. -/
def State.aerRaise (s : State) (p bit : Nat) : State :=
  let q := s.part p
  let s1 := s.setPart p { q with aerStatus := q.aerStatus ||| 2 ^ bit }
  if q.aerMask.testBit bit then s1 else s1.emit (.aer p bit)

/-- A bus error of master m: logged and counted in its partition's INTEG view, and answered as R459 says. Cause 4 answers
nothing (R455). -/
def State.busErr (s : State) (m cause : Nat) (write : Bool) (bar off : Nat) : State :=
  let p := viewPart m
  let s1 := if s.fbit (IntegBuserr0.valid p) then s.fsetB (IntegBuserr0.more p) true
    else ((((((s.fsetB (IntegBuserr0.valid p) true).fsetB (IntegBuserr0.more p) false).fset (IntegBuserr0.cause p) cause).fset (IntegBuserr0.master p) m).fsetB
      (IntegBuserr0.write p) write).fset (IntegBuserr1.bar p) bar).fset (IntegBuserr1.offset p) off
  let s2 := (s1.fsat (IntegBuserrCnt.count p) 1).perfHit p 0x0E 0 1
  if cause = 4 then s2
  else if isHost m then (s2.emit (.busError m write)).aerRaise p 15
  else if m = 48 then { s2 with casErrs := s2.casErrs + 1 }
  else if m = 50 then { s2 with digErrs := s2.digErrs + 1 }
  else s2.emit (.busError m write)

/-! ## Host rings -/

/-- Feature i is accepted and the partition runs (R342, R343). -/
def State.feature (s : State) (p i : Nat) : Bool :=
  s.fbit (HostStat.running p) && (s.rget (HostFeatAccept.reg p (i / 32))).toNat.testBit (i % 32)

/-- Function p may master the bus (R341). -/
def State.masters (s : State) (p : Nat) : Bool := s.fbit (HostStat.bme p) && !(s.part p).d3hot

/-- The device may issue requests for partition p beyond records and events already queued (R341, R377); the DMA engine is off in
NIGHT idle (R40). -/
def State.dmaOn (s : State) (p : Nat) : Bool :=
  s.masters p && !s.sys.lastGasp && !(s.fget GlbPhase.phase == 3 && !s.domOn 8)

/-- Descriptors and buffers that a ring holds. -/
def RingSt.heldCount (g : RingSt) : Nat := g.descs.length + g.caps.length + g.plays.length

/-- HOST_RING_STAT and HOST_OPS show what a ring holds (R345, R350). -/
def State.syncRing (s : State) (p r : Nat) : State :=
  let g := s.ring p r
  let s1 := (s.fset (HostRingStat.held p r) g.heldCount).fsetB (HostRingStat.busy p r) (g.heldCount != 0 || !g.waiting.isEmpty)
  s1.fset (HostOps.held p) (((List.range 64).map fun r => (s1.ring p r).heldCount).sum)

/-- The descriptor at the head of a command ring that is enabled, or disabled with fetched commands left (R349), whose op satisfies
`isOp`, while no command of the ring is under way and the completion ring has room (R354). A ring stopped by WAIT_EPOCH executes nothing
(R356). -/
def State.headCmd (s : State) (p r : Nat) (isOp : Nat → Bool) : Option (List Byte) :=
  let g := s.ring p r
  match g.descs with
  | [] => none
  | (_, d) :: _ =>
    let c := s.fget (HostRingCfg.cpl p r)
    let n := if leAt d 0 1 = 1 then 4 else 1
    if (s.ringIs p r 0 || g.closing && s.fget (HostRingCfg.typ p r) == 0) && s.dmaOn p && s.fget (HostRingStat.err p r) != 5 && !g.headBusy && isOp (leAt d 0 1)
        && decide (s.ringUsed p c + n ≤ s.ringSize p c) then some d
    else none

/-- Records put on a device-producer ring, where they wait for room; the last may be signalled at once. While no request may be
issued, those beyond the room are dropped and counted (R341). DEDUCED: log entry 92. -/
def State.pushRecords (s : State) (p c : Nat) (es : List (List Byte)) (atOnce : Bool) : State :=
  let g := s.ring p c
  if !s.dmaOn p && decide (s.ringSize p c < s.ringUsed p c + es.length) then s.bump .host (p * 64) 11 es.length
  else s.setRing p c { g with waiting := g.waiting ++ es.map (·, atOnce) } |>.syncRing p c

/-- A completion record (R357). -/
def cplEntry (d : List Byte) (ring status result : Nat) (data : List Byte) : List Byte :=
  padEntry (d.take 1 ++ [0] ++ (d.drop 2).take 2 ++ leBytes 1 ring ++ leBytes 1 status ++ leBytes 2 result ++ data)

/-- The command at the head of a ring completes: its record is queued, the descriptor is released and the next command comes
to the head. -/
def State.complete (s : State) (p r status result : Nat) (data : List Byte) (more : List (List Byte)) : State :=
  let g := s.ring p r
  match g.descs with
  | [] => s
  | (_, d) :: ds =>
    let s1 := (s.setRing p r { g with descs := ds, headBusy := false, headSince := s.now, frame := none
                                      closing := g.closing && !ds.isEmpty }).syncRing p r
    (s1.pushRecords p (s.fget (HostRingCfg.cpl p r)) (cplEntry d r status result data :: more) (leAt d 1 1 % 2 = 1)).bump .host
      (p * 64) 5 1

/-- The flags byte of a descriptor sets a reserved bit. DEDUCED: log entry 82. -/
def badFlags (d : List Byte) : Bool := leAt d 1 1 / 2 != 0

/-- The bytes of a descriptor from i on are not all 0. -/
def usedFrom (d : List Byte) (i : Nat) : Bool := ofLe (d.drop i) != 0

/-- The head command is taken up and completes later. -/
def State.cmdBusy (s : State) (p r : Nat) : State :=
  let g := s.ring p r
  s.setRing p r { g with headBusy := true }

end Sys2Proof.Machine
end

