-- ==== Sys2Proof/Machine/Codec.lean ====
section
/-! DEFINITION. The codes of the line format and the tables: CRCs (R402), the scrambler (R50), the head check (R137), the
Reed-Solomon code RS(524,512) (R55 to R58), rate matching (R142) and the PAM4 symbols (R46). -/

namespace Sys2Proof.Machine

/-! ## CRCs -/

/-- The bits of a byte in the order a CRC is fed them: lowest first where refin, else highest first. -/
def crcBits (refin : Bool) (b : Byte) : List Bool :=
  (List.range 8).map fun i => b.toNat.testBit (if refin then i else 7 - i)

/-- One bit fed to the register of a CRC of width w and polynomial p (R402). -/
def crcBit (w p reg : Nat) (bit : Bool) : Nat :=
  let top := reg.testBit (w - 1) != bit
  let sh := reg * 2 % 2 ^ w
  if top then sh ^^^ (p % 2 ^ w) else sh

/-- Bytes fed to a CRC register. -/
def crcFeed (w p : Nat) (refin : Bool) (reg : Nat) (bs : List Byte) : Nat :=
  bs.foldl (fun r b => (crcBits refin b).foldl (crcBit w p) r) reg

/-- The low w bits of a number in reverse order. -/
def revBits (w v : Nat) : Nat := (List.range w).foldl (fun a i => a * 2 + (if v.testBit i then 1 else 0)) 0

/-- The result of a CRC register: reflected where refout, inverted where xorout. -/
def crcOut (w : Nat) (refout xorout : Bool) (reg : Nat) : Nat :=
  let r := if refout then revBits w reg else reg
  if xorout then r ^^^ (2 ^ w - 1) else r

/-- CRC-32C (R405 selection 0). -/
def crc32c (bs : List Byte) : Nat := crcOut 32 true true (crcFeed 32 0x1EDC6F41 true 0xFFFFFFFF bs)

/-- CRC-16 of R72. -/
def crc16 (bs : List Byte) : Nat := crcFeed 16 0x1021 false 0xFFFF bs

/-- CRC-8 of width 8 with the given polynomial and initial value, unreflected. -/
def crc8 (p i : Nat) (bs : List Byte) : Nat := crcFeed 8 p false i bs

/-! ## Payloads -/

/-- The eight bytes of a payload, byte 0 first (R47). -/
def payloadBytes (p : BitVec 64) : List Byte := leBytes 8 p.toNat

/-- Bits [hi:lo] of a payload. -/
def pbits (p : BitVec 64) (hi lo : Nat) : Nat := p.toNat / 2 ^ lo % 2 ^ (hi - lo + 1)

/-- The head check hchk over bits [60:8] (R137). -/
def headCheck (p : BitVec 64) : Nat :=
  ((List.range 53).map fun k => p.toNat.testBit (60 - k)).foldl
    (fun c b => (c * 2 % 8) ^^^ (if (c.testBit 2) != b then 3 else 0)) 0

/-- The PAM4 level of a pair of line bits, first bit first (R46). -/
def pam4Level (b0 b1 : Bool) : Nat :=
  match b0, b1 with
  | false, false => 0
  | false, true => 1
  | true, true => 2
  | true, false => 3

/-- The two line bits of a PAM4 level as a number, first bit lowest. -/
def levelBits (l : Nat) : Nat := match l with | 0 => 0 | 1 => 2 | 2 => 3 | _ => 1

/-- The line bits that symbols spell, first bit lowest: two to a PAM4 level, one to an NRZ level (R46). -/
def lineBits (nrz : Bool) : List Nat → Nat
  | [] => 0
  | l :: ls => if nrz then (if l = 0 then 0 else 1) + 2 * lineBits nrz ls else levelBits l + 4 * lineBits nrz ls

/-- The symbols of n line bits, first bit lowest (R46). -/
def lineSymbols (nrz : Bool) (n bits : Nat) : List Nat :=
  if nrz then (List.range n).map fun i => if bits.testBit i then 1 else 0
  else (List.range (n / 2)).map fun i => pam4Level (bits.testBit (2 * i)) (bits.testBit (2 * i + 1))

/-- The header that two line bits spell, first bit lowest (R47). -/
def hdrOf (bits : Nat) : Hdr := match bits % 4 with | 2 => .data | 1 => .control | _ => .invalid

/-- The line bits of a header (R47); the transmitter sends no invalid one. -/
def hdrBits : Hdr → Nat
  | .data => 2
  | .control => 1
  | .invalid => 0

/-- The header and payload of a received block (R47). -/
def lineBlock (nrz : Bool) (symbols : List Nat) : Hdr × BitVec 64 :=
  let b := lineBits nrz symbols
  (hdrOf b, BitVec.ofNat 64 (b / 4))

/-- The symbols of a block sent (R46, R47). -/
def blockSymbols (nrz : Bool) (h : Hdr) (p : BitVec 64) : List Nat := lineSymbols nrz 66 (hdrBits h + 4 * p.toNat)

/-! ## Scrambler (R50): history bit 60 is the newest line bit -/

/-- A received payload descrambled with the 61 line bits before it, and the 61 newest line bits after it. -/
def descramble (h : BitVec 61) (p : BitVec 64) : BitVec 64 × BitVec 61 :=
  let x := h.toNat + p.toNat * 2 ^ 61
  (BitVec.ofNat 64 (p.toNat ^^^ (x / 2 ^ 34 % 2 ^ 64) ^^^ (x % 2 ^ 64)), BitVec.ofNat 61 (x / 2 ^ 64))

/-- A payload scrambled bit by bit, payload bit 0 first: the line bits, and the history after them. -/
def scramble (h : BitVec 61) (d : BitVec 64) : BitVec 64 × BitVec 61 :=
  let r := (List.range 64).foldl (fun (a : Nat × Nat) i =>
      let bit := (d.toNat.testBit i) != (a.2.testBit 34 != a.2.testBit 0)
      let b := if bit then 1 else 0
      (a.1 + b * 2 ^ i, a.2 / 2 + b * 2 ^ 60)) (0, h.toNat)
  (BitVec.ofNat 64 r.1, BitVec.ofNat 61 r.2)

/-! ## RS(524,512) over GF(2^10) (R55) -/

/-- The product of two field elements: x^10 = x^3 + 1. -/
def gfMul (a b : Nat) : Nat :=
  ((List.range 10).foldl (fun (s : Nat × Nat) i =>
      let acc := if b.testBit i then s.1 ^^^ s.2 else s.1
      let d := s.2 * 2
      (acc, if d.testBit 10 then d ^^^ 0x409 else d)) (0, a % 1024)).1

/-- A power of a field element. -/
def gfPow (a : Nat) : Nat → Nat
  | 0 => 1
  | n + 1 => gfMul a (gfPow a n)

/-- The powers of alpha, from alpha^0. -/
def alphaPows (n : Nat) : List Nat := (List.range n).map (gfPow 2)

/-- The inverse of a non-zero field element: its power 2^10 - 2, by repeated squaring. -/
def gfInv (a : Nat) : Nat :=
  ((List.range 9).foldl (fun (s : Nat × Nat) _ => let q := gfMul s.2 s.2; (gfMul s.1 q, q)) (1, a)).1

/-- The generator polynomial, lowest coefficient first. -/
def rsGen : List Nat :=
  (alphaPows 12).foldl (fun g r =>
    List.zipWith (· ^^^ ·) (0 :: g) ((g.map (gfMul r)) ++ [0])) [1]

/-- The 12 parity symbols of 512 message symbols, coefficient of x^11 first (R55, R57). -/
def rsParity (msg : List Nat) : List Nat :=
  let g := (rsGen.take 12).reverse
  msg.foldl (fun reg m =>
    let fb := m ^^^ reg.headD 0
    List.zipWith (fun r c => r ^^^ gfMul fb c) (reg.drop 1 ++ [0]) g) (List.replicate 12 0)

/-- The 12 syndromes of a received word, coefficient of x^523 first. -/
def rsSyndromes (w : List Nat) : List Nat :=
  (alphaPows 12).map fun r => w.foldl (fun a c => gfMul a r ^^^ c) 0

/-- The coefficient of a polynomial held lowest first. -/
def coef (p : List Nat) (i : Nat) : Nat := (p[i]?).getD 0

/-- The sum of two polynomials. -/
def polyAdd (a b : List Nat) : List Nat :=
  (List.range (max a.length b.length)).map fun i => coef a i ^^^ coef b i

/-- The value of a polynomial at x. -/
def polyEval (p : List Nat) (x : Nat) : Nat := p.reverse.foldl (fun a c => gfMul a x ^^^ c) 0

/-- The error locator by the Berlekamp-Massey steps: the locator, the previous one, its discrepancy, the shift and the
length. -/
def rsLocator (syn : List Nat) : List Nat × Nat :=
  let r := (List.range 12).foldl (fun (st : List Nat × List Nat × Nat × Nat × Nat) n =>
      let (c, b, bd, m, l) := st
      let d := (List.range (l + 1)).foldl (fun a i => a ^^^ gfMul (coef c i) (coef syn (n - i))) 0
      if d = 0 then (c, b, bd, m + 1, l)
      else
        let t := polyAdd c (List.replicate m 0 ++ b.map (gfMul (gfMul d (gfInv bd))))
        if 2 * l ≤ n then (t, c, d, 1, n + 1 - l) else (t, b, bd, m + 1, l))
    ([1], [1], 1, 1, 0)
  (r.1, r.2.2.2.2)

/-- The errors a locator names: exponents of x from 0 to 523 whose inverse locator is a root, with their values by
Forney's formula for the generator's first root alpha^0. -/
def rsErrors (syn loc : List Nat) : List (Nat × Nat) :=
  let om := (List.range 12).map fun k =>
    (List.range (k + 1)).foldl (fun a i => a ^^^ gfMul (coef loc i) (coef syn (k - i))) 0
  let der := (List.range 6).map fun i => coef loc (2 * i + 1)
  (List.range 524).filterMap fun e =>
    let x := gfPow 2 e
    let xi := gfInv x
    if polyEval loc xi = 0 then
      some (e, gfMul x (gfMul (polyEval om xi) (gfInv (polyEval der (gfMul xi xi)))))
    else none

/-- The decoder's outcome (R58). -/
inductive RsResult where
  | clean
  | corrected (word : List Nat) (count : Nat)
  | uncorrectable
  deriving DecidableEq, Repr

/-- A received word of 524 symbols decoded: corrected only to a codeword at most 6 symbols away. -/
def rsDecode (w : List Nat) : RsResult :=
  let syn := rsSyndromes w
  if syn.all (· == 0) then .clean
  else
    let (loc, l) := rsLocator syn
    let errs := rsErrors syn loc
    let w' := errs.foldl (fun a (e : Nat × Nat) => a.modify (523 - e.1) (· ^^^ e.2)) w
    if 1 ≤ errs.length ∧ errs.length ≤ 6 ∧ errs.length = l ∧ (rsSyndromes w').all (· == 0) then
      .corrected w' errs.length
    else .uncorrectable

/-- The stream of payload bits of blocks, in transmission order, as one number (R56). -/
def streamOf (ps : List (BitVec 64)) : Nat := ps.reverse.foldl (fun a p => a * 2 ^ 64 + p.toNat) 0

/-- n symbols of 10 bits of a stream, first bit least significant (R56, R57). -/
def symbolsOf (n stream : Nat) : List Nat := (List.range n).map fun k => stream / 2 ^ (10 * k) % 1024

/-- The stream that symbols spell. -/
def ofSymbols (ss : List Nat) : Nat := ss.reverse.foldl (fun a x => a * 1024 + x) 0

/-- The 80 payloads of a stream. -/
def payloadsOf (stream : Nat) : List (BitVec 64) := (List.range 80).map fun i => BitVec.ofNat 64 (stream / 2 ^ (64 * i))

/-- The payloads of the tail pair for an overhead byte: parity in protected mode, the fixed fill in plain mode (R53,
R54). -/
def tailPair (fec : Bool) (ohByte : Byte) (ps : List (BitVec 64)) : BitVec 64 × BitVec 64 :=
  if fec then
    let par := ofSymbols (rsParity (symbolsOf 512 (streamOf ps)))
    (BitVec.ofNat 64 (ohByte.toNat + par % 2 ^ 56 * 2 ^ 8), BitVec.ofNat 64 (par / 2 ^ 56))
  else (BitVec.ofNat 64 (ohByte.toNat + 0x3CC33CC33CC33C * 2 ^ 8), 0x3CC33CC33CC33CC3#64)

/-! ## Rate matching (R142) -/

/-- One grain slot of c slots with n grains: whether it carries a grain, and the accumulator after it. -/
def rateStep (c n acc : Nat) : Bool × Nat := if c ≤ acc + n then (true, acc + n - c) else (false, acc + n)

/-- The places of n grains among c grain slots. -/
def grainPlaces (c n : Nat) : List Nat :=
  ((List.range c).foldl (fun (a : Nat × List Nat) i =>
      let (g, acc) := rateStep c n a.1
      (acc, if g then a.2 ++ [i] else a.2)) (c / 2, [])).2

end Sys2Proof.Machine
end

