-- ==== Sys2Proof/Machine/Formats.lean ====
section
/-! DEFINITION. Grain layouts and sample codes (R12, R129 to R133), blank codes (R131, R148), and the periods and units of a
tributary (R127, R133, R144). -/

namespace Sys2Proof.Machine

/-- The code width of a layout (R129). -/
def codeWidth (fmt : Nat) : Nat := match fmt % 8 with | 0 => 16 | 1 => 14 | 2 => 8 | 3 => 4 | _ => 2

/-- Grains per unit g of a layout. -/
def unitGrains (fmt : Nat) : Nat := if fmt % 8 = 1 then 7 else 1

/-- Sample codes per unit. -/
def unitCodes (fmt : Nat) : Nat := 64 * unitGrains fmt / codeWidth fmt

/-- Complex samples (R129 bit 3). -/
def isComplex (fmt : Nat) : Bool := decide (fmt / 8 % 2 = 1)

/-- Instants per unit: codes, or pairs of them (R132). -/
def unitInstants (fmt : Nat) : Nat := unitCodes fmt / (if isComplex fmt then 2 else 1)

/-- The blank code of a width (R131). -/
def blankCode (w : Nat) : Nat := if w ≥ 14 then 0x2000 else 2 ^ (w - 1)

/-- A unit of blank codes, as one number. -/
def blankUnit (fmt : Nat) : Nat :=
  let w := codeWidth fmt
  ((List.range (unitCodes fmt)).map fun k => blankCode w * 2 ^ (w * k)).sum

/-- Grain i of a unit held as one number. -/
def unitGrain (u i : Nat) : BitVec 64 := BitVec.ofNat 64 (u / 2 ^ (64 * i))

/-- Grain i of a blank unit. -/
def blankGrain (fmt i : Nat) : BitVec 64 := unitGrain (blankUnit fmt) i

/-- A unit from its grains. -/
def ofGrains (gs : List (BitVec 64)) : Nat := streamOf gs

/-- Code k of a unit (R130). -/
def unitCode (fmt u k : Nat) : Nat := u / 2 ^ (codeWidth fmt * k) % 2 ^ codeWidth fmt

/-- A unit with the codes of which p holds made blank. -/
def blankWhere (fmt u : Nat) (p : Nat → Bool) : Nat :=
  let w := codeWidth fmt
  ((List.range (unitCodes fmt)).map fun k => (if p k then blankCode w else unitCode fmt u k) * 2 ^ (w * k)).sum

/-- Code k of a unit has a bit in a grain of which bad holds (R148). -/
def codeTouches (fmt k : Nat) (bad : Nat → Bool) : Bool :=
  let w := codeWidth fmt
  (List.range (unitGrains fmt)).any fun g => bad g && decide (w * k < 64 * (g + 1) ∧ 64 * g < w * k + w)

/-- The instant index of code k (R132). -/
def codeInstant (fmt k : Nat) : Nat := if isComplex fmt then k / 2 else k

/-- A tagged grain carries a range flag (R13). -/
def rangeFlag (p : BitVec 64) : Bool := (List.range 4).any fun k => p.toNat.testBit (16 * k + 14)

/-- A sample period in 2^-32 ns (R127). -/
def State.period (s : State) (t : Nat) : Nat := s.fwide (TribPeriodLo.periodLo t) (TribPeriodHi.periodHi t)

/-- The format of a tributary. -/
def State.tfmt (s : State) (t : Nat) : Nat := s.fget (TribCfg.fmt t)

/-- The unit duration U in 2^-32 ns (R133). -/
def State.unitDur (s : State) (t : Nat) : Nat := s.period t * unitInstants (s.tfmt t)

/-- A count of 2^-32 ns truncated to 2^-16 ns. -/
def to16 (x : Nat) : Nat := x / 65536

/-- U with TRIB_PERIOD reduced by 200 ppm, in units of 2^-32 ns over 10,000 (R144). -/
def State.uMin10k (s : State) (t : Nat) : Nat := s.unitDur t * 9998

/-- Grain slots a tributary needs on a lane of a rate: g times T_MF over U_min rounded up (R144). T_MF is 1638.4 ns at
KLF-200. -/
def State.needSlots (s : State) (t rate : Nat) : Nat :=
  let tmf := 16384 * 2 ^ rate * 1000 * 2 ^ 32
  let u := s.uMin10k t
  unitGrains (s.tfmt t) * ((tmf + u - 1) / u)

/-- The grain rate B = 64 bit x g / U_min in bit/s, rounded up (R188). -/
def State.grainRate (s : State) (t : Nat) : Nat :=
  let num := 64 * unitGrains (s.tfmt t) * 10000 * 1000000000 * 2 ^ 32
  let u := s.uMin10k t
  (num + u - 1) / u

end Sys2Proof.Machine
end

