-- ==== Sys2Proof/Machine/RegOps.lean ====
section
/-! DEFINITION. The write of a register (R16 to R18, R451 to R455): reserved encodings, the access codes, the enables that
freeze C fields, and the aliases. -/

namespace Sys2Proof.Machine

/-- The aliases of R20. -/
inductive Alias where
  | plain | set | clear | toggle
  deriving DecidableEq, Repr

/-- A write through an alias, as the value it writes over the old one (R451). -/
def Alias.value (a : Alias) (old w : Nat) : Nat :=
  match a with
  | .plain => w
  | .set => old ||| w
  | .clear => old - (old &&& w)
  | .toggle => old ^^^ w

/-- The enable that freezes the C fields of a register of a window (R18, R452): its block, device number, name, array index
and partition. DEDUCED: log entry 146. -/
def State.frozen (s : State) (b : Block) (inst : Nat) (name : String) (i p : Nat) : Bool :=
  match b with
  | .lane => if inst < 96 then s.fbit (LaneCfg.en inst) else s.fbit CasCfg.en
  | .grp => s.fbit (GrpCfg.en inst)
  | .trib | .mrg => s.fbit (TribCfg.en inst)
  | .win => s.fbit (WinCfg.en inst)
  | .slc => s.fbit (SlcCfg.en inst)
  | .refin => s.fbit (RefselInCfg.en inst)
  | .refout => s.fbit (RefselOutCfg.en inst)
  | .cas => s.fbit CasCfg.en
  | .host => s.fbit (HostCtl.go p)
  | .ring => s.fbit (HostRingCfg.en p inst)
  | .integ => s.fbit IntegDigCfg.en
  | .perf => if name = "PERF_CNT_CFG" then s.fbit (PerfCntCfg.en p i) else s.fbit (PerfVtCfg.en p)
  | _ => false

/-- The row of R447 that a block stands in, its bit of INTEG_CFGWE (R479). -/
def Block.row : Block → Nat
  | .glb => 0 | .boot => 1 | .integ => 2 | .sem => 3 | .host => 4 | .ring => 4 | .refsel => 5 | .refin => 5 | .refout => 5
  | .time => 6 | .win => 6 | .cas => 7 | .hop => 7 | .agr => 7 | .prot => 8 | .plane => 8 | .mrg => 8 | .mem => 9 | .perf => 10
  | .pwr => 11 | .mgmt => 12 | .lane => 13 | .grp => 14 | .trib => 15 | .tcnt => 16 | .slc => 17 | .sep => 18

/-- A field of a register, by its bits. -/
def FieldDesc.of (f : FieldDesc) (w : Nat) : Nat := w / 2 ^ f.lo % f.span

/-- The frequency range of an input's loop bandwidth by its type (R283), in 0.1 mHz; input 15 has no loop. -/
def bwRange (n : Nat) : Nat × Nat :=
  if n ≤ 3 then (10, 100000) else if n ≤ 5 then (1, 1000) else if n ≤ 13 then (1000, 1000000)
  else if n = 14 then (100000, 10000000) else (0, 16777215)

/-- Encodings that R17 reserves together with another field or with the device number of the register. -/
def reservedTogether (name : String) (inst i w : Nat) : Bool :=
  match name with
  | "TRIB_CFG" => decide (5 ≤ w / 16 % 8)
  | "WIN_CFG" => decide (w / 2 % 4 = 2 ∧ (w / 2 ^ 18 % 64 = 0 ∨ 6 < w / 2 ^ 18 % 64))
  | "LANE_KLF_CFG" => decide (96 ≤ inst ∧ (w / 16 % 4 ≠ 1 ∨ w / 4 % 4 ≠ 1))
  | "REFSEL_IN_BW" => decide (w % 2 ^ 24 < (bwRange inst).1 ∨ (bwRange inst).2 < w % 2 ^ 24)
  | "REFSEL_IN_CFG" => decide (w.testBit 16 ∧ (inst ≤ 3 ∨ inst = 5))
  | _ => false

/-- The mode of an event code: true a level, none a reserved code; 0 counts nothing in either (R510). -/
def perfMode (code : Nat) : Option Bool :=
  if (1 ≤ code ∧ code ≤ 0x10) ∨ (0x33 ≤ code ∧ code ≤ 0x35) then some false
  else if (0x20 ≤ code ∧ code ≤ 0x24) ∨ (0x30 ≤ code ∧ code ≤ 0x32) then some true
  else none

/-- Encodings that the view of partition p reserves: events and tags of partition 0 in another view, and events with the wrong mode (R508,
R511, R518). -/
def reservedInView (name : String) (p w : Nat) : Bool :=
  match name with
  | "PERF_VT_CFG" => w.testBit 30 && p != 0
  | "PERF_CNT_CFG" =>
    let code := w % 256
    code != 0 && (perfMode code != some (w.testBit 30) || (p != 0 && decide (0x30 ≤ code)))
  | _ => false

/-- Every field that a write can change has a legal value (R17). DEDUCED: log entry 179. -/
def RegDesc.legal (d : RegDesc) (inst i w : Nat) : Bool :=
  (d.fields.all fun f => match f.acc with
    | .ro | .rs | .sticky => true
    | _ => decide (f.least ≤ f.of w ∧ f.of w ≤ f.greatest)) && !reservedTogether d.name inst i w

/-- The outcome of a write: the new word, and whether a C field and a B field would have changed but may not. -/
structure WriteOut where
  word : Nat
  cRefused : Bool := false
  bRefused : Bool := false
  deriving DecidableEq, Repr

/-- A write of w through an alias over the word old, the C fields frozen or not, B fields writable or not. D fields are
written by pairs only. -/
def RegDesc.write (d : RegDesc) (a : Alias) (old w : Nat) (frozen boot : Bool) : WriteOut :=
  let v := a.value old w
  d.fields.foldl (fun (o : WriteOut) f =>
    let was := f.of old
    let new := f.of v
    let put (x : Nat) : Nat := o.word + x * 2 ^ f.lo
    match f.acc with
    | .rw => { o with word := put new }
    | .cfg => if frozen then { o with word := put was, cRefused := o.cRefused || new != was } else { o with word := put new }
    | .boot => if boot then { o with word := put new } else { o with word := put was, bRefused := o.bRefused || new != was }
    | .sticky => { o with word := put (if a = .clear then was - (was &&& f.of w) else was) }
    | _ => { o with word := put was }) { word := 0 }

/-- Master m is core 0 before BOOT_DONE, or in a warm re-boot for the BOOT_MAP registers (R18, R455, R488). -/
def State.bootWrites (s : State) (m : Nat) (name : String) : Bool :=
  m = 0 && (!s.fbit GlbPhase.bootDone || (s.sys.warm && (name.startsWith "BOOT_MAP" || name == "BOOT_CTL")))

/-- A C write was refused: the block's bit of INTEG_CFGWE in the writer's view, and the first offset (R452, R479). -/
def State.cfgWhileEn (s : State) (p : Nat) (b : Block) (off : Nat) : State :=
  let first := s.fget (IntegCfgwe.flags p) = 0
  let s1 := s.stick (IntegCfgwe.flags p) (2 ^ b.row)
  if first then s1.fset (IntegCfgweAddr.offset p) off else s1

/-- The register at a key: its block, device number, description, array index and partition. -/
def findReg (key : Nat) : Option (Block × Nat × RegDesc × Nat × Nat) :=
  match locate (key % 0x1000000) with
  | none => none
  | some (b, inst, off) => (findDesc b.regs off).map fun e => (b, inst, e.1, e.2, key / 0x1000000 - 1)

/-- Master m writes a register through an alias: none where the value is a reserved encoding, otherwise the state with the
fields written that may be, refusals flagged. off is the offset in the master's view. DEDUCED: log entry 179. -/
def State.writeReg (s : State) (m key off : Nat) (a : Alias) (w : Nat) : Option State :=
  match findReg key with
  | none => none
  | some (b, inst, d, i, p) =>
    let old := (s.rget key).toNat
    if !d.legal inst i (a.value old w) || reservedInView d.name p (a.value old w) then none
    else
      let o := d.write a old w (s.frozen b inst d.name i p) (s.bootWrites m d.name)
      let s1 := s.rset key (BitVec.ofNat 32 o.word)
      let s2 := s1.onlyIf o.cRefused fun s => s.cfgWhileEn (viewPart m) b off
      some (s2.onlyIf o.bRefused fun s => s.busErr m 4 true 0 off)

/-! ## Views (R340, R448) -/

/-- Partition p owns device number inst of a block. -/
def State.owns (s : State) (p : Nat) (b : Block) (inst : Nat) : Bool :=
  match b with
  | .lane | .plane => s.laneOwner inst == p
  | .grp => s.groupOwner inst == p
  | .trib | .mrg => s.tribOwner? inst == some p
  | .win => s.winOwner? inst == some p
  | .slc => s.clusterOwner (inst / 16) == p
  | _ => true

/-- A register with this scope, of device number inst of a block, stands in the view of a host side's partition. -/
def State.inView (s : State) (p : Nat) (b : Block) (inst : Nat) (sc : Scope) : Bool :=
  match sc with
  | .p0 => p == 0
  | .owner => s.owns p b inst
  | _ => true

/-- The size of a window whose resources a partition numbers locally; 0 for others. -/
def Block.pitch : Block → Nat
  | .trib => 0x40 | .mrg => 8 | .win => 0x40 | .slc => 0x100 | _ => 0

/-- A local number as a device number in partition p. -/
def State.toDevice (s : State) (p : Nat) (b : Block) (x : Nat) : Option Nat :=
  match b with
  | .trib | .mrg => s.tribDevice p x
  | .win => s.winDevice p x
  | .slc => s.slcDevice p x
  | _ => some x

/-- A device number as the local number of its owner. -/
def State.toLocal (s : State) (b : Block) (inst : Nat) : Nat :=
  match b with
  | .trib | .mrg => s.tribLocal inst
  | .win => s.winLocal inst
  | .slc => s.slcLocal inst
  | _ => inst

/-- The offset of a register in a master's view. -/
def State.viewOff (s : State) (m key : Nat) : Nat :=
  let off := key % 0x1000000
  match locate off with
  | some (b, inst, _) => if isHost m then off - inst * b.pitch + s.toLocal b inst * b.pitch else off
  | none => off

/-- Registers of a block that the window of a device number does not have: the Ethernet registers of a cascade lane (R309),
the cluster registers of an engine that does not lead a cluster (R237), and the FIFO registers of a core without one (R422). -/
def absentReg (b : Block) (inst off : Nat) : Bool :=
  match b with
  | .lane => decide (96 ≤ inst ∧ 0x900 ≤ off ∧ off < 0xA00)
  | .slc => decide (inst % 16 ≠ 0 ∧ 0x80 ≤ off)
  | .sep => decide ((inst = 0 ∨ 25 ≤ inst) ∧ 0x40 ≤ off ∧ off < 0x48)
  | _ => false

/-- A master's view has the register with this key. -/
def State.reaches (s : State) (m key : Nat) : Bool :=
  match findReg key with
  | none => false
  | some (b, inst, d, _, p) =>
    !absentReg b inst d.off && (!isHost m || (s.inView (viewPart m) b inst d.scope && (d.scope != .part || p == viewPart m)))

/-- In mode 01 a host never writes LANE, GRP or REFSEL registers: those writes are ignored (R483). DEDUCED: log entry 180. -/
def State.ignoresWrite (s : State) (m : Nat) (b : Block) : Bool :=
  s.fget GlbStrap.mode == 1 && isHost m && (b == .lane || b == .grp || b == .refsel || b == .refin || b == .refout)

/-! ## D-class pairs (R454) -/

/-- Ticks of 6.4 ns that lie within 1 us. -/
def pairTicks : Nat := 156

/-- A failed pair is logged and counted in the master's INTEG view: the first since the log was last read, with its cause. DEDUCED: log entry 149. -/
def State.dwLog (s : State) (m cause off : Nat) : State :=
  let p := viewPart m
  let w := s.fget (IntegDwlog0.word p)
  let s1 := if w.testBit 15 then s.fset (IntegDwlog0.word p) (w ||| 2 ^ 14)
    else (s.fset (IntegDwlog0.word p) (2 ^ 15 + cause * 2 ^ 8 + m)).rset (IntegDwlog1.reg p) (BitVec.ofNat 32 (off % 2 ^ 26))
  s1.fsat (IntegDwlogCnt.count p) 1

/-- The first write of a pair that master m has made to the block of a row of R447, open or expired. DEDUCED: log entry 147. -/
def State.openPair (s : State) (m row : Nat) : Option DPair := s.pairs.find? fun x => x.master == m && x.row == row

/-- The state without that first write. -/
def State.dropPair (s : State) (m row : Nat) : State :=
  { s with pairs := s.pairs.filter fun x => !(x.master == m && x.row == row) }

/-- 1 us has passed since a first write. -/
def State.pairLate (s : State) (x : DPair) : Bool := x.expired || decide (pairTicks < s.ticks - x.openedAt)

/-- The failure of a pair whose 1 us has passed is logged, once. -/
def State.pairExpire (s : State) (m : Nat) (x : DPair) : State := if x.expired then s else s.dwLog m 1 x.addr

/-- Another write of the master to the block ends a pair under way. DEDUCED: log entry 147. -/
def State.pairBroken (s : State) (m row off : Nat) : State :=
  match s.openPair m row with
  | none => s
  | some x => if s.pairLate x then (s.dropPair m row).pairExpire m x else (s.dropPair m row).dwLog m 4 off

/-! ## Accesses by commands -/

/-- An access of master m to the register with a key, by a command that is such an access. Nothing happens while the device does not answer it
or where mode 01 ignores the write; a register outside the master's view is a reserved location and answered as a bus error; otherwise
`act` follows. A write ends a D-class pair that the master has under way in the block. -/
def State.access (s : State) (m key : Nat) (write : Bool) (act : State → State) : State :=
  if s.deaf m then s
  else if !s.reaches m key then s.busErr m 1 write 0 (s.viewOff m key)
  else
    match locate (key % 0x1000000) with
    | some (b, _, _) =>
      if !write then act s
      else
        let s1 := s.pairBroken m b.row (s.viewOff m key)
        if s1.ignoresWrite m b then s1 else act s1
    | none => s

/-- A plain write of a register by a command that is such a write: a reserved encoding is answered as a bus error and changes nothing;
otherwise `act` follows. -/
def State.writeThen (s : State) (m key : Nat) (w : Nat) (act : State → State) : State :=
  s.access m key true fun s =>
    match s.writeReg m key (s.viewOff m key) .plain w with
    | none => s.busErr m 3 true 0 (s.viewOff m key)
    | some s1 => act s1

end Sys2Proof.Machine
end

