-- ==== Sys2Proof/Machine/PairOps.lean ====
section
/-! DEFINITION. What other parts of the device do to the pair state (R257, R262, R265): the claim wire, roles and the release of the role
outputs. -/

namespace Sys2Proof.Machine

def State.outp (s : State) (o : Nat) : OutSt := SMap.getD s.tim.outs o {}
def State.setOutp (s : State) (o : Nat) (v : OutSt) : State := { s with tim := { s.tim with outs := SMap.putD s.tim.outs o {} v } }

/-- The ticks from t to now. -/
def State.since (s : State) (t : Nat) : Nat := s.ticks - t

/-! ## Pair state -/

/-- The instant t lies no more than n ticks back. DEDUCED: log entry 53. -/
def State.recent (s : State) (t : Option Nat) (n : Nat) : Bool := match t with | none => false | some t => decide (s.since t ≤ n)

/-- 1 ms, 1 s and 10 ms in ticks. -/
def ms1 : Nat := 156250
def sec1 : Nat := 156250000
def ms10 : Nat := 1562500

def State.role (s : State) : Nat := s.fget ProtPairStat.role

/-- A PAIR event: the role, and what happened (1 backoff, 2 claim_fault, 4 out_cont, 8 isolated changed). It may start a DUSK. DEDUCED: log entry 57. -/
def State.pairEvent (s : State) (what : Nat) : State := ((s.raise 0 8 0 (s.role + what * 256) 0).duskCause 2).alarm

/-- peer_valid and isolated follow the paths; a change of isolated is an event (R257). -/
def State.syncPair (s : State) : State :=
  let s1 := s.fsetB ProtPairStat.peerValid (s.recent s.pair.lastGood ms1)
  let iso := s1.role != 0 && !s1.fbit ProtPairStat.hbPinOk && !s1.fbit ProtPairStat.hbCasOk
  if iso = s1.fbit ProtPairStat.isolated then s1.alarm else (s1.fsetB ProtPairStat.isolated iso).pairEvent 8

/-- The claim wire is driven low or released. -/
def State.driveWire (s : State) (low : Bool) : State :=
  if s.fbit ProtPairStat.wireDrive = low then s
  else ({ s.fsetB ProtPairStat.wireDrive low with
            pair := { s.pair with driveAt := if low then s.ticks else s.pair.driveAt
                                  releasedAt := if low then s.pair.releasedAt else some s.ticks } }).emit (.claimWire low)

/-- The role changes, with its event. -/
def State.setRole (s : State) (role : Nat) : State :=
  if s.role = role then s else ((s.fset ProtPairStat.role role).pairEvent 0).syncPair

/-- Every output is released. -/
def State.releaseOutputs (s : State) : State :=
  s.forEach (List.range 11) fun s o => s.setOutp o { s.outp o with driven := false }

/-- Role items and wire are released at once, and the device is STANDBY; a handover it had planned is off. -/
def State.standDown (s : State) : State :=
  ({ s with pair := { s.pair with hoAt := none } }.releaseOutputs.driveWire false).setRole 1

/-- An active or yielding device whose timing is LOST gives its role where rel_on_fault is set and a good frame of the last 1 ms shows a fit
standby (R262). -/
def State.relOnFault (s : State) : State :=
  if (s.role = 4 ∨ s.role = 5) ∧ s.fbit ProtPairCfg.relOnFault ∧ s.fget RefselStat.state = 4 ∧ s.recent s.pair.lastFit ms1 then s.standDown
  else s

end Sys2Proof.Machine
end

