-- ==== Sys2Proof/Machine/RefOps.lean ====
section
/-! DEFINITION. The timing block's shared operations (R272 to R292): the levels of inputs, loss and choice of the selected
input, the timing states, the outgoing level, the DCO word, and the bytes that core g + 1 writes into the transmit overhead
(R251, R268, R292, R543). -/

namespace Sys2Proof.Machine

/-- A rational number as an integer: itself where whole, else the integer on either side of it, which of the two the spec does
not state. DESIGN CHOICE: log entry 20. -/
def State.round (s : State) (num : Int) (den : Nat) : Int × State :=
  if num % (den : Int) = 0 then (num / (den : Int), s)
  else let (up, s1) := s.freeB; (num / (den : Int) + (if up then 1 else 0), s1)

def State.inp (s : State) (n : Nat) : InSt := SMap.getD s.tim.ins n {}
def State.setInp (s : State) (n : Nat) (v : InSt) : State := { s with tim := { s.tim with ins := SMap.putD s.tim.ins n {} v } }
/-- Ticks in n tenths of a second. -/
def tenthTicks (n : Nat) : Nat := n * 15625000

/-! ## Quality levels (R276, R277) -/

/-- A received code by the table of R277: a code not in it counts as DNU. -/
def qlCode (q : Nat) : Nat := if q = 1 ∨ q = 2 ∨ q = 4 ∨ q = 8 ∨ q = 11 ∨ q = 0 then q else 15

/-- QL and time bit of a clockClass. -/
def classQl (c : Nat) : Nat × Bool :=
  if c = 6 ∨ c = 7 then (1, true) else if c = 13 ∨ c = 14 then (2, false)
  else if c = 52 ∨ c = 58 ∨ c = 187 ∨ c = 193 then (8, false) else if c = 248 then (11, false) else (15, false)

/-- The position of a code in the order of R277, best first. -/
def qlRank (q : Nat) : Nat :=
  match q with
  | 1 => 0 | 2 => 1 | 4 => 2 | 8 => 3 | 11 => 4 | 0 => 5 | _ => 6

/-- Input n qualifies by mode B; input 15 always (R272). -/
def State.modeB (s : State) (n : Nat) : Bool := n = 15 || s.fbit (RefselInCfg.qual n)

/-- The QL of an input (R276, R279). -/
def State.inQl (s : State) (n : Nat) : Nat :=
  if n = 15 then (classQl (s.fget RefselHost.clockClass)).1
  else if s.modeB n then s.fget (RefselInStat.qlRx n) else s.fget (RefselInCfg.qlFixed n)

/-- A level that mode B accepts. -/
def State.qlOk (s : State) (n : Nat) : Bool :=
  decide (qlRank (s.inQl n) ≤ 4) && !s.fbit (RefselInStat.qlFail n)

/-- The time-bearing inputs (R272). -/
def timeBearing (n : Nat) : Bool := n = 4 || n = 5 || n = 14 || n = 15

/-! ## The outgoing level (R292) -/

/-- REFSEL_STAT shows ql_out with its time and holdover bits. -/
def State.syncQl (s : State) : State :=
  let put (s : State) (q : Nat) (ho t : Bool) : State :=
    ((s.fset RefselStat.qlOut q).fsetB RefselStat.qlHo ho).fsetB RefselStat.timeTrace t
  let own := s.fget RefselCfg.qlOwn
  match s.fget RefselStat.state with
  | 2 =>
    let n := s.fget RefselStat.sel
    let t := if n = 15 then (classQl (s.fget RefselHost.clockClass)).2
      else timeBearing n && s.fbit (RefselInCfg.timeAlign n) && !s.fbit RefselStat.slewing
    put { s with tim := { s.tim with lastQl := s.inQl n, lastTime := t } } (s.inQl n) false t
  | 3 =>
    if s.since s.tim.hoFrom < tenthTicks (10 * s.fget RefselHoCfg.qlHold) then put s s.tim.lastQl true s.tim.lastTime
    else put s own true false
  | _ => put s own false false

/-! ## The DCO word (R289) -/

/-- A new DCO word is set to take effect at the next whole microsecond of device time. DEDUCED: log entry 43. -/
def State.stageDco (s : State) (d : Int) : State := { s with tim := { s.tim with dNext := some (d, (s.now / tUs + 1) * tUs) } }

/-- The limit of |d| under the DPLL and in holdover (R291). -/
def State.dcoLimit (s : State) : Int := (100 - s.fget RefselOsc.tolPpm : Nat) * 1000000000

/-- d within the limit. -/
def State.clampDco (s : State) (d : Int) : Int := max (-s.dcoLimit) (min s.dcoLimit d)

/-! ## Timing states (R285) -/

/-- The timing state becomes `new`: on leaving LOCKED the guard seconds leave the history (R286), on leaving LOST a history that
became invalid is gathered anew; entry to HOLDOVER and LOST is recorded, with the phase error at that moment, which stands within
the limit of R284 where lock held; each change raises a TIMING event. DESIGN CHOICE: log entry 41. -/
def State.setTiming (s0 : State) (new : Nat) : State :=
  let old := s0.fget RefselStat.state
  let (e, sf) := s0.free 32
  let lim := 1024 * s0.fget RefselLock.thrNs
  let s := if new = 3 then sf.fset RefselPherr.pherr (ofSigned 32 (if old = 2 then toSigned 32 e % (2 * lim + 1) - lim else toSigned 32 e))
    else s0
  let t := s.tim
  let h1 := if old = 2 ∧ new ≠ 2 then t.hist.drop (s.fget RefselHist.guardS) else t.hist
  let h2 := if old = 4 ∧ new ≠ 4 then [] else h1
  let pherr := (toSigned 32 (s.fget RefselPherr.pherr)).natAbs
  let t1 : TimSt := { t with hist := h2, since := s.ticks, lockedEver := t.lockedEver || new = 2
                             predict := if new = 3 then true else if new = 4 then t.predict && old = 3 else false
                             hoFrom := if new = 3 then s.ticks else t.hoFrom, hoLast := if new = 3 then s.ticks else t.hoLast
                             e0 := if new = 3 then pherr else t.e0
                             sampleAt := if new = 2 then s.ticks else t.sampleAt
                             acc := if new = 2 then 0 else t.acc, accAt := if new = 2 then s.ticks else t.accAt }
  let s1 := ({ s with tim := t1 }).fset RefselStat.state new
  let s2 := s1.onlyIf (new = 3) fun s => s.stick RefselStky.stky 4
  let s3 := s2.onlyIf (new = 4) fun s => (s.stick RefselStky.stky 8).fsetB RefselStat.histValid false
  let s4 := s3.syncQl
  (if new = old then s4 else s4.raise 0 7 (s4.fget RefselStat.sel) (new + old * 16) 0).alarm.relOnFault

/-- IN_STAT.candidate of an input (R279). -/
def State.syncCand (s : State) (n : Nat) : State :=
  s.fsetB (RefselInStat.candidate n) (s.fbit (RefselInCfg.en n) && s.fget (RefselInCfg.prio n) != 0 && s.fbit (RefselInStat.qualified n))

/-- Nothing is selected any more (R280, R285). -/
def State.deselect (s : State) : State :=
  let n := s.fget RefselStat.sel
  let s1 := ((s.fsetB (RefselInStat.selected n) false).fsetB RefselStat.selValid false).fsetB RefselStat.slewing false
  let st := s1.fget RefselStat.state
  if st ≠ 1 ∧ st ≠ 2 then s1
  else if s1.fbit RefselStat.histValid then s1.setTiming 3
  else if s1.tim.lockedEver then s1.setTiming 4
  else (s1.setTiming 0).stageDco 0

/-- The phase of input n against device time, which nothing inside the device determines, becomes the build-out, so that the phase error
starts at 0; that of a PPS input is taken modulo 1 s, towards the nearest second. A slew that removes it begins where the input is
time-bearing and asks for it (R281, R282); input 15 has no loop (R283). DESIGN CHOICE: log entry 219. -/
def State.buildOut (s : State) (n : Nat) : State :=
  let (e, s1) := s.free 64
  let b : Int := if n = 15 then 0 else if n = 4 ∨ n = 5 then (toSigned 64 e + tSec / 2) % tSec - tSec / 2 else toSigned 64 e
  let s2 := { s1 with tim := { s1.tim with buildOut := b, slewFrom := s1.ticks } }
  (s2.fset RefselPherr.pherr 0).fsetB RefselStat.slewing (timeBearing n && b != 0 && s2.fbit (RefselInCfg.timeAlign n))

/-- Input n is selected: its phase becomes the build-out, and the DPLL acquires it (R280, R281, R285). Input 15 counts as locked while the
host says so (R290). -/
def State.select (s : State) (n : Nat) : State :=
  let old := s.fget RefselStat.sel
  let s1 := ((s.fsetB (RefselInStat.selected old) false).fset RefselStat.sel n).fsetB RefselStat.selValid true
  let s2 := (s1.fsetB (RefselInStat.selected n) true).stick RefselStky.stky 2
  let s3 := s2.onlyIf (s2.fbit RefselStat.nextValid && s2.fget RefselStat.next == n) fun s => s.fsetB RefselStat.nextValid false
  let s4 := (s3.buildOut n).setTiming 1
  if n = 15 && s4.fbit RefselHost.locked then s4.setTiming 2 else s4

/-- The selected input is lost: the prepared next input takes over where it is qualified and was refreshed within 200 ms; a forced
input has no successor (R280). -/
def State.lossOfSelected (s : State) : State :=
  let n := s.fget RefselStat.next
  let usable := s.fbit RefselStat.nextValid && s.fbit (RefselInStat.qualified n)
  if s.fbit RefselCfg.forceEn || s.fbit RefselCfg.forceFr then s.deselect
  else if usable && decide (s.since s.tim.nextAt ≤ tenthTicks 2) then s.select n
  else (s.onlyIf usable fun s => s.stick RefselStky.stky 1).deselect

/-- Input n is disqualified, its soak ends, and the selection follows where it was selected. -/
def State.disqualify (s : State) (n : Nat) : State :=
  let x := s.inp n
  let s1 := ((s.setInp n { x with soakFrom := none, beyond := 0 }).fsetB (RefselInStat.qualified n) false).fsetB
    (RefselInStat.soaking n) false
  let s2 := s1.syncCand n
  if s2.fbit RefselStat.selValid && s2.fget RefselStat.sel == n then s2.lossOfSelected else s2

/-- A qualification soak starts, where none runs and the input is not qualified. -/
def State.startSoak (s : State) (n : Nat) : State :=
  let x := s.inp n
  if s.fbit (RefselInStat.qualified n) || x.soakFrom.isSome then s
  else (s.setInp n { x with soakFrom := some s.ticks }).fsetB (RefselInStat.soaking n) true

/-- A running soak is given up. -/
def State.stopSoak (s : State) (n : Nat) : State :=
  (s.setInp n { s.inp n with soakFrom := none }).fsetB (RefselInStat.soaking n) false

/-- Mode B follows the level and the activity of an input (R276). -/
def State.judgeB (s : State) (n : Nat) : State :=
  if !s.modeB n then s
  else if s.fbit (RefselInCfg.en n) && s.qlOk n && !s.fbit (RefselInStat.actFault n) then s.startSoak n
  else if s.fbit (RefselInStat.qualified n) then s.disqualify n else s.stopSoak n

/-- An activity fault begins: the input is disqualified at once (R274). -/
def State.activityFault (s : State) (n : Nat) : State := (s.fsetB (RefselInStat.actFault n) true).disqualify n

/-- An activity fault ends: the input qualifies again through its soak; in mode A the soak starts at a measurement. -/
def State.activityOk (s : State) (n : Nat) : State := (s.fsetB (RefselInStat.actFault n) false).judgeB n

/-- The line monitors of group g. -/
def State.monitorsOf (s : State) (g : Nat) : List Nat :=
  ((List.range 8).map (6 + ·)).filter fun n => s.fget (RefselInCfg.group n) == g

/-- The recovered clock of group g is usable (R274): the group is enabled, its CDR locked and its clock not held. -/
def State.clockOk (s : State) (g : Nat) : Bool := s.fbit (GrpCfg.en g) && s.fbit (GrpStat.clkLocked g) && !s.fbit (GrpStat.clkHold g)

/-- Line input n follows the recovered clock of its group (R274). -/
def State.followClock (s : State) (n : Nat) : State :=
  if s.clockOk (s.fget (RefselInCfg.group n)) then s.activityOk n
  else if s.fbit (RefselInStat.actFault n) then s else s.activityFault n

/-- The line monitors of group g follow its recovered clock. -/
def State.lineClock (s : State) (g : Nat) : State := s.forEach (s.monitorsOf g) fun s n => s.followClock n

/-- A level received by an input. -/
def State.receiveQl (s : State) (n q : Nat) : State :=
  (((s.fset (RefselInStat.qlRx n) (qlCode q)).fsetB (RefselInStat.qlFail n) false).judgeB n).syncQl

/-- An input's level fails. -/
def State.failQl (s : State) (n : Nat) : State := (s.fsetB (RefselInStat.qlFail n) true).judgeB n

/-- The filtered QL byte of lane n reaches the line monitors of its group while it is the clock lane, or input 14 where it is a lane
of the upstream cascade port (R276, R323). -/
def State.lineQl (s : State) (n : Nat) (valid : Bool) : State :=
  if !valid then s
  else
    let q := (s.lane n).rx.ql.value
    if n < 96 then
      if s.fget (GrpStat.clkLaneAct (n / 4)) = n % 4 then s.forEach (s.monitorsOf (n / 4)) fun s i => s.receiveQl i q else s
    else if s.fbit CasStat.upValid && s.fget CasStat.upPort == (n - 96) / 2 then s.receiveQl 14 q else s

/-! ## What core g + 1 writes into the transmit overhead (R543) -/

/-- The core that owns the overhead of lane n (R309). -/
def laneCore (n : Nat) : Nat := if n < 96 then n / 4 + 1 else 25 + (n - 96) / 2

/-- The QL byte for lane n (R277, R292). -/
def State.qlByte (s : State) (n : Nat) : Nat :=
  let sel := s.fget RefselStat.sel
  let back := s.fbit RefselCfg.dnuBack && s.fbit RefselStat.selValid && decide (6 ≤ sel ∧ sel ≤ 13) && decide (n < 96)
    && s.fget (RefselInCfg.group sel) == n / 4
  if back then 15
  else s.fget RefselStat.qlOut + (if s.fbit RefselStat.timeTrace then 16 else 0) + (if s.fbit RefselStat.qlHo then 32 else 0)

/-- The PROT_STATE byte (R268). -/
def State.protByte (s : State) : Nat :=
  let role := match s.fget ProtPairStat.role with | 0 => 0 | 1 => 1 | 4 => 2 | _ => 3
  role + (if s.fbit ProtPairStat.side then 4 else 0)
    + (if s.fbit ProtPairStat.isolated && s.fget ProtPairStat.role != 0 then 8 else 0)

/-- Byte k of lane n's transmit page set. -/
def State.setPageByte (s : State) (n k v : Nat) : State :=
  s.fset ⟨LaneKlfTxoh.reg n (k / 4), 8 * (k % 4) + 7, 8 * (k % 4)⟩ v

/-- A running core writes its page fields: PROT_REQ, PROT_STATE and QL; BDI is written at its samples. DEDUCED: log entry 38. -/
def State.coreWritesPage (s : State) (n : Nat) : State :=
  let st := s.fget (SepStat.state (laneCore n))
  if 1 ≤ st ∧ st ≤ 3 then
    (((s.onlyIf (n < 96) fun s => s.setPageByte n 30 (s.fget (ProtLane.txReq n)))).setPageByte n 31 s.protByte).setPageByte n 32 (s.qlByte n)
  else s

end Sys2Proof.Machine
end

