-- ==== Sys2Proof/Machine/CasOps.lean ====
section
/-! DEFINITION. The cascade's shared operations: control cells and their queues (R313 to R317), the state of ports and the upstream
port (R319, R323), enumeration (R318), and the activation of an epoch (R326). -/

namespace Sys2Proof.Machine

def State.casPort (s : State) (p : Nat) : CasPortSt := SMap.getD s.cas.ports p {}
def State.setCasPort (s : State) (p : Nat) (v : CasPortSt) : State := { s with cas := { s.cas with ports := SMap.putD s.cas.ports p {} v } }

/-- The role by STRAP_ROLE: 0 stand-alone (11 too), 1 manager, 2 worker (R306). -/
def State.casRole (s : State) : Nat := if s.fget CasStat.role = 3 then 0 else s.fget CasStat.role

/-- Bit p of a two-bit field of CAS_STAT. -/
def State.casBit (s : State) (f : FRef) (p : Nat) : Bool := (s.fget f).testBit p
def State.setCasBit (s : State) (f : FRef) (p : Nat) (b : Bool) : State :=
  if s.casBit f p = b then s else s.fset f (s.fget f ^^^ 2 ^ p)

/-! ## Cells (R313) -/

/-- The check of a cell over bits 59 to 8. -/
def cellChk (v : Nat) : Nat :=
  (List.range 52).foldl (fun c i =>
    let fb := (c / 8 % 2 == 1) != v.testBit (59 - i)
    let c := c * 2 % 16
    if fb then c ^^^ 3 else c) 0

/-- A cell of a message. -/
def mkCell (kind : Nat) (bcast : Bool) (dst src frag : Nat) (last : Bool) (word : Nat) : BitVec 64 :=
  let v := 0x33 + kind % 16 * 2 ^ 8 + (if bcast then 2 ^ 12 else 0) + dst % 64 * 2 ^ 13 + src % 64 * 2 ^ 19 + frag % 4 * 2 ^ 25
    + (if last then 2 ^ 27 else 0) + word % 2 ^ 32 * 2 ^ 28
  BitVec.ofNat 64 (v + cellChk v * 2 ^ 60)

/-- The cells of a message of a kind (R314); 0 for a reserved kind. -/
def kindCells : Nat → Nat
  | 1 => 1 | 2 => 3 | 3 => 3 | 4 => 4 | 5 => 4 | 6 => 2 | 7 => 3 | 8 => 1 | 9 => 4 | _ => 0

/-- The cells that carry a message's words. -/
def msgCells (kind : Nat) (bcast : Bool) (dst src : Nat) (words : List Nat) : List (BitVec 64) :=
  words.zipIdx.map fun e => mkCell kind bcast dst src e.2 (e.2 + 1 == words.length) e.1

/-- The place of a kind in the sending order of R317. -/
def kindOrder : Nat → Nat
  | 3 => 0 | 7 => 1 | 6 => 2 | 2 => 3 | 8 => 4 | 5 => 5 | 4 => 6 | 1 => 7 | _ => 8

/-- Cells queued on a port. -/
def CasPortSt.queued (x : CasPortSt) : Nat := ((x.queue.map fun e => e.2.length).sum) + x.cur0.length + x.cur1.length

/-- A message is queued on a port: discarded while the port is down, and discarded and counted where it would overflow. -/
def State.casQueue (s : State) (p kind : Nat) (cells : List (BitVec 64)) : State :=
  let x := s.casPort p
  if !s.casBit CasStat.portUp p then s
  else if 1024 < x.queued + cells.length then s.bump .cas p 6 1
  else s.setCasPort p { x with queue := x.queue ++ [(kind, cells)] }

/-- A message of this device leaves by a port. -/
def State.casSend (s : State) (p kind : Nat) (bcast : Bool) (dst : Nat) (words : List Nat) : State :=
  s.casQueue p kind (msgCells kind bcast dst (s.fget CasStat.node) words)

/-- A message of this device leaves by both ports. -/
def State.casSendBoth (s : State) (kind : Nat) (bcast : Bool) (dst : Nat) (words : List Nat) : State :=
  (s.casSend 0 kind bcast dst words).casSend 1 kind bcast dst words

/-- The first queued message of the best kind, and the others. -/
def takeBest (q : List (Nat × List (BitVec 64))) : Option (List (BitVec 64) × List (Nat × List (BitVec 64))) :=
  match (List.range 9).findSome? fun o => q.findIdx? fun e => kindOrder e.1 == o with
  | none => none
  | some i => (q[i]?).map fun e => (e.2, q.eraseIdx i)

/-- The next cell for a reserved slot of cascade lane c: the rest of the message its lane sends, else the best that waits. -/
def State.nextCell (s : State) (c : Nat) : Option (BitVec 64) × State :=
  let p := c / 2
  let x := s.casPort p
  let cur := if c % 2 = 0 then x.cur0 else x.cur1
  let put (x : CasPortSt) (l : List (BitVec 64)) : CasPortSt := if c % 2 = 0 then { x with cur0 := l } else { x with cur1 := l }
  match cur with
  | b :: bs => (some b, (s.setCasPort p (put x bs)).bump .cas p 0 1)
  | [] =>
    match takeBest x.queue with
    | some (b :: bs, q) => (some b, (s.setCasPort p (put { x with queue := q } bs)).bump .cas p 0 1)
    | _ => (none, s)

/-! ## Ports and the upstream port (R319, R323) -/

/-- The upstream port becomes p or none: input 14 is rebuilt where it is selected, or loses its activity where no port is left. -/
def State.setUpstream (s : State) (u : Option Nat) : State :=
  match u with
  | none =>
    if s.fbit CasStat.upValid then
      let s1 := s.fsetB CasStat.upValid false
      if s1.fbit (RefselInStat.actFault 14) then s1 else s1.activityFault 14
    else s
  | some p =>
    if s.fbit CasStat.upValid && s.fget CasStat.upPort == p then s
    else
      let s1 := ((s.fsetB CasStat.upValid true).fset CasStat.upPort p).bump .cas p 9 1
      let s2 := { s1 with cas := { s1.cas with fewerSince := none } }
      if s2.fbit RefselStat.selValid && s2.fget RefselStat.sel == 14 then s2.select 14 else s2

/-- The upstream port of a worker: the present one while it is reachable, else the reachable one with fewer hops, port 0 on a tie. It is
noted since when the other has had fewer hops. -/
def State.syncUpstream (s : State) : State :=
  if s.casRole ≠ 2 then s
  else
    let reach (p : Nat) : Bool := s.casBit CasStat.reach p
    let hops (p : Nat) : Nat := s.fget (CasHopStat.hops p)
    let u := s.fget CasStat.upPort
    if s.fbit CasStat.upValid && reach u then
      let fewer := reach (1 - u) && decide (hops (1 - u) < hops u)
      { s with cas := { s.cas with fewerSince := if fewer then some (s.cas.fewerSince.getD s.ticks) else none } }
    else
      s.setUpstream (if reach 0 && reach 1 then some (if hops 1 < hops 0 then 1 else 0)
        else if reach 0 then some 0 else if reach 1 then some 1 else none)

/-- Port p is reachable, or not. -/
def State.setReach (s : State) (p : Nat) (b : Bool) : State :=
  ((s.setCasBit CasStat.reach p b).fsetB (CasHopStat.reach p) b).syncUpstream

/-- A port is down while each of its receive lanes has LOS, LOL, LOB, LOC or LOM; a change sends RING (R319). -/
def State.syncPort (s : State) (p : Nat) : State :=
  let bad (n : Nat) : Bool := s.fget (LaneDef.defs n) % 32 != 0
  let up := s.fbit CasCfg.en && !(bad (96 + 2 * p) && bad (97 + 2 * p))
  if up = s.casBit CasStat.portUp p then s
  else
    let s1 := s.setCasBit CasStat.portUp p up
    let s2 := if s1.casRole = 0 then s1 else s1.casSendBoth 8 true 0 [(if up then 0 else 1) + 2 * p]
    if up then s2 else s2.setReach p false

/-- The forward difference of a multiframe received on cascade lane c (R320); the last 64 of a port are kept. -/
def State.casForward (s : State) (c seq arrived time : Nat) : State :=
  let p := c / 2
  let x := s.casPort p
  s.setCasPort p { x with fwd := (⟨c % 2, seq % 65536, (arrived : Int) - time, arrived⟩ :: x.fwd).take 64
                          sinceStamp := x.sinceStamp + (if c % 2 = 0 then 1 else 0) }

/-! ## Enumeration and intactness (R318, R319) -/

/-- An enumeration starts. -/
def State.startEnum (s : State) : State :=
  let gen := (s.fget CasStat.gen + 1) % 16
  let s1 := { s with cas := { s.cas with enumAt := some s.ticks, enumWhenIntact := false } }
  s1.casSend 1 1 false 0 [1 + gen * 2 ^ 7 + s.fget CasCfg.devId * 2 ^ 16]

/-- The manager's intact bit; where the ring becomes intact, an enumeration may start (R318). DEDUCED: log entry 61. -/
def State.setIntact (s : State) (b : Bool) : State :=
  if s.fbit CasStat.intact = b then s
  else
    let s1 := s.fsetB CasStat.intact b
    if b && s1.fbit CasStat.leading && (s1.fbit CasCfg.autoEnum || s1.cas.enumWhenIntact) then s1.startEnum else s1

/-! ## Epochs (R326, R472) -/

/-- A digest reference is committed: the lap in progress is abandoned and mismatches are counted anew. -/
def State.commitDigest (s : State) (ref : Nat) : State :=
  let s1 := (s.fset IntegDigRef.ref ref).fsetB IntegDigStat.committed true
  { s1 with mem := { s1.mem with digLapAt := s1.ticks, digMism := 0 } }

/-- The epoch becomes e: the staged reference is committed, commands that wait for e are released in ring order, and the staging is
cleared. -/
def State.activateEpoch (s : State) (e : Nat) : State :=
  let s1 := (s.fset CasEpoch.epoch e).bump .cas 0 11 1
  let s2 := s1.onlyIf (s1.fbit CasStageCtl.refValid) fun s => s.commitDigest (s.fget CasStageRef.ref)
  let s3 := s2.forEach (s2.rings.map Prod.fst) fun s k =>
    let g := SMap.getD s.rings k {}
    match g.descs with
    | (_, d) :: _ => if g.headBusy && leAt d 0 1 == 5 && leAt d 4 4 == e then s.complete (k / 64) (k % 64) 0 0 [] [] else s
    | [] => s
  ((s3.fsetB CasStageCtl.ready false).fsetB CasStageCtl.refValid false).fsetB CasStageCtl.pending false |>.fsetB CasStageCtl.armed false

/-- The device is ready for e (R325). -/
def State.readyFor (s : State) (e : Nat) : Bool :=
  s.fget CasStage.epoch == e && e == (s.fget CasEpoch.epoch + 1) % 2 ^ 32 && s.fbit CasStageCtl.ready

end Sys2Proof.Machine
end

