-- ==== Sys2Proof/Machine/Tables.lean ====
section
/-! DEFINITION. Class T memory: the table aperture of BAR1 (R449), its bytes with their poison and stored errors (R423 to
R428, R442, R542), and the calendar entries (R151). A byte that is not listed is unwritten, which is poisoned. -/

namespace Sys2Proof.Machine

/-- The canonical form of class T memory: addresses strictly rising. An address that is not listed holds no value, so no entry can be
equal to what it reads as. DESIGN CHOICE: log entry 181. -/
def Memory.wf (m : List Host.Cell) : Bool := SMap.rising m

/-- What a BAR1 offset belongs to (R449, R152, R309, R385, R228, R163). -/
inductive TblRegion where
  | cal (lane dir bank byte : Nat)
  | sepInstr (c byte : Nat)
  | sepData (c byte : Nat)
  | coef (off : Nat)
  | tmpl (t byte : Nat)
  deriving DecidableEq, Repr

/-- The region of a BAR1 offset; none where the offset is reserved. -/
def tblRegion (a : Nat) : Option TblRegion :=
  let cal (base lane0 : Nat) : TblRegion :=
    let i := (a - base) / 0x5000
    .cal (lane0 + i / 4) (i / 2 % 2) (i % 2) ((a - base) % 0x5000)
  if a < 0x3C0000 then some (cal 0 0)
  else if a < 0x400000 then none
  else if a < 0x580000 then
    let c := (a - 0x400000) / 0xC000
    let o := (a - 0x400000) % 0xC000
    some (if o < 0x4000 then .sepInstr c o else .sepData c (o - 0x4000))
  else if a < 0x600000 then none
  else if a < 0x620000 then some (.coef (a - 0x600000))
  else if a < 0x700000 then none
  else if a < 0x780000 then some (.tmpl ((a - 0x700000) / 0x80) ((a - 0x700000) % 0x80))
  else if a < 0x800000 then none
  else if a < 0xBC0000 then some (cal 0x800000 48)
  else if a < 0xC00000 then none
  else if a < 0xC50000 then some (cal 0xC00000 96)
  else none

/-- The base of bank b of lane n, direction d (0 receive, 1 transmit) (R152, R309). -/
def calBase (n d b : Nat) : Nat :=
  (if n < 48 then n * 4 else if n < 96 then (n - 48) * 4 else (n - 96) * 4) * 0x5000
    + (d * 2 + b) * 0x5000 + (if n < 48 then 0 else if n < 96 then 0x800000 else 0xC00000)

/-- The base of core c's instruction memory; its data memory is 0x4000 above (R385). -/
def sepBase (c : Nat) : Nat := 0x400000 + c * 0xC000

/-- The stored byte at an offset, if one is stored. DESIGN CHOICE: log entry 181. -/
def State.tstored (s : State) (a : Nat) : Option Byte := SMap.find s.tbl a

/-- A byte stored, with a valid code. -/
def State.tstore (s : State) (a : Nat) (b : Byte) : State :=
  { s with tbl := SMap.ins s.tbl a b, tflip := SMap.del s.tflip a }

/-- A byte poisoned: it holds the poison pattern. -/
def State.tpoison (s : State) (a : Nat) : State :=
  { s with tbl := SMap.del s.tbl a, tflip := SMap.del s.tflip a }

/-- The number of bits set in the low 13 bits of a mask. -/
def popcount (m : Nat) : Nat := ((List.range 13).filter fun i => m.testBit i).length

/-- One byte read: the byte if good (corrected where one stored bit is in error), none where poisoned, whether this read
found it uncorrectable, and the state after correction or poisoning. Three or more stored errors have one of the
outcomes of R542, drawn freely. DEDUCED: log entry 182. -/
def State.tread (s : State) (a : Nat) : Option Byte × Bool × State :=
  match s.tstored a with
  | none => (none, false, s)
  | some b =>
    let m := SMap.getD s.tflip a 0
    let n := popcount m
    if n = 0 then (some b, false, s)
    else if n = 1 then (some b, false, (s.tstore a b).bump .mem 0 0 1)
    else if n = 2 then (none, true, s.tpoison a)
    else
      let (unc, s1) := s.freeB
      let (corr, s2) := s1.freeB
      if unc then (none, true, s2.tpoison a)
      else
        let (v, s3) := s2.free 8
        if corr then (some (BitVec.ofNat 8 v), false, (s3.tstore a (BitVec.ofNat 8 v)).bump .mem 0 0 1)
        else (some (BitVec.ofNat 8 v), false, s3)

/-- A consumer's read of n bytes (R425, R426, R435): the value, lowest byte first, or none where any byte is poisoned;
findings and consumption are counted for partition p with the consumer's unit and kind. DEDUCED: log entry 182. -/
def State.treadN (s : State) (p a n unit kind : Nat) : Option Nat × State :=
  let r := (List.range n).foldl (fun (acc : Option Nat × Bool × State) i =>
      let (b, found, s1) := acc.2.2.tread (a + i)
      let s2 := if found then s1.foundUncorrectable p 0 0 0 (BitVec.ofNat 32 (a + i)) unit kind else s1
      match acc.1, b with
      | some v, some x => (some (v + x.toNat * 256 ^ i), acc.2.1, s2)
      | _, none => (none, true, s2)
      | none, some _ => (none, acc.2.1, s2)) (some 0, false, s)
  (r.1, if r.2.1 then r.2.2.poisonConsumed p 0 (BitVec.ofNat 32 a) unit kind else r.2.2)

/-- n bytes as a peek sees them: no correction, no count; none where any is poisoned. -/
def State.tpeekN (s : State) (a n : Nat) : Option Nat :=
  (List.range n).foldl (fun (acc : Option Nat) i =>
    match acc, s.tstored (a + i) with
    | some v, some x => if popcount (SMap.getD s.tflip (a + i) 0) < 2 then some (v + x.toNat * 256 ^ i) else none
    | _, _ => none) (some 0)

/-- One byte written by the host, JTAG or a core: an armed class T flip mask at that address corrupts its stored code
and disarms (R442). -/
def State.twrite (s : State) (a : Nat) (b : Byte) : State :=
  let s1 := s.tstore a b
  if s1.fbit MemFlipT.arm && s1.fget MemFlipTAddr.addr == a then
    let m := s1.fget MemFlipT.mask
    (({ s1 with tflip := SMap.putD s1.tflip a 0 m }).fsetB MemFlipT.arm false).bump .mem 0 17 1
  else s1

/-- Bytes written from an offset on. -/
def State.twriteN (s : State) (a : Nat) (bs : List Byte) : State :=
  bs.zipIdx.foldl (fun s e => s.twrite (a + e.2) e.1) s

/-- A range of bytes set to the poison pattern, as a power-up fill (R427). DEDUCED: log entry 109. -/
def State.tfill (s : State) (lo n : Nat) : State :=
  { s with tbl := s.tbl.filter fun c => !(decide (lo ≤ c.1 ∧ c.1 < lo + n))
           tflip := s.tflip.filter fun c => !(decide (lo ≤ c.1 ∧ c.1 < lo + n)) }

/-- Every class T memory set to the poison pattern. -/
def State.tfillAll (s : State) : State := { s with tbl := [], tflip := [] }

/-! ## Calendar entries (R151) -/

/-- A calendar entry: mon, valid, tributary as written, and whether reserved bits are set. -/
structure CalEntry where
  mon : Bool
  valid : Bool
  trib : Nat
  reserved : Bool
  deriving DecidableEq, Repr

/-- The entry a word spells. -/
def calEntry (w : Nat) : CalEntry := ⟨w.testBit 13, w.testBit 12, w % 4096, w / 2 ^ 14 != 0⟩

/-- The entry of a slot as stored; none where poisoned. -/
def State.calAt (s : State) (n d b slot : Nat) : Option CalEntry :=
  (s.tpeekN (calBase n d b + 4 * slot) 4).map calEntry

/-- The device tributary of an entry of a lane's bank: local to the lane's owner, or a device number on a cascade lane
(R128, R309). -/
def State.calTrib (s : State) (n : Nat) (e : CalEntry) : Option Nat :=
  if n < 96 then s.tribDevice (s.laneOwner n) e.trib else some e.trib

/-- The device tributary that a slot of a bank names, if its entry is valid. -/
def State.slotTrib (s : State) (n d b slot : Nat) : Option Nat :=
  match s.calAt n d b slot with
  | some e => if e.valid then s.calTrib n e else none
  | none => none

/-- The slots a bank gives a tributary, ascending. -/
def State.slotsOf (s : State) (n d b t : Nat) : List Nat :=
  (List.range 5120).filter fun x => s.slotTrib n d b x == some t

/-- A slot that may hold a head block (R61, R135). -/
def headSlot? (slots : List Nat) : Option Nat := slots.find? fun x => decide (1 ≤ x % 80 ∧ x % 80 ≤ 78)

/-- The tributaries a bank names, ascending. -/
def State.bankTribs (s : State) (n d b : Nat) : List Nat :=
  let names := (List.range 5120).filterMap fun x => s.slotTrib n d b x
  (List.range 4096).filter fun t => names.contains t

/-- The kinds of slot of R135. -/
inductive SlotKind where
  | lead | head | grain (i : Nat) | trail
  deriving DecidableEq, Repr

/-- The grain slots of a tributary's slots: after the head slot and before the trail slot. -/
def grainSlots (slots : List Nat) : List Nat :=
  match headSlot? slots, slots.getLast? with
  | some h, some t => slots.filter fun x => decide (h < x ∧ x < t)
  | _, _ => []

/-- The kind of a slot among its tributary's slots. -/
def slotKind (slots : List Nat) (x : Nat) : SlotKind :=
  match headSlot? slots, slots.getLast? with
  | some h, some t =>
    if x < h then .lead else if x = h then .head else if x = t then .trail
    else .grain ((grainSlots slots).findIdx (· == x))
  | _, _ => .lead

/-- Bank b, direction d, of lane n is committed. -/
def State.calCommitted (s : State) (n d b : Nat) : Bool := (s.fget (LaneCalStat.committed n)).testBit (2 * d + b)

/-- The active bank of lane n and direction d. -/
def State.calActive (s : State) (n d : Nat) : Nat :=
  if d = 0 then s.fget (LaneCalStat.rxActive n) else s.fget (LaneCalStat.txActive n)

/-- Bank b, direction d, of lane n is active or will be activated by a held swap (R153). -/
def State.calBusy (s : State) (n d b : Nat) : Bool :=
  s.calActive n d == b || (if d = 0 then (s.lane n).rx.swapHeld.isSome else (s.lane n).tx.held.isSome)

end Sys2Proof.Machine
end

