-- ==== Sys2Proof/Machine/Lane.lean ====
section
/-! DEFINITION. Lane acquisition, FEC statistics and defects (R82 to R116) and the receive side of the line format (R44 to
R81), with the receive calendar bank (R159 to R161) and the overhead FIFO's writer (R407 to R411). -/

namespace Sys2Proof.Machine

abbrev Out := Host.Outcome State Fault Refusal

/-! ## Defects -/

/-- Bits of LANE_DEF (R114). -/
def dLos : Nat := 0
def dLol : Nat := 1
def dLob : Nat := 2
def dLoc : Nat := 3
def dLom : Nat := 4
def dSf : Nat := 5
def dSd : Nat := 6
def dRdi : Nat := 7

/-- Raw defect bit b of lane n. -/
def State.rawDef (s : State) (n b : Nat) : Bool := (s.fget (LaneDef.defs n)).testBit b

/-- A word with bit b set or cleared. -/
def putBit (w b : Nat) (v : Bool) : Nat := if w.testBit b == v then w else w ^^^ 2 ^ b

/-- Raw defect bit b becomes v; declared: a change to present also sets the sticky bit. A defect that is present is
recorded in LANE_DEF_IVL (R114). A cascade lane's defects decide its port (R319). DEDUCED: log entry 30. -/
def State.setDef (s : State) (n b : Nat) (v declared : Bool) : State :=
  let was := s.rawDef n b
  let s1 := s.fset (LaneDef.defs n) (putBit (s.fget (LaneDef.defs n)) b v)
  let s3 := if v && b < 8 then
      let s2 := s1.stick (LaneDefIvl.ivl n) (2 ^ b)
      if declared && !was then s2.stick (LaneDefStky.stky n) (2 ^ b) else s2
    else s1
  if 96 ≤ n then s3.syncPort ((n - 96) / 2) else s3

/-- Lane n is enabled: its own bit and its group's (R82); a cascade lane follows CAS_CFG.en (R309). -/
def State.laneOn (s : State) (n : Nat) : Bool :=
  if n < 96 then s.fbit (LaneCfg.en n) && s.fbit (GrpCfg.en (n / 4)) else s.fbit CasCfg.en

/-- The domains of lane n are on (R40), and its switch unit is ready (R493). -/
def State.lanePowered (s : State) (n : Nat) : Bool :=
  if n < 96 then s.domOn (53 + n / 4) && s.domOn (77 + n / 4) && (SMap.find s.sys.unitReadyAt (n / 4)).isNone
  else s.domOn (11 + (n - 96) / 2) && (SMap.find s.sys.unitReadyAt (50 + (n - 96) / 2)).isNone

/-- Lane n receives and transmits: it is enabled and powered. -/
def State.laneEnabled (s : State) (n : Nat) : Bool := s.laneOn n && s.lanePowered n

/-- Lane n belongs to a group in Ethernet mode. -/
def State.laneEth (s : State) (n : Nat) : Bool := n < 96 && s.fget (GrpStat.modeAct (n / 4)) == 1

/-- The lanes of the Ethernet port whose first lane is n, if n is one (R117); an auto group runs eth_map 000 (R115). -/
def State.portLanes (s : State) (n : Nat) : Option Nat :=
  if !s.laneEth n then none
  else
    match (if s.fget (GrpCfg.mode (n / 4)) = 2 then 0 else s.fget (GrpCfg.ethMap (n / 4))), n % 4 with
    | 0, _ => some 1
    | 1, 0 => some 2 | 1, 2 => some 2
    | 2, 0 => some 4
    | 3, 0 => some 2 | 3, 2 => some 1 | 3, 3 => some 1
    | 4, 0 => some 1 | 4, 1 => some 1 | 4, 2 => some 2
    | _, _ => none

/-- A port is enabled while all its lanes are (R118). -/
def State.portEnabled (s : State) (n : Nat) : Bool :=
  match s.portLanes n with
  | some k => (List.range k).all fun i => s.laneEnabled (n + i)
  | none => false

/-- The first lane of the Ethernet port that holds lane n. -/
def State.portOf (s : State) (n : Nat) : Option Nat :=
  (List.range 4).map (4 * (n / 4) + ·) |>.find? fun f => match s.portLanes f with
    | some k => decide (f ≤ n ∧ n < f + k)
    | none => false

/-- A port carries frames: it is enabled, and no lane of it shows LOS or LOL (R7, R121). -/
def State.portCarries (s : State) (n : Nat) : Bool :=
  match s.portLanes n with
  | some k => (List.range k).all fun i => s.laneEnabled (n + i) && !s.rawDef (n + i) dLos && !s.rawDef (n + i) dLol
  | none => false

/-- The acquisition state of lane n (LANE_ACQ.state, R101). -/
def State.acq (s : State) (n : Nat) : Nat := s.fget (LaneAcq.state n)

/-- LANE_ACQ.state of an Ethernet lane: DOWN with LOS, else CDR with LOL, else ETH (R101). DESIGN CHOICE: log entry 199. -/
def State.syncEth (s : State) (n : Nat) : State :=
  if s.laneEth n then s.fset (LaneAcq.state n) (if s.rawDef n dLos then 0 else if s.rawDef n dLol then 1 else 7) else s

/-- Multiframe lock: LOCKED or FLYWHEEL. -/
def State.mfLocked (s : State) (n : Nat) : Bool := s.acq n == 5 || s.acq n == 6

/-- TRIB_STAT.anchored shows the anchor of copy A or B of a tributary. -/
def State.syncAnchor (s : State) (t : Nat) : State :=
  s.fsetB (TribStat.anchored t) ((s.trib t).copyA.anchored || (s.trib t).copyB.anchored)

/-- Every tributary copy received on lane n becomes unanchored (R146). -/
def State.unanchorLane (s : State) (n : Nat) : State :=
  s.forEach (s.tribs.map Prod.fst) fun s t =>
    let r := s.trib t
    let drop (c : CopySt) : CopySt := if c.lane = some n then { c with anchored := false } else c
    (s.setTrib t { r with copyA := drop r.copyA, copyB := drop r.copyB }).syncAnchor t

/-- The lane falls to an acquisition state: every lock above it is lost, counted and declared (R99, R107), a held
receive swap is dropped (R159 rule 5), an FEC window is discarded and SD and SF return to absent (R102). -/
def State.dropLocks (s : State) (n low : Nat) : State :=
  let was := s.acq n
  let l := s.lane n
  let s1 := s.fset (LaneAcq.state n) low
  let s2 := s1.onlyIf (5 ≤ was && was ≤ 6 && low ≤ 4) fun s =>
    ((s.bump .lane n 17 1).unanchorLane n).fsetB (LaneCalStat.rxSwapHeld n) false
  let s3 := s2.onlyIf (4 ≤ was && was ≤ 6 && low ≤ 3) fun s =>
    ((s.bump .lane n 16 1).setDef n dSf false false).setDef n dSd false false
  let s4 := s3.onlyIf (3 ≤ was && was ≤ 6 && low ≤ 2) fun s => s.bump .lane n 15 1
  let s5 := s4.onlyIf (low ≤ 2) fun s => s.setDef n dLob true true
  let s6 := s5.onlyIf (low ≤ 3) fun s => s.setDef n dLoc true true
  let s7 := s6.onlyIf (low ≤ 4) fun s => s.setDef n dLom true true
  let h := l.hunt
  let h1 : HuntSt := { h with ohCand := false, oh := [], ohDone := none, ohPrev := 0, mfGood := 0, mfBad := 0, lastOdd := none }
  let h2 : HuntSt := if low ≤ 3 then { h1 with prevControl := false, cwCand := false, cwSeen := 0, cwDist := 0, cwMiss := 0 } else h1
  let h3 : HuntSt := if low ≤ 2 then { h2 with candPos := 0, good := 0, winBlocks := 0, winBad := 0 } else h2
  let r : RxSt := if low ≤ 3 then { l.rx with buf := [], ready := none, cwErr := 0, cwLast := (0, 0), winCw := none, winErr := 0, winUnc := 0
                                              winDone := none, mfErr := 0, swapHeld := none }
    else { l.rx with swapHeld := none }
  s7.setLane n { l with hunt := h3, rx := r }

/-- LOL is raised by one of its causes (R89): counted and sticky only while LOS is absent and LOL was absent. -/
def State.declareLol (s : State) (n : Nat) : State :=
  let count := !s.rawDef n dLos && !s.rawDef n dLol
  let s1 := (s.onlyIf count fun s => s.bump .lane n 19 1).setDef n dLol true count
  let s2 := if s.laneEth n then s1.syncEth n else s1.dropLocks n (if s.rawDef n dLos then 0 else 1)
  let l := s2.lane n
  s2.setLane n { l with hunt := { l.hunt with freqGood := 0 } }

/-- The deskew fill of lane n, which joins the extremes since the last read (R93). -/
def State.noteFill (s : State) (n fill : Nat) : State :=
  ((s.fset (LaneDskStat.fill n) fill).fset (LaneDskStat.fillMin n) (min fill (s.fget (LaneDskStat.fillMin n)))).fset
    (LaneDskStat.fillMax n) (max fill (s.fget (LaneDskStat.fillMax n)))

/-- LOS and LOL are absent and the store is set to its centre: block hunt starts, or the lane is an Ethernet lane
(R91, R96). -/
def State.startHunt (s : State) (n : Nat) : State :=
  let s1 := s.noteFill n (s.fget (LaneDskCfg.centre n))
  if s.laneEth n then s1.syncEth n
  else
    let l := s1.lane n
    (s1.setLane n { l with hunt := { l.hunt with candPos := 0, good := 0 } }).fset (LaneAcq.state n) 2

/-! ## Signal and clock -/

/-- The current clock lane of group g. -/
def State.clockLane (s : State) (g : Nat) : Nat := 4 * g + s.fget (GrpStat.clkLaneAct g)

/-- Lane n is the clock lane of its group. -/
def State.isClock (s : State) (n : Nat) : Bool := n < 96 && s.clockLane (n / 4) == n

/-- clk_locked and clk_hold of group g, which its line monitors follow. -/
def State.setClock (s : State) (g : Nat) (locked hold : Bool) : State :=
  ((s.fsetB (GrpStat.clkLocked g) locked).fsetB (GrpStat.clkHold g) hold).lineClock g

/-- The group CDR has lost the clock lane, or has a lock again: without one the group clock holds (R85, R87). -/
def State.cdrLost (s : State) (g : Nat) (lost : Bool) : State :=
  (s.setGroup g { s.group g with cdrLost := lost }).setClock g (!lost) lost

/-- Format detection repeats for lane n of an auto group, on the clock lane with the family (R90, R116). DEDUCED: log entry 200. -/
def State.redetect (s : State) (n : Nat) : State :=
  if n < 96 && s.fget (GrpCfg.mode (n / 4)) == 2 then
    (s.fset (LaneAcq.detFmt n) 0).onlyIf (s.isClock n) fun s => s.fset (GrpStat.modeAct (n / 4)) 2
  else s

/-- LOS_DECLARE (R94): LOS is set and the hunts stop; LOL stands while no frequency is measured. DESIGN CHOICE: log entry 192. -/
def doLosDeclare (n : Nat) (s : State) : State :=
  if !s.laneEnabled n || s.rawDef n dLos then s
  else
    let s1 := (s.bump .lane n 18 1).setDef n dLos true true
    let s2 := ((if s1.laneEth n then s1 else s1.dropLocks n 0).setDef n dLol true false).syncEth n
    let l := s2.lane n
    (s2.setLane n { l with hunt := { l.hunt with freqGood := 0 } }).onlyIf (s2.isClock n) fun s => s.cdrLost (n / 4) true

def execLosDeclare (n : Lane) (s : State) : Out := .next (doLosDeclare n s)

/-- LOS_CLEAR (R94): LOS clears, LOL is unmasked and detection repeats in auto mode (R116). -/
def doLosClear (n : Nat) (s : State) : State :=
  if !s.laneEnabled n || !s.rawDef n dLos then s
  else
    let s1 := (s.setDef n dLos false false).fset (LaneAcq.state n) 1
    let l := s1.lane n
    (s1.setLane n { l with hunt := { l.hunt with freqGood := 0 } }).redetect n

def execLosClear (n : Lane) (s : State) : Out := .next (doLosClear n s)

/-- CDR_ACQUIRE (R88): the group CDR locks to the clock lane, or finds it outside the capture range and shows LOL. -/
def doCdrAcquire (g : Nat) (inRange : Bool) (s : State) : State :=
  let n := s.clockLane g
  if !s.laneEnabled n || s.rawDef n dLos then s
  else if inRange then s.cdrLost g false
  else (s.declareLol n).cdrLost g true

def execCdrAcquire (g : Group) (inRange : Bool) (s : State) : Out := .next (doCdrAcquire g inRange s)

/-- CLOCK_LANE_RESELECT (R85 to R87): with clk_auto the clock moves to the lowest enabled lane without raw LOS, where the
current one shows raw LOS, is disabled, or has been lost by the CDR; during it, and with none usable, the clock holds. -/
def doClockLaneReselect (g : Nat) (s : State) : State :=
  let cur := s.clockLane g
  let need := s.rawDef cur dLos || (s.group g).cdrLost || !s.laneEnabled cur
  if !s.fbit (GrpCfg.en g) || !s.fbit (GrpCfg.clkAuto g) || !need then s
  else
    match (List.range 4).find? fun j => s.laneEnabled (4 * g + j) && !s.rawDef (4 * g + j) dLos with
    | some j => ((s.setGroup g { s.group g with cdrLost := false }).fset (GrpStat.clkLaneAct g) j).setClock g false true
    | none => s.cdrLost g true

def execClockLaneReselect (g : Group) (s : State) : Out := .next (doClockLaneReselect g s)

/-- An offset in thousandths of a ppm is outside the capture range of 200 ppm (R88). -/
def outOfCapture (milliPpm : Int) : Bool := decide (milliPpm < -200000 ∨ 200000 < milliPpm)

/-- The store of lane n slips (R91): counted, LOL is raised, and acquisition restarts. -/
def State.slip (s : State) (n : Nat) : State :=
  let s1 := (s.bump .lane n 14 1).declareLol n
  s1.setLane n { s1.lane n with slipped := true }

/-- The fill of lane n is constant: it is the clock lane, and the CDR follows it (R91). -/
def State.fillStill (s : State) (n : Nat) : Bool := s.isClock n && s.fbit (GrpStat.clkLocked (n / 4))

/-- FREQ_MEASURE (R89, R90, R93): a 100 us measurement of a lane ends, with its offset from the group clock, and the group clock's from
nominal on the clock lane; LOL is set by an offset beyond lol_ppm, by a slip or by loss of the clock lane, and clears after two
measurements within half of it. DEDUCED: log entry 200. -/
def doFreqMeasure (n : Nat) (milliPpm groupMilliPpm : Int) (cdrLost : Bool) (fill : Nat) (s : State) : State :=
  if !s.laneEnabled n || s.rawDef n dLos then s
  else
    let g := n / 4
    let clk := s.isClock n
    let lim : Int := s.fget (LaneRxCfg.lolPpm n) * 1000
    let s1 := s.fset (LaneFreq.offset n) (ofSigned 32 milliPpm)
    let s2 := if clk then s1.fset (GrpFreq.offset g) (ofSigned 32 groupMilliPpm) else s1
    let moves := decide (2 ≤ s2.acq n) && !s2.fillStill n
    let lost := clk && (cdrLost || outOfCapture (milliPpm + groupMilliPpm))
    if moves && decide (2 * s2.fget (LaneDskCfg.centre n) < fill) then s2.slip n
    else
      let s3 := s2.onlyIf moves fun s => s.noteFill n fill
      if lost || decide (milliPpm < -lim ∨ lim < milliPpm) then
        (s3.declareLol n).onlyIf lost fun s => s.cdrLost g true
      else
        let l := s3.lane n
        let ok := decide (-lim ≤ 2 * milliPpm ∧ 2 * milliPpm ≤ lim) && !l.slipped
          && (n ≥ 96 || s3.fbit (GrpStat.clkLocked g))
        let cnt := if ok then l.hunt.freqGood + 1 else 0
        let s4 := s3.setLane n { l with slipped := false, hunt := { l.hunt with freqGood := cnt } }
        if s4.rawDef n dLol && cnt ≥ 2 then ((s4.setDef n dLol false false).startHunt n).redetect n else s4

def execFreqMeasure (n : Lane) (offsets : Offsets) (cdrLost : Bool) (fill : BitVec 9) (s : State) : Out :=
  .next (doFreqMeasure n offsets.own offsets.group cdrLost fill.toNat s)

/-- DESKEW_SLIP (R91): the fill that a store comes to; outside 0 to 2 x centre it slips. -/
def doDeskewSlip (n : Nat) (fill : Int) (s : State) : State :=
  if !s.laneEnabled n || s.rawDef n dLos || s.rawDef n dLol || s.fillStill n then s
  else if fill < 0 ∨ 2 * (s.fget (LaneDskCfg.centre n) : Int) < fill then s.slip n
  else s.noteFill n fill.toNat

def execDeskewSlip (fill : DeskewFill) (s : State) : Out := .next (doDeskewSlip fill.lane fill.blocks s)

/-! ## Received blocks -/

/-- The receive bank of lane n names bank b: taken if committed, else cal_fault and an event (R159 rule 6). late: rule
4 also sets late_swap. -/
def State.rxBankTo (s : State) (n b : Nat) (late : Bool) : State :=
  let lateEv (s : State) := if late then s.stick (LaneCalStat.lateSwap n) 1 else s
  if s.calCommitted n 0 b then
    let s1 := lateEv (s.fset (LaneCalStat.rxActive n) b)
    if late then s1.raise (s1.laneOwner n) 4 (laneSource n) 2 0 else s1
  else (s.stick (LaneCalStat.calFault n) 1).raise (s.laneOwner n) 4 (laneSource n) 1 0

/-- The duration of a multiframe of lane n's receive rate in fifths of 2^-16 ns: 2^29 at KLF-200, doubling with each
lower rate (R44). -/
def mfFifths (rate : Nat) : Nat := 2 ^ 29 * 2 ^ rate

/-- The start of multiframe k of a rate's grid, truncated to 2^-16 ns (R134). DESIGN CHOICE: log entry 6. -/
def gridTime (rate k : Nat) : Nat := k * mfFifths rate / 5

/-- The grid index nearest a stated MF_TIME (R141). -/
def gridIndex (rate t : Nat) : Nat := (2 * 5 * t + mfFifths rate) / (2 * mfFifths rate)

/-- The statistics of an errored or invalid block of blocks 0 to 79 (R49, R77, R102). -/
def State.blockStats (s : State) (n : Nat) (hdrBad ctlBad errored : Bool) : State :=
  let s1 := s.onlyIf hdrBad fun s =>
    let s1 := (s.bump .lane n 10 1).stick (LaneKlfStat.hdrErr n) 1
    let l := s1.lane n
    s1.setLane n { l with rx := { l.rx with cwErr := l.rx.cwErr + 1 } }
  let s2 := s1.onlyIf ctlBad fun s => s.stick (LaneKlfStat.unknownCtl n) 1
  s2.onlyIf errored fun s => s.bump .lane n 11 1

/-- One block of blocks 0 to 79 after correction: descrambled, classified by R49 and, where its multiframe is in
lock, handed to the demapper with its slot, bank and multiframe time. Of two adjacent control blocks the second is errored.
DESIGN CHOICE: log entry 197. -/
def State.deliverBlock (s : State) (n cw blk : Nat) (tag : Option (Nat × Nat)) (hdr : Hdr) (p : BitVec 64) (arrival : Nat)
    (prevCtl uncorrectable : Bool) : State :=
  let l := s.lane n
  let (d, h) := descramble l.rx.descr p
  let typ := pbits d 7 0
  let hdrBad := hdr == .invalid
  let ctl := hdr == .control
  let ctlBad := ctl && ((typ != 0x1E && !(typ == 0x33 && n ≥ 96)) || blk == 0 || blk == 79 || prevCtl)
  let errored := hdrBad || ctlBad || uncorrectable
  let s1 := s.setLane n { l with rx := { l.rx with descr := h } }
  let s2 := s1.blockStats n hdrBad ctlBad errored
  match tag with
  | some (bank, t) =>
    let l2 := s2.lane n
    let x := cw * 80 + blk
    s2.setLane n { l2 with rx := { l2.rx with slots := l2.rx.slots ++ [⟨x, bank, t, ctl, d, errored, arrival⟩], flyNo := (x + 1) % 5120 } }
  | none => s2

/-- The calendar bank and time of the multiframe in hand, while the lane is in multiframe lock. -/
def State.mfTag (s : State) (n : Nat) : Option (Nat × Nat) :=
  if s.mfLocked n then some (s.fget (LaneCalStat.rxActive n), (s.lane n).rx.mfTime) else none

/-- The length in codewords of an FEC window of lane n (R102). DESIGN CHOICE: log entry 198. -/
def State.winLen (s : State) (n : Nat) : Nat := 64 * 2 ^ s.fget (LaneFecCfg.winExp n)

/-- A codeword of lane n is decoded, or passed in plain mode: its corrected symbols or invalid headers and whether it was uncorrectable
join the multiframe's count (R70) and the FEC window, which may be complete with it (R102). -/
def State.codewordDone (s : State) (n err unc : Nat) : State :=
  let l := s.lane n
  let r := { l.rx with cwErr := 0, cwLast := (err, unc), mfErr := l.rx.mfErr + (if s.fbit (LaneKlfCfg.rxFec n) then unc else err) }
  let r1 := match r.winCw with
    | none => r
    | some k =>
      if s.winLen n ≤ k + 1 then
        { r with winCw := some 0, winErr := 0, winUnc := 0, winDone := some (r.winErr + err, r.winUnc + unc) }
      else { r with winCw := some (k + 1), winErr := r.winErr + err, winUnc := r.winUnc + unc }
  s.setLane n { l with rx := r1 }

/-- A multiframe candidate is found at the overhead byte of its second codeword: the multiframe's count starts with codeword 0, and so
does the FEC window unless it runs on multiframe boundaries already (R70, R98, R102). DEDUCED: log entry 201. -/
def State.mfCandidate (s : State) (n : Nat) : State :=
  let l := s.lane n
  let r := l.rx
  let k := if r.ready.isSome then 0 else 1
  let (err, unc) := if k = 1 then r.cwLast else (0, 0)
  let r1 := { r with mfErr := if s.fbit (LaneKlfCfg.rxFec n) then unc else err }
  let on := match r.winCw with | some w => w % 64 == k | none => false
  s.setLane n { l with rx := if on then r1 else { r1 with winCw := some k, winErr := err, winUnc := unc } }

/-- The overhead byte of a codeword (R98 steps 1 and 2): gathered where a candidate or lock gives the position. -/
def State.overheadByte (s : State) (n : Nat) (b : Byte) : State :=
  let l := s.lane n
  let h := l.hunt
  if s.mfLocked n || h.ohCand then
    let oh := h.oh ++ [b]
    if oh.length = 64 then s.setLane n { l with hunt := { h with oh := [], ohDone := some oh } }
    else s.setLane n { l with hunt := { h with oh := oh } }
  else if h.ohPrev = 0xE4 ∧ b = 0x1B then
    (s.setLane n { l with hunt := { h with ohCand := true, oh := [0xE4, 0x1B], ohPrev := 0 } }).mfCandidate n
  else s.setLane n { l with hunt := { h with ohPrev := b.toNat } }

/-- Codeword lock is held: the block takes its place in the codeword (R97 steps 5 and 6). -/
def State.codewordBlock (s : State) (n : Nat) (hdr : Hdr) (p : BitVec 64) (arrival : Nat) : State :=
  let l := s.lane n
  let h := l.hunt
  let blk := h.blk
  let fec := s.fbit (LaneKlfCfg.rxFec n)
  let buf := l.rx.buf ++ [(hdr, p, arrival)]
  if blk < 80 then
    let cw := if blk = 0 then h.oh.length else h.cwNo
    let l1 := { l with hunt := { h with blk := blk + 1, cwNo := cw, prevControl := hdr == .control }, rx := { l.rx with buf := buf } }
    let s1 := s.setLane n l1
    if fec then s1 else s1.deliverBlock n cw blk (s1.mfTag n) hdr p arrival (blk != 0 && h.prevControl) false
  else if blk = 80 then
    let s1 := s.setLane n { l with hunt := { h with blk := 81, tailBad := hdr != .control }, rx := { l.rx with buf := buf } }
    s1.overheadByte n (BitVec.ofNat 8 p.toNat)
  else
    let bad := h.tailBad || hdr != .control
    let miss := if bad then h.cwMiss + 1 else 0
    let l1 := { l with hunt := { h with blk := 0, cwMiss := miss, tailBad := false }
                       rx := { l.rx with buf := [], ready := if fec then some (h.cwNo, buf, s.mfTag n) else none } }
    let s1 := s.setLane n l1
    let s2 := if fec then s1 else s1.codewordDone n l.rx.cwErr 0
    if miss ≥ 4 then s2.dropLocks n 3 else s2

/-- Codeword hunt (R97 steps 1 to 4). -/
def State.codewordHunt (s : State) (n : Nat) (hdr : Hdr) : State :=
  let l := s.lane n
  let h := l.hunt
  let c := hdr == .control
  if !h.cwCand then
    if h.prevControl && c then
      s.setLane n { l with hunt := { h with cwCand := true, cwSeen := 1, cwDist := 0, prevControl := false } }
    else s.setLane n { l with hunt := { h with prevControl := c } }
  else if h.cwDist + 1 < 82 then s.setLane n { l with hunt := { h with cwDist := h.cwDist + 1, prevControl := c } }
  else if h.prevControl && c then
    if h.cwSeen + 1 = 16 then
      ((s.setLane n { l with hunt := { h with cwSeen := 16, cwCand := false, blk := 0, cwMiss := 0, oh := [], ohCand := false, ohPrev := 0 }
                             rx := { l.rx with buf := [], cwErr := 0, cwLast := (0, 0), winCw := none, winErr := 0, winUnc := 0
                                               winDone := none, mfErr := 0 } }).setDef n dLoc false false).fset (LaneAcq.state n) 4
    else s.setLane n { l with hunt := { h with cwSeen := h.cwSeen + 1, cwDist := 0, prevControl := false } }
  else s.setLane n { l with hunt := { h with cwCand := false, cwSeen := 0, cwDist := 0, prevControl := false } }

/-- RX_BLOCK (R96): a block at the candidate or locked position is classified and the hunts advance. -/
def doRxBlock (n : Nat) (hdr : Hdr) (p : BitVec 64) (arrival : Nat) (s : State) : State :=
  if !s.laneEnabled n || s.rawDef n dLos || s.rawDef n dLol then s
  else if s.acq n = 2 then
    let l := s.lane n
    let h := l.hunt
    if hdr = .invalid then
      let positions := if s.fget (LaneKlfCfg.rxRate n) = 3 then 66 else 33
      s.setLane n { l with hunt := { h with candPos := (h.candPos + 1) % positions, good := 0 } }
    else if h.good + 1 = 256 then
      ((s.setLane n { l with hunt := { h with good := 256, winBlocks := 0, winBad := 0, prevControl := false, cwCand := false } }).setDef
        n dLob false false).fset (LaneAcq.state n) 3
    else s.setLane n { l with hunt := { h with good := h.good + 1 } }
  else if 3 ≤ s.acq n ∧ s.acq n ≤ 6 then
    let l := s.lane n
    let bad := l.hunt.winBad + (if hdr = .invalid then 1 else 0)
    let full := l.hunt.winBlocks + 1 = 256
    let s1 := s.setLane n { l with hunt := { l.hunt with winBlocks := if full then 0 else l.hunt.winBlocks + 1, winBad := if full then 0 else bad } }
    if bad ≥ 32 then s1.dropLocks n 2
    else if s1.acq n = 3 then s1.codewordHunt n hdr
    else s1.codewordBlock n hdr p arrival
  else s

/-- Lane n receives two-level symbols: KLF-25 (R44). -/
def State.rxNrz (s : State) (n : Nat) : Bool := s.fget (LaneKlfCfg.rxRate n) == 3

def execRxBlock (n : Lane) (symbols : List (Fin 4)) (arrival : Nat) (s : State) : Out :=
  let b := lineBlock (s.rxNrz n) (symbols.map Fin.val)
  .next (doRxBlock n b.1 b.2 arrival s)

/-- RX_CODEWORD_DECODE on a KLF lane (R58): the buffered codeword is decoded and its blocks delivered. -/
def State.klfDecode (s : State) (n : Nat) : State :=
  let l := s.lane n
  match l.rx.ready with
  | none => s
  | some (cw, bs, tag) =>
    let ps := (bs.take 80).map fun b => b.2.1
    let par := (bs.drop 80).map fun b => b.2.1
    let parity := (par.headD 0).toNat / 256 + ((par.drop 1).headD 0).toNat * 2 ^ 56
    let s0 := s.setLane n { l with rx := { l.rx with ready := none } }
    let (ps', s1, unc) := match rsDecode (symbolsOf 512 (streamOf ps) ++ symbolsOf 12 parity) with
      | .clean => (ps, (s0.bump .lane n 0 1).codewordDone n 0 0, false)
      | .corrected w k =>
        (payloadsOf (ofSymbols (w.take 512)),
          (((s0.bump .lane n 1 1).bump .lane n 2 k).bump .lane n (3 + k) 1).codewordDone n k 0, false)
      | .uncorrectable => (ps, (s0.bump .lane n 3 1).codewordDone n 0 1, true)
    let hs := (bs.take 80).map Prod.fst
    let arr := (bs.take 80).map fun b => b.2.2
    ((((hs.zip ps').zip arr).zip (Hdr.data :: hs)).zipIdx).foldl
      (fun s e => s.deliverBlock n cw e.2 tag e.1.1.1.1 e.1.1.1.2 e.1.1.2 (e.1.2 == .control) unc) s1

/-- RX_CODEWORD_DECODE on an Ethernet port (R119, R121, R123): an RS(544,514) codeword of the port whose first lane is f, with k
corrected symbols, or none where it is uncorrectable. DESIGN CHOICE: log entry 193. -/
def State.ethDecode (s : State) (f : Nat) (res : Option Nat) : State :=
  let l := s.lane f
  match res with
  | some 0 => s
  | some k => ((s.setLane f { l with rx := { l.rx with winErr := l.rx.winErr + k } }).bump .lane f 32 1).bump .lane f 34 k
  | none => (s.setLane f { l with rx := { l.rx with winUnc := l.rx.winUnc + 1 } }).bump .lane f 33 1

/-- RX_CODEWORD_DECODE (R58, R119): a received codeword is decoded; eth is the outcome of one of an Ethernet port. -/
def doRxCodewordDecode (n : Nat) (eth : Option Nat) (s : State) : State :=
  if s.laneEth n then
    match s.portOf n with
    | some f => if s.portCarries f && s.fbit (LaneEthStat.amLockAll f) then s.ethDecode f eth else s
    | none => s
  else s.klfDecode n

def execRxCodewordDecode (cw : RsCodeword) (s : State) : Out := .next (doRxCodewordDecode cw.lane (cw.eth.map Fin.val) s)

end Sys2Proof.Machine
end

