-- ==== Sys2Proof/Machine/LaneRx.lean ====
section
/-! DEFINITION. The end of a received multiframe (R98, R159, R407, R543), FEC windows (R103), format detection (R115),
defect integration (R109 to R112) and the enabling of groups and lanes (R82, R111, R134). -/

namespace Sys2Proof.Machine

/-! ## The overhead FIFO's writer (R407 to R411) -/

/-- Words the writer sees free: the true figure less a synchroniser lag of 0 to 3 words (R410). DESIGN CHOICE: log entry 166. -/
def State.fifoFree (s : State) (g : Nat) : Nat × State :=
  let (lag, s1) := s.free 2
  let q := s.group g
  (1024 - (q.wr - q.rel) - lag, s1)

/-- The overhead FIFO of group g is on: the group is enabled and its datapath domain is powered (R412). -/
def State.fifoOn (s : State) (g : Nat) : Bool :=
  s.fbit (GrpCfg.en g) && (s.rget (PwrDomOn.reg ((77 + g) / 32))).toNat.testBit ((77 + g) % 32)

/-- A record of 18 words is written, or discarded and counted when fewer than 18 words are seen free (R407, R408). -/
def State.fifoRecord (s : State) (g : Nat) (hdr arrival : Nat) (oh : List Byte) : State :=
  let (free, s1) := s.fifoFree g
  let q := s1.group g
  let w0 := q.recSeq * 2 ^ 16 + hdr
  let q1 := { q with recSeq := (q.recSeq + 1) % 65536 }
  if free < 18 then (s1.setGroup g q1).fsat (SepFifoCnt.discarded (g + 1)) 1
  else
    let ws := w0 :: arrival :: (List.range 16).map fun w => leAt oh (4 * w) 4
    let words := ws.zipIdx.foldl (fun m e => SMap.ins m (q.wr + e.2) (BitVec.ofNat 32 e.1)) q.words
    s1.setGroup g { q1 with wr := q.wr + 18, words := words }

/-- Event bit b of core c is set, unless the core is in reset or off; bits 0 and 3 to 6 only on the cores R379 lists (R401).
DESIGN CHOICE: log entry 221. -/
def State.coreEvent (s : State) (c b : Nat) : State :=
  let q := s.core c
  if s.fget (SepStat.state c) = 0 ∨ s.fget (SepStat.state c) = 6 then s else s.setCore c { q with evpend := q.evpend ||| 2 ^ b }

/-- NOTICE (R411): the last word of the records written becomes visible to the reader. -/
def doNotice (g : Nat) (s : State) : State :=
  let q := s.group g
  if q.noticed < q.wr then (s.setGroup g { q with noticed := q.wr }).coreEvent (g + 1) 0 else s

def execNotice (g : Group) (s : State) : Out := .next (doNotice g s)

/-! ## Overhead filters (R107, R543) -/

/-- A filter given one more multiframe with valid overhead: a value takes force when 3 consecutive ones carry it. -/
def Filt.feed (f : Filt) (v : Nat) : Filt :=
  let c := if f.count ≠ 0 ∧ f.seen = v then min 3 (f.count + 1) else 1
  { value := if c = 3 then v else f.value, seen := v, count := c }

/-- Byte k of a list of bytes, as a number. -/
def byteAt (bs : List Byte) (k : Nat) : Nat := ((bs[k]?).getD 0).toNat

/-- A lane's filters take the overhead of a valid multiframe; LANE_DEF and PROT_LANE show them. -/
def State.feedFilters (s : State) (n : Nat) (oh : List Byte) : State :=
  let l := s.lane n
  let bdi := byteAt oh 27
  let b (i : Nat) : Nat := if bdi.testBit i then 1 else 0
  let r : RxSt := { l.rx with rdi := l.rx.rdi.feed (b 0), rsd := l.rx.rsd.feed (b 1), rsf := l.rx.rsf.feed (b 2)
                              req := l.rx.req.feed (byteAt oh 30 % 4), role := l.rx.role.feed (byteAt oh 31 % 4)
                              ql := l.rx.ql.feed (byteAt oh 32 % 16), qlMissed := 0 }
  let s1 := s.setLane n { l with rx := r }
  let s2 := ((s1.setDef n dRdi (r.rdi.value = 1) true).setDef n 8 (r.rsd.value = 1) false).setDef n 9 (r.rsf.value = 1) false
  s2.onlyIf (n < 96) fun s => (s.fset (ProtLane.rxReq n) r.req.value).fset (ProtLane.rxRole n) r.role.value

/-- An epoch is taken from two consecutive multiframes whose sequences agree but for bit 0 (R71). -/
def State.feedEpoch (s : State) (n seq half : Nat) : State :=
  let l := s.lane n
  let far := match l.rx.epochHalf with
    | some (q, hi) => if q % 2 = 0 ∧ seq = q + 1 then hi * 65536 + half else l.rx.farEpoch
    | none => l.rx.farEpoch
  s.setLane n { l with rx := { l.rx with epochHalf := some (seq, half), farEpoch := far } }

/-- A CRC-good multiframe is captured, into the hidden copy (R79 to R81), and its LOH_CTRL noted (R77). -/
def State.capturePage (s : State) (n : Nat) (oh : List Byte) : State :=
  let l := s.lane n
  (s.setLane n { l with rx := { l.rx with page := oh, ctrl := some (byteAt oh 2) } }).fsetB (LaneKlfRxohCtl.pageValid n) true

/-- rx_rate_mismatch and rx_fec_mismatch compare the last CRC-good LOH_CTRL with the settings as they are (R77). -/
def State.syncMismatch (s : State) (n : Nat) : State :=
  let differs (f : Nat → Bool) : Bool := match (s.lane n).rx.ctrl with | some c => f c | none => false
  (s.fsetB (LaneKlfStat.rxRateMismatch n) (differs fun c => c / 4 % 4 != s.fget (LaneKlfCfg.rxRate n))).fsetB
    (LaneKlfStat.rxFecMismatch n) (differs fun c => c.testBit 1 != s.fbit (LaneKlfCfg.rxFec n))

/-- The page registers take the latest CRC-good multiframe at a multiframe boundary while not frozen. -/
def State.showPage (s : State) (n : Nat) : State :=
  let oh := (s.lane n).rx.page
  if s.fbit (LaneKlfRxohCtl.freeze n) || oh.isEmpty then s
  else s.forEach (List.range 16) fun s w => s.rset (LaneKlfRxoh.reg n w) (BitVec.ofNat 32 (leAt oh (4 * w) 4))

/-! ## RX_MULTIFRAME_END (R98) -/

/-- What the judgement of a multiframe came to. -/
structure MfJudge where
  valid : Bool
  lockGained : Bool
  rebased : Bool
  deriving DecidableEq, Repr

/-- The hunt and lock table of R98 for a multiframe that is good or not, with its MF_SEQ. -/
def State.judgeMf (s : State) (n : Nat) (good : Bool) (seq : Nat) : MfJudge × State :=
  let l := s.lane n
  let h := l.hunt
  let next := (h.expect + 1) % 2 ^ 32
  let put (h' : HuntSt) : State := s.setLane n { l with hunt := { h' with ohDone := none } }
  if s.acq n = 4 then
    if good ∧ (h.mfGood = 0 ∨ seq = h.expect) then
      let s1 := put { h with mfGood := h.mfGood + 1, expect := (seq + 1) % 2 ^ 32, mfBad := 0, lastOdd := none }
      if h.mfGood + 1 = 4 then (⟨true, true, false⟩, (s1.fset (LaneAcq.state n) 5).setDef n dLom false false)
      else (⟨false, false, false⟩, s1)
    else (⟨false, false, false⟩, put { h with ohCand := false, oh := [], ohPrev := 0, mfGood := 0 })
  else if !good then
    let s1 := (put { h with mfBad := h.mfBad + 1, expect := next, lastOdd := none }).fset (LaneAcq.state n) 6
    (⟨false, false, false⟩, if h.mfBad + 1 ≥ 4 then s1.dropLocks n 4 else s1)
  else if seq = h.expect then
    (⟨true, false, false⟩, (put { h with mfBad := 0, expect := next, lastOdd := none }).fset (LaneAcq.state n) 5)
  else if h.lastOdd = some ((seq + 2 ^ 32 - 1) % 2 ^ 32) then
    (⟨true, false, true⟩, (put { h with expect := (seq + 1) % 2 ^ 32, lastOdd := none }).bump .lane n 13 1)
  else (⟨false, false, false⟩, put { h with expect := next, lastOdd := some seq })

/-- With follow = 0 a written receive bank takes force at the multiframe boundary (R161). -/
def State.rxBankWritten (s : State) (n : Nat) : State :=
  let l := s.lane n
  match l.rx.bankWrite with
  | none => s
  | some b => (s.setLane n { l with rx := { l.rx with bankWrite := none } }).rxBankTo n b false

/-- The receive bank follows the far end at a multiframe boundary (R159): lock gained, the held swap due, or a late
tx_bank; follow = 0 leaves it to a written bank (R161). An announcement in the multiframe that gains the lock is dropped with any held
swap. DESIGN CHOICE: log entry 208. -/
def State.rxFollow (s : State) (n : Nat) (j : MfJudge) (oh : List Byte) : State :=
  let follow := s.fbit (LaneCalRxCtl.follow n)
  let txBank := byteAt oh 22 % 2
  let pendingSwap := (byteAt oh 22).testBit 1
  let hold (s : State) (v : Option Nat) : State :=
    let l := s.lane n
    let s1 := (s.setLane n { l with rx := { l.rx with swapHeld := v } }).fsetB (LaneCalStat.rxSwapHeld n) v.isSome
    match v with
    | some x => s1.fset (LaneCalRxSwap.swapMf n) x
    | none => s1
  if j.lockGained then
    let s1 := hold s none
    if follow then s1.rxBankTo n txBank false else s1.rxBankWritten n
  else
    let s1 := if j.valid && pendingSwap then
        let v := ofBe ((oh.drop 23).take 4)
        if follow then hold s (some v) else s.fset (LaneCalRxSwap.swapMf n) v
      else s
    if !follow then s1.rxBankWritten n
    else if !s1.mfLocked n then s1
    else
      let l := s1.lane n
      match l.rx.swapHeld with
      | some x =>
        if x = l.hunt.expect then (hold s1 none).rxBankTo n (1 - s1.calActive n 0) false
        else if j.valid && txBank != s1.calActive n 0 then s1.rxBankTo n txBank true
        else s1
      | none => if j.valid && txBank != s1.calActive n 0 then s1.rxBankTo n txBank true else s1

/-- The time of the multiframe that begins now, by the grid of the last one with valid overhead (R141); the waiting slots of the one that
ended take the time it states. DEDUCED: log entry 29. -/
def State.predictTime (s : State) (n : Nat) (valid : Bool) (seq time : Nat) : State :=
  let l := s.lane n
  let rate := s.fget (LaneKlfCfg.rxRate n)
  let own (b : SlotBlock) : SlotBlock := if b.mfTime = l.rx.mfTime then { b with mfTime := time } else b
  let r : RxSt := if valid then { l.rx with lastSeq := seq, lastTime := time, sinceValid := 1, slots := l.rx.slots.map own }
    else { l.rx with sinceValid := l.rx.sinceValid + 1 }
  s.setLane n { l with rx := { r with mfTime := gridTime rate (gridIndex rate r.lastTime + r.sinceValid)
                                      mfErrLast := r.mfErr, mfErr := 0 } }

/-- In stand-alone mode (STRAP_MODE 01) a KLF lane's received multiframe enters its regeneration store of 2; one that does
not fit is dropped whole and counted (R483). DESIGN CHOICE: log entry 187. -/
def State.regenStore (s : State) (n : Nat) (oh : List Byte) : State :=
  if s.fget GlbStrap.mode ≠ 1 ∨ n ≥ 96 ∨ !s.mfLocked n then s
  else
    let l := s.lane n
    let l0 := { l with rx := { l.rx with slots := [] } }
    if l.tx.regenQ.length < 2 then
      s.setLane n { l0 with tx := { l.tx with regenQ := l.tx.regenQ ++ [(oh, l.rx.slots)] } }
    else (s.setLane n l0).bump .lane n 14 1

/-- RX_MULTIFRAME_END (R98): the gathered multiframe, whose first header bit arrived at `arrival` in 2^-16 ns, is judged, its overhead validated and captured, its record goes to
the overhead FIFO, and the receive bank follows. It ends when its last block is received and its last codeword decoded. -/
def doRxMultiframeEnd (n arrival : Nat) (s : State) : State :=
  match (s.lane n).hunt.ohDone, (s.lane n).rx.ready, (s.lane n).hunt.blk == 81 with
  | some oh, none, false =>
    let was := s.acq n
    let mfa := byteAt oh 0 == 0xE4 && byteAt oh 1 == 0x1B
    let crcOk := crc16 (oh.take 62) == byteAt oh 62 * 256 + byteAt oh 63
    let good := mfa && crcOk
    let seq := ofBe ((oh.drop 3).take 4)
    let time := timeOf (ofBe ((oh.drop 10).take 12))
    let locked := was == 5 || was == 6
    let s0 := (s.onlyIf (locked && !good) fun s => s.bump .lane n 12 1).onlyIf (!crcOk) fun s =>
      s.stick (LaneKlfStat.ohCrcErr n) 1
    let s1 := s0.onlyIf (locked && n < 96) fun s =>
      s.fifoRecord (n / 4) (n % 4 + (if crcOk then 4 else 0) + (if mfa then 8 else 0) + (if was = 6 then 16 else 0)) (arrival % tSec / 65536) oh
    let (j, s2) := s1.judgeMf n good seq
    let s3 := s2.onlyIf crcOk fun s => s.capturePage n oh
    let s4 := s3.onlyIf j.valid fun s =>
      let s1 := (((s.perfHit (s.laneOwner n) 0x06 n 1).bump .lane n 20 (byteAt oh 28)).feedFilters n oh).feedEpoch n seq (ofBe ((oh.drop 33).take 2))
      let auto := n < 96 && s1.fget (GrpCfg.mode (n / 4)) == 2
      (s1.onlyIf (auto && j.lockGained) fun s => s.fsetB (LaneKlfCfg.rxFec n) ((byteAt oh 2).testBit 1)).onlyIf (decide (96 ≤ n))
        fun s => s.casForward (n - 96) seq arrival time
    let s5 := if j.valid then s4 else
      let l := s4.lane n
      s4.setLane n { l with rx := { l.rx with qlMissed := l.rx.qlMissed + 1, epochHalf := none } }
    let s6 := (s5.predictTime n j.valid seq time).rxFollow n j oh
    (((s6.syncMismatch n).showPage n).lineQl n j.valid).regenStore n oh
  | _, _, _ => s

def execRxMultiframeEnd (n : Lane) (arrival : Nat) (s : State) : Out := .next (doRxMultiframeEnd n arrival s)

/-- The errors and uncorrectable codewords of an FEC window that is over and not yet judged: on a KLF lane 2^win_exp multiframes, on an
Ethernet port 2^win_exp x 1.6384 us (256 ticks) with alignment-marker lock (R102, R121, R122). DEDUCED: log entry 202. -/
def State.winOver (s : State) (n : Nat) : Option (Nat × Nat) :=
  let r := (s.lane n).rx
  if s.laneEth n then
    if s.portCarries n && s.fbit (LaneEthStat.amLockAll n) && decide (r.winFrom + 256 * 2 ^ s.fget (LaneFecCfg.winExp n) ≤ s.ticks) then
      some (r.winErr, r.winUnc)
    else none
  else r.winDone

/-- A judged window is gone; on an Ethernet port the next one starts where it ended. -/
def State.winTaken (s : State) (n : Nat) : State :=
  let l := s.lane n
  let r := if s.laneEth n then
      { l.rx with winErr := 0, winUnc := 0, winFrom := l.rx.winFrom + 256 * 2 ^ s.fget (LaneFecCfg.winExp n) }
    else { l.rx with winDone := none }
  s.setLane n { l with rx := r }

/-- FEC_WINDOW_END (R103): a window that is over sets or clears SF and SD. -/
def doFecWindowEnd (n : Nat) (s : State) : State :=
  match s.winOver n with
  | none => s
  | some (err, unc) =>
    let fec := s.fbit (LaneKlfCfg.rxFec n) || s.laneEth n
    let s1 := ((s.winTaken n).fset (LaneFecWinCorr.count n) err).fset (LaneFecWinUnc.count n) unc
    let sfSet := decide (s.fget (LaneSfSet.count n) < err) || (fec && decide (s.fget (LaneFecCfg.sfUnc n) ≤ unc))
    let sfClr := decide (err ≤ s.fget (LaneSfClr.count n)) && unc == 0
    let s2 := if sfSet then s1.setDef n dSf true true else if sfClr then s1.setDef n dSf false false else s1
    if s.fget (LaneSdSet.count n) < err then s2.setDef n dSd true true
    else if err ≤ s.fget (LaneSdClr.count n) then s2.setDef n dSd false false
    else s2

def execFecWindowEnd (n : Lane) (s : State) : Out := .next (doFecWindowEnd n s)

/-! ## Format detection (R115, R116) -/

/-- The KLF rate code of a symbol rate. -/
def symRateKlf : SymRate → Option Nat
  | .b105 => some 0
  | .b52 => some 1
  | .b26 true => some 2
  | .b26 false => some 3
  | .b106 => none
  | .other => none

/-- Lane n, whose family or rate changed, starts its acquisition again where LOS and LOL are absent (R115 step 6). -/
def State.reacquire (s : State) (n : Nat) : State :=
  if s.rawDef n dLos || s.rawDef n dLol then s.syncEth n
  else if s.laneEth n then s.syncEth n
  else (s.dropLocks n 2).startHunt n

/-- Lane n is found to run KLF at rate r (R115 steps 2, 5 and 6). -/
def State.klfDetected (s : State) (n r : Nat) : State :=
  let new := s.fget (LaneKlfCfg.rxRate n) != r || s.acq n == 7
  let s1 := ((s.fset (LaneAcq.detFmt n) (r + 1)).fset (LaneKlfCfg.rxRate n) r).fsetB (LaneKlfCfg.rxFec n) true
  (s1.onlyIf new fun s => s.reacquire n).syncMismatch n

/-- The defects of an Ethernet port that its LANE_ETH_STAT shows (R121); LOB is never declared there. -/
def State.ethDefects (s : State) (f : Nat) : State :=
  let bit (r : FRef) : Bool := s.fbit r
  (((s.setDef f dLob false false).setDef f dLoc (!bit (LaneEthStat.amLockAll f)) true).setDef f dLom
    (!bit (LaneEthStat.alignStatus f) || bit (LaneEthStat.lf f)) true).setDef f dRdi (bit (LaneEthStat.rf f)) true

/-- Lane n is found to run 200GBASE-R (R115 step 3, R116). -/
def State.ethDetected (s : State) (n : Nat) : State :=
  ((s.fset (LaneAcq.detFmt n) 5).onlyIf (s.acq n != 7) fun s => s.dropLocks n 2).ethDefects n |>.syncEth n

/-- Lane n shows LOL, and no format (R115 steps 4 and 5). -/
def State.noFormat (s : State) (n : Nat) : State := (s.declareLol n).fset (LaneAcq.detFmt n) 0

/-- The clock lane of group g shows family f; where it changes, detection repeats for the group's other lanes (R115, R116).
DEDUCED: log entry 200. -/
def State.familyIs (s : State) (g f : Nat) : State :=
  let q := s.group g
  let s1 := (s.setGroup g { q with fam := f }).fset (GrpStat.modeAct g) f
  s1.onlyIf (q.fam != 2 && q.fam != f) fun s =>
    s.forEach (List.range 4) fun s i =>
      let n := 4 * g + i
      s.onlyIf (s.laneEnabled n && !s.isClock n) fun s =>
        let s1 := s.fset (LaneAcq.detFmt n) 0
        if f = 1 then (s1.dropLocks n 2).ethDefects n |>.syncEth n else s1.reacquire n

/-- FORMAT_DETECT (R115): a lane of an auto group gets its format; the clock lane decides the family, for which the others wait; an
unknown rate shows LOL, and on the clock lane detection runs again after 1 ms. -/
def doFormatDetect (n : Nat) (rate : SymRate) (s : State) : State :=
  let g := n / 4
  let clk := s.isClock n
  let fam := s.fget (GrpStat.modeAct g)
  if n ≥ 96 || !s.laneEnabled n || s.fget (GrpCfg.mode g) != 2 || s.rawDef n dLos || (!clk && fam == 2) then s
  else
    match symRateKlf rate with
    | some r =>
      if clk then (s.familyIs g 0).klfDetected n r
      else if fam = 0 then s.klfDetected n r
      else s.noFormat n
    | none =>
      if rate = SymRate.b106 ∧ clk then (s.familyIs g 1).ethDetected n
      else if rate = SymRate.b106 ∧ fam = 1 then s.ethDetected n
      else
        let s1 := s.noFormat n
        if clk then
          (s1.setGroup g { s1.group g with retryAt := some (s1.ticks + ticksOfNs 1000000) }).fset (GrpStat.modeAct g) 2
        else s1

def execFormatDetect (n : Lane) (rate : SymRate) (s : State) : Out := .next (doFormatDetect n rate s)

/-- FORMAT_DETECT_RETRY (R115 step 4): detection starts again on the clock lane. -/
def doFormatDetectRetry (g : Nat) (s : State) : State :=
  let q := s.group g
  match q.retryAt with
  | none => s
  | some t =>
    if s.ticks < t then s
    else (s.setGroup g { q with retryAt := none }).redetect (s.clockLane g)

def execFormatDetectRetry (g : Group) (s : State) : Out := .next (doFormatDetectRetry g s)

/-! ## Defect integration (R109 to R113) -/

/-- Core c runs: its state is running, waiting or stalled (SEP_STAT.state 1 to 3). -/
def State.coreRuns (s : State) (c : Nat) : Bool := 1 ≤ s.fget (SepStat.state c) && s.fget (SepStat.state c) ≤ 3

/-- The bits that mask a defect (R107). -/
def maskedBy : Nat → Nat
  | 0 => 0x00 | 1 => 0x01 | 2 => 0x03 | 3 => 0x07 | 4 => 0x0F | 5 => 0x1F | 6 => 0x3F | _ => 0x1F

/-- LANE_DEF_IVL as a reading core sees it; its read starts a new interval with the defects now present (R114). -/
def State.readIvl (s : State) (n : Nat) : Nat × State :=
  (s.fget (LaneDefIvl.ivl n), s.fset (LaneDefIvl.ivl n) (s.fget (LaneDef.defs n)))

/-- One sample of one lane: presence by the interval, failures by the soak counts, BDI by the selected sources. -/
def State.sampleLane (s : State) (n : Nat) : State :=
  let g := if n < 96 then n / 4 else 0
  let (ivl, s1) := s.readIvl n
  let seen (b : Nat) : Bool := ivl.testBit b && (ivl &&& maskedBy b) == 0
  let soak := if n < 96 then s1.fget (GrpSoak.failSoak g) else (GrpSoak.failSoak 0).of (resetWord (GrpSoak.reg 0))
  let clear := if n < 96 then s1.fget (GrpSoak.failClear g) else (GrpSoak.failClear 0).of (resetWord (GrpSoak.reg 0))
  let l := s1.lane n
  let cnt (m : SMap Nat) (b : Nat) (on : Bool) : SMap Nat := SMap.putD m b 0 (if on then SMap.getD m b 0 + 1 else 0)
  let pres := (List.range 8).foldl (fun m b => cnt m b (seen b)) l.present
  let abs := (List.range 8).foldl (fun m b => cnt m b (!seen b)) l.absent
  let old := s1.fget (LaneFail.fail n)
  let new := (List.range 8).foldl (fun f b =>
    if SMap.getD pres b 0 ≥ soak then putBit f b true else if SMap.getD abs b 0 ≥ clear then putBit f b false else f) old
  let src := s1.fget (LaneFailMask.bdiSrc n)
  let rdi := (List.range 8).any fun b => src.testBit b && seen b
  let hold (until' : Nat) (on : Bool) : Nat := if on then s1.now + tMs else until'
  let l' := { l with present := pres, absent := abs, bdiRdi := hold l.bdiRdi rdi, bdiSf := hold l.bdiSf (seen dSf)
                     bdiSd := hold l.bdiSd (seen dSd) }
  let bit (until' : Nat) (on : Bool) (i : Nat) : Nat := if on || s1.now < until' then 2 ^ i else 0
  let bdi := bit l.bdiRdi rdi 0 + bit l.bdiSd (seen dSd) 1 + bit l.bdiSf (seen dSf) 2
  let s2 := ((s1.setLane n l').fset (LaneFail.fail n) new).onlyIf (!s1.laneEth n) fun s =>
    s.fset ⟨LaneKlfTxoh.reg n 6, 31, 24⟩ bdi
  if new ≠ old then s2.raise (s2.laneOwner n) 1 (laneSource n) (new + old * 256) 0 else s2

/-- The lanes that core g + 1 samples: its group's, or its cascade port's (R309). DEDUCED: log entry 30. -/
def sampledLanes (g : Nat) : List Nat := if g < 24 then (List.range 4).map (4 * g + ·) else (List.range 2).map (2 * g + 48 + ·)

/-- The number of the whole multiple of 100 us of device time that came last (R109). -/
def State.sampleNo (s : State) : Nat := s.now / (100 * tUs)

/-- Core g + 1 resumes or starts: its integration counts start again from 0 at the next sample (R110). -/
def State.countsRestart (s : State) (g : Nat) : State :=
  (s.setGroup g { s.group g with sampledAt := s.sampleNo }).forEach (sampledLanes g) fun s n =>
    s.setLane n { s.lane n with present := [], absent := [] }

/-- DEFECT_SAMPLE (R109): at a whole multiple of 100 us, or once after a change of time that skipped some, core g + 1, if it runs,
samples its enabled lanes. -/
def doDefectSample (g : Nat) (s : State) : State :=
  if !s.coreRuns (g + 1) || decide (s.sampleNo ≤ (s.group g).sampledAt) then s
  else
    ((s.setGroup g { s.group g with sampledAt := s.sampleNo }).forEach (sampledLanes g) fun s n =>
      if s.laneOn n then s.sampleLane n else s).alarm

def execDefectSample (g : SampleG) (s : State) : Out := .next (doDefectSample g s)

/-! ## Enabling and disabling (R82, R111, R134) -/

/-- The first grid instant of lane n's transmit rate at least 1 us after now (R134). -/
def State.firstGrid (s : State) (n : Nat) : Nat :=
  let r := mfFifths (s.fget (LaneKlfCfg.txRate n))
  (5 * (s.now + tUs) + r - 1) / r

/-- The transmitter restarts its framing: idle until the first grid instant, sequence 0, scrambler state all ones, any
held announcement dropped with swap_refused (R51, R66, R134, R172). -/
def State.restartFraming (s : State) (n : Nat) : State :=
  let l := s.lane n
  let held := l.tx.held.isSome
  let k := s.firstGrid n
  let s1 := s.setLane n { l with tx := { startAt := some (gridTime (s.fget (LaneKlfCfg.txRate n)) k), grid := k } }
  let s2 := s1.onlyIf held fun s =>
    ((s.stick (LaneKlfStat.swapRefused n) 1).fsetB ⟨LaneKlfTxoh.reg n 5, 17, 17⟩ false).fsetB (LaneKlfStat.swapHeld n) false
  s2

/-- The raw defects of a lane that starts (R94, R107, R121): of an Ethernet port its first lane shows LOC and LOM. -/
def State.firstDefects (s : State) (n : Nat) : Nat :=
  if !s.laneEth n then 0x1F else if (s.portLanes n).isSome then 0x1B else 0x03

/-- A lane starts: raw LOS and LOL stand without being declared, the locks above are absent, framing restarts. DESIGN CHOICE: log entry 28. -/
def State.laneUp (s : State) (n : Nat) : State :=
  let rate := s.fget (LaneKlfCfg.rxRate n)
  let s0 := s.setLane n { rx := { mfTime := gridTime rate (s.clock / mfFifths rate), winFrom := s.ticks } }
  let s1 := (s0.fset (LaneDef.defs n) (s.firstDefects n)).fset (LaneAcq.state n) 0
  let s2 := s1.stick (LaneDefIvl.ivl n) (s1.fget (LaneDef.defs n))
  if s2.laneEth n then s2 else s2.restartFraming n

/-- A lane stops: raw defects, counts, LANE_FAIL and BDI clear, with one disable event (R111, R112); its tributaries lose their
anchor, its transmitter falls idle, and its Ethernet port has no alignment. -/
def State.laneDown (s : State) (n : Nat) : State :=
  let old := s.fget (LaneFail.fail n)
  let port := s.portOf n
  let s1 := ((s.unanchorLane n).setLane n {}).fset (LaneDef.defs n) 0
  let s2 := ((((s1.fset (LaneDefIvl.ivl n) 0).fset (LaneFail.fail n) 0).fset (LaneAcq.state n) 0).fset (LaneAcq.detFmt n) 0).fsetB
    (LaneCalStat.rxSwapHeld n) false
  let s3 := ((s2.fsetB (LaneKlfStat.swapHeld n) false).fsetB (LaneKlfRxohCtl.pageValid n) false).fset ⟨LaneKlfTxoh.reg n 6, 31, 24⟩ 0
  let s4 := match port with
    | some f => (s3.rset (LaneEthStat.reg f) 0).onlyIf (f != n) fun s => s.ethDefects f
    | none => s3
  let s5 := s4.syncMismatch n
  s5.raise (s5.laneOwner n) 1 (laneSource n) (2 ^ 16 + old * 256) 0

/-- LANE_ENABLE (R82): en becomes 1; the lane starts where its group is enabled too. DESIGN CHOICE: log entry 28. DEDUCED: log entry 112. -/
def doLaneEnable (n : Nat) (s : State) : State :=
  if n ≥ 96 || s.fbit (LaneCfg.en n) then s
  else
    let s1 := s.fsetB (LaneCfg.en n) true
    if s1.laneOn n then s1.laneUp n else s1

def execLaneEnable (n : Lane) (s : State) : Out := .next (doLaneEnable n s)

/-- LANE_DISABLE (R111): en becomes 0 and the lane stops; where it was the clock lane the group clock holds (R87). -/
def doLaneDisable (n : Nat) (s : State) : State :=
  if n ≥ 96 || !s.fbit (LaneCfg.en n) then s
  else
    let was := s.laneOn n
    let s1 := s.fsetB (LaneCfg.en n) false
    (s1.onlyIf was fun s => (s.laneDown n).onlyIf (s.isClock n) fun s => s.cdrLost (n / 4) true).alarm

def execLaneDisable (n : Lane) (s : State) : Out := .next (doLaneDisable n s)

/-- The overhead FIFO is emptied and its pointers return to 0 (R414). -/
def State.fifoEmpty (s : State) (g : Nat) : State :=
  let q := s.group g
  s.setGroup g { q with wr := 0, rd := 0, mark := 0, rel := 0, noticed := 0, words := [] }

/-- FRAMING_START (R134): at its first grid instant the transmitter begins with sequence 0. DESIGN CHOICE: log entry 4. -/
def doFramingStart (n : Nat) (s : State) : State :=
  let l := s.lane n
  match l.tx.startAt with
  | none => s
  | some t =>
    if s.now < t || !s.laneEnabled n then s
    else s.setLane n { l with tx := { l.tx with startAt := none, running := true, seq := 0, slot := 5120, mfEnd := t
                                                scr := BitVec.allOnes 61, cw := [], ctlSent := false, held := none } }

def execFramingStart (n : Lane) (s : State) : Out := .next (doFramingStart n s)

end Sys2Proof.Machine
end

