-- ==== Sys2Proof/Machine/Vermilion.lean ====
section
/-! DEFINITION. Vermilion tags and their trace records (R511 to R513, R516). -/

namespace Sys2Proof.Machine

/-- The telemetry fields of a ring's argument, 0 taken as the default (R516). DEDUCED: log entry 141. -/
def State.telContent (s : State) (p r : Nat) : Nat :=
  let c := s.fget (HostRingArg.arg p r) / 2 ^ 24 % 16
  if c = 0 then 1 else c

def State.telPeriod (s : State) (p r : Nat) : Nat :=
  let c := s.fget (HostRingArg.arg p r) % 2 ^ 16
  if c = 0 then 1 else c

/-- Entries of one record put on a telemetry ring: all of them, or the record is dropped and counted (R517). -/
def State.telPush (s : State) (p r : Nat) (es : List (List Byte)) : State :=
  let g := s.ring p r
  if s.ringUsed p r + es.length ≤ s.ringSize p r then
    (s.setRing p r { g with waiting := g.waiting ++ es.map (·, false) }).fsetB (HostRingStat.busy p r) true
  else s.setRing p r { g with dropped := min 65535 (g.dropped + 1) }

/-- A delta of a stage from stage 0 in 2^-4 ns, or the mark of a stage not recorded. -/
def vtDelta (t : VtTag) (k : Nat) : List Byte :=
  match SMap.find t.stamps 0, SMap.find t.stamps k with
  | some a, some b => leBytes 4 (ofSigned 32 (((b : Int) - a) / 4096))
  | _, _ => leBytes 4 0x80000000

/-- The two entries of a trace. -/
def vtEntries (t : VtTag) (outcome : Nat) : List (List Byte) :=
  let mask := (t.stamps.map fun e => 2 ^ e.1).sum
  let serial := leBytes 2 t.serial
  let d (l : List Nat) := (l.map (vtDelta t)).flatten
  [padEntry ([0x60, 0] ++ serial ++ leBytes 1 (if t.instr then 1 else 0) ++ leBytes 1 mask ++ leBytes 2 t.unit
      ++ leBytes 12 (timeWord (SMap.getD t.stamps 0 0)) ++ d [1, 2, 3]),
   padEntry ([0xE0, 0] ++ serial ++ d [4, 5, 6, 7] ++ leBytes 1 t.approx ++ leBytes 1 outcome ++ leBytes 1 t.cause ++ [0]
      ++ leBytes 4 t.laneIn ++ (if t.instr then leBytes 4 t.word else leBytes 2 t.laneOut ++ leBytes 2 t.word))]

/-- A tag ends: its trace goes to the lowest-numbered enabled telemetry ring whose content asks for traces, or is counted
as lost (R513, R516). -/
def State.vtEnd (s : State) (p : Nat) (t : VtTag) (outcome : Nat) : State :=
  let q := s.part p
  let s1 := (s.setPart p { q with vtTags := q.vtTags.filter fun x => x.serial != t.serial }).fset (PerfVtStat.inflight p)
    (q.vtTags.length - 1)
  let s2 := s1.perfHit p 0x10 0 1
  match (List.range 64).find? fun r => s2.ringIs p r 5 && (s2.telContent p r).testBit 3 with
  | some r => s2.telPush p r (vtEntries t outcome)
  | none => s2.fsat (PerfVtStat.lost p) 1

/-- The next state of the tagging LFSR: x^32 + x^22 + x^2 + x + 1 (R511). DEDUCED: log entry 60. -/
def vtNext (x : Nat) : Nat :=
  let fb := ((x.testBit 31 != x.testBit 21) != x.testBit 1) != x.testBit 0
  x * 2 % 2 ^ 32 + (if fb then 1 else 0)

/-- Tags in flight in the whole device. -/
def State.vtCount (s : State) : Nat := ((List.range 16).map fun p => (s.part p).vtTags.length).sum

/-- A candidate item of partition p: it is tagged when the low rate_exp bits are 0 and a tag is free. DEDUCED: log entry 60. -/
def State.vtCandidate (s : State) (p : Nat) (instr : Bool) (unit : Nat) (mk : Nat → VtTag) : State :=
  let sel := if instr then s.fget (PerfVtCfg.core p) == unit
    else s.fget (PerfVtCfg.trib p) == 0xFFF || s.fget (PerfVtCfg.trib p) == unit
  if !s.fbit (PerfVtCfg.en p) || s.fbit (PerfVtCfg.kind p) != instr || !sel then s
  else
    let q := s.part p
    let x := vtNext q.vtLfsr
    let s1 := s.setPart p { q with vtLfsr := x }
    if x % 2 ^ s.fget (PerfVtCfg.rateExp p) ≠ 0 then s1
    else if q.vtTags.length ≥ 4 || s.vtCount ≥ 64 then s1.fsat (PerfVtStat.skipped p) 1
    else
      (s1.setPart p { q with vtLfsr := x, vtSerial := (q.vtSerial + 1) % 65536, vtTags := q.vtTags ++ [mk q.vtSerial] }).fset
        (PerfVtStat.inflight p) (q.vtTags.length + 1)

/-- The bound of an approximate stamp's delay, 12.8 ns, in 2^-16 ns. -/
def vtSync : Nat := 838861

/-- A stamp of a stage: exact (R23, R67), or taken in the core and up to 12.8 ns late, the delay being open (R512). DESIGN CHOICE: log entry 27. -/
def State.vtStamp (s : State) (exact : Bool) : Nat × State :=
  if exact then s.stamp else let (d, s1) := s.free 32; (s.now + d % vtSync, s1)

/-- The tag of a grain in flight. -/
def State.vtFind (s : State) (p trib instant idx : Nat) : Option VtTag :=
  (s.part p).vtTags.find? fun t => !t.instr && t.unit == trib && t.instant == instant && t.idx == idx

/-- A tag replaced by its serial. -/
def State.vtPut (s : State) (p : Nat) (t : VtTag) : State :=
  let q := s.part p
  s.setPart p { q with vtTags := q.vtTags.map fun x => if x.serial = t.serial then t else x }

/-- A grain passes a stage. -/
def State.vtGrain (s : State) (t instant idx stage : Nat) (exact : Bool) : State :=
  let p := s.tribOwner t
  match s.vtFind p (s.tribLocal t) instant idx with
  | none => s
  | some g =>
    let (x, s1) := s.vtStamp exact
    s1.vtPut p { g with stamps := SMap.ins g.stamps stage x, approx := if exact then g.approx else g.approx ||| 2 ^ stage }

/-- A grain's tag ends with an outcome. -/
def State.vtGrainEnd (s : State) (t instant idx outcome cause : Nat) : State :=
  let p := s.tribOwner t
  match s.vtFind p (s.tribLocal t) instant idx with
  | none => s
  | some g => s.vtEnd p { g with cause := cause } outcome

/-- A received grain is a candidate; a tagged one has passed stage 0, at the receive balls, and stage 1. A grain that came through no
balls passes neither. DEDUCED: log entry 60. -/
def State.vtArrive (s : State) (t lane instant idx : Nat) (arrival : Option Nat) : State :=
  let s1 := s.vtCandidate (s.tribOwner t) false (s.tribLocal t) fun serial =>
    { serial := serial, instr := false, unit := s.tribLocal t, instant := instant, idx := idx, laneIn := lane
      stamps := match arrival with | some a => [(0, a)] | none => [] }
  s1.onlyIf arrival.isSome fun s => s.vtGrain t instant idx 1 true

/-- The tags of a tributary that is disabled end as aborted. -/
def State.vtAbort (s : State) (p : Nat) (instr : Bool) (unit : Nat) : State :=
  ((s.part p).vtTags.filter fun t => t.instr == instr && t.unit == unit).foldl (fun s t => s.vtEnd p t 3) s

end Sys2Proof.Machine
end

