-- ==== Sys2Proof/Machine/Demap.lean ====
section
/-! DEFINITION. The demapper (R135 to R149, R309 to R312), the verification and comparison of merged copies (R239 to R243)
and the defect windows of tributaries (R149). -/

namespace Sys2Proof.Machine

/-! ## Tributary defects (R149) -/

/-- Defects of a multiframe or packet of tributary t: recorded, made sticky, and joined to the defect window, which they
open where none is open. The bits of `keep` in TRIB_DEF stay as they are. -/
def State.tribDefects (s : State) (t bits keep : Nat) : State :=
  let old := s.fget (TribDef.defs t)
  let s1 := (s.fset (TribDef.defs t) (bits ||| (old &&& keep))).stick (TribDefStky.stky t) bits
  if bits = 0 then s1
  else
    let r := s1.trib t
    let w := match r.defWin with
      | none => (s1.now, bits, 1)
      | some (st, b, k) => (st, b ||| bits, k + 1)
    s1.setTrib t { r with defWin := some w }

/-- The defects of the receive side: SEQ, TCRC, ORNG and UPD; LATE and EARLY stay. -/
def State.rxDefects (s : State) (t bits : Nat) : State := s.tribDefects t bits 0x18

/-- A destination as a number. -/
def destCode : Dest → Nat
  | .klf n => n
  | .cascade n => 96 + n
  | .eth p => 128 + p
  | .capture r => 256 + r

/-- The multiframe, packet or captured unit x of a destination. -/
def carrierKey (d : Dest) (x : Nat) : Nat := x * 1024 + destCode d

/-- LATE (bit 3) or EARLY (bit 4) of the multiframe or packet k that carries a substituted unit (R198): raw where it is the last
one started, sticky, and in the defect window, which counts the multiframe once (R149). -/
def State.txDefect (s : State) (t bit k : Nat) : State :=
  let r := s.trib t
  let old := SMap.getD r.txDefs k 0
  if old.testBit bit then s
  else
    let s1 := (s.setTrib t { r with txDefs := SMap.ins r.txDefs k (old ||| 2 ^ bit) }).stick (TribDefStky.stky t) (2 ^ bit)
    let s2 := s1.onlyIf (k == r.txLast) fun s => s.fset (TribDef.defs t) (s.fget (TribDef.defs t) ||| 2 ^ bit)
    let q := s2.trib t
    s2.setTrib t { q with defWin := some (match q.defWin with
      | none => (s2.now, 2 ^ bit, 1)
      | some (st, b, c) => (st, b ||| 2 ^ bit, if old = 0 then c + 1 else c)) }

/-- The multiframe or packet k starts: TRIB_DEF shows its LATE and EARLY (R149). -/
def State.txStarts (s : State) (t k : Nat) : State :=
  let r := s.trib t
  (s.setTrib t { r with txLast := k }).fset (TribDef.defs t) (s.fget (TribDef.defs t) &&& 0x27 ||| SMap.getD r.txDefs k 0)

/-- TRIB_DEF_WINDOW_END (R149): 1 ms after it opened, the window of a tributary ends with one event. -/
def doTribDefWindowEnd (t : Nat) (s : State) : State :=
  let r := s.trib t
  match r.defWin with
  | none => s
  | some (st, bits, k) =>
    if s.now < st + tMs then s
    else (s.setTrib t { r with defWin := none }).raiseAt (s.tribOwner t) 2 (s.tribLocal t) (bits + min 65535 k * 2 ^ 16) 0 st

def execTribDefWindowEnd (t : TribN) (s : State) : Out := .next (doTribDefWindowEnd t s)

/-! ## Copies -/

/-- A copy of a tributary: 0 A, 1 B. DEDUCED: log entry 23. -/
def TribSt.copy (r : TribSt) (c : Nat) : CopySt := if c = 0 then r.copyA else r.copyB

def TribSt.setCopy (r : TribSt) (c : Nat) (v : CopySt) : TribSt := if c = 0 then { r with copyA := v } else { r with copyB := v }

/-- The tributary is merged: merge takes effect for KLF sources only (R239). -/
def State.merged (s : State) (t : Nat) : Bool := s.fbit (TribCfg.merge t) && s.fget (TribCfg.src t) == 0

/-- The copy that lane n carries of tributary t, if t is received there (R124, R239). -/
def State.copyOf (s : State) (t n : Nat) : Option Nat :=
  let src := s.fget (TribCfg.src t)
  if src = 0 ∧ n < 96 then
    if s.merged t then
      if s.fget (ProtMrgCfg.laneA t) = n then some 0 else if s.fget (ProtMrgCfg.laneB t) = n then some 1 else none
    else some 0
  else if src = 4 ∧ 96 ≤ n then some 0
  else none

/-- TRIB_AGE in 2^-16 ns. -/
def State.tribAge (s : State) (t : Nat) : Nat := s.fwide (TribAgeLo.ageLo t) (TribAgeHi.ageHi t)

/-! ## Head (R145, R146) -/

/-- A head block is good (R145). -/
def State.goodHead (s : State) (t c : Nat) (b : SlotBlock) : Bool :=
  let p := b.payload
  let n := pbits p 32 20
  b.control && !b.errored && pbits p 7 0 == 0x1E && headCheck p == pbits p 63 61 && pbits p 19 8 == s.fget (TribId.rxId t)
    && pbits p 36 33 == s.tfmt t && decide (n ≤ c) && n % unitGrains (s.tfmt t) == 0
    && (n != 0 || pbits p 60 37 == 0xFFFFFF)

/-- The next unit of duration u (2^-32 ns) on the grid of a unit at `last` that is at or after `mf` (R146). -/
def nextOnGrid (u last mf : Nat) : Nat :=
  last + to16 (max 1 (((mf - last) * 65536 + u - 1) / max 1 u) * u)

/-- The first carried unit's stated instant: the value congruent to time_off modulo 2^24 nearest the prediction. -/
def nearestFirst (mf pred timeOff : Nat) : Nat :=
  let p : Int := (pred : Int) - mf
  let d : Int := (p - timeOff) % 2 ^ 24
  let f : Int := if 2 * d ≤ 2 ^ 24 then p - d else p - d + 2 ^ 24
  (mf + f).toNat

/-- The stated instant at which an anchored copy places the first unit of a multiframe. DEDUCED: log entry 31. -/
def State.placeFirst (s : State) (t : Nat) (c : CopySt) (mf : Nat) (good : Bool) (timeOff : Nat) : Nat :=
  match c.lastUnit with
  | none => mf + timeOff
  | some u =>
    let pred := nextOnGrid (s.unitDur t) u mf
    if good then nearestFirst mf pred timeOff else pred

/-- A head slot: gcount and F are taken from a good head; otherwise the count of the previous multiframe applies, reduced
to a multiple of g that fits (R147). DEDUCED: log entry 23. DEDUCED: log entry 21. -/
def State.demapHead (s : State) (t k n c : Nat) (b : SlotBlock) : State :=
  let r := s.trib t
  let cp := r.copy k
  let g := unitGrains (s.tfmt t)
  let good := s.goodHead t c b
  let fit := min cp.prevCount c / g * g
  let count := if good then pbits b.payload 32 20 else fit
  let off := pbits b.payload 60 37
  let cp' := { cp with lane := some n, headGood := good, gcount := count, timeOff := off, acc := c / 2, placed := 0, unit := [], defective := false
                       errGrains := 0, ranged := false, fed := (payloadBytes b.payload).drop 1
                       first := s.placeFirst t cp b.mfTime good off
                       lastGoodHead := if good then some s.now else cp.lastGoodHead }
  let s1 := s.setTrib t (r.setCopy k cp')
  let s2 := s1.onlyIf good fun s => s.fset (TribStat.gcount t) count
  s2.onlyIf (!s.merged t) fun s => s.bump .trib t (if good then 0 else 3) 1

/-! ## Grains (R147, R148) -/

/-- The grains of a received unit as delivered: the codes of errored grains blank, each marked blank where it holds such a code or is a
blank grain as received (R148). -/
def deliverUnit (fmt : Nat) (gs : List (BitVec 64 × Bool)) : List (BitVec 64 × Bool) :=
  let u := ofGrains (gs.map Prod.fst)
  let bad (i : Nat) : Bool := ((gs[i]?).map Prod.snd).getD false
  let u' := blankWhere fmt u fun k => codeTouches fmt k bad
  let cut (i : Nat) : Bool := (List.range (unitCodes fmt)).any fun k => codeTouches fmt k bad && codeTouches fmt k (· == i)
  (List.range gs.length).map fun i => (unitGrain u' i, cut i || unitGrain u' i == blankGrain fmt i)

/-- The arrival lag of a unit whose last grain arrived at the stated time joins the tributary's probe (R174, R175). DEDUCED: log entry 21. -/
def State.noteLag (s : State) (t instant arrival : Nat) : State :=
  let r := s.trib t
  let lag : Int := (arrival : Int) - instant
  let v := match r.lag with
    | none => (lag, lag)
    | some (lo, hi) => (min lo lag, max hi lag)
  s.setTrib t { r with lag := some v, lastUnitAt := some s.now }

/-- A unit received by a copy goes to the slot fabric (R146, R147) through the ingress boundary of its lane (R22): at its sample instant,
unless its copy is unanchored or its entry monitors. -/
def State.deliverRx (s : State) (t k n : Nat) (stated mf arrival : Nat) (mon anchored : Bool) (gs : List (BitVec 64 × Bool)) : State :=
  if !anchored then s
  else
    let inst := stated - s.tribAge t
    let s1 := s.noteLag t inst arrival
    if mon then s1
    else
      let r := s1.trib t
      let new := (deliverUnit (s.tfmt t) gs).zipIdx.map fun e =>
        ({ instant := inst, idx := e.2, payload := e.1.1, blank := e.1.2, copy := k, mf := mf, arrival := arrival, lane := some n } : InGrain)
      new.foldl (fun s g => s.vtArrive t n inst g.idx (some arrival)) (s1.setTrib t { r with fab := r.fab ++ new })

/-- The ingress boundary of lane n, of 32 blocks, shows no room for one more unit (R22): its flag is pessimistic by a synchroniser lag of
0 to 3. DESIGN CHOICE: log entry 203. -/
def State.ingressFull (s : State) (n g : Nat) : Bool × State :=
  let used := (s.tribs.map fun e => (e.2.fab.filter fun x => x.lane == some n).length).sum
  if used + g + 3 ≤ 32 then (false, s)
  else let (lag, s1) := s.free 2; (decide (32 < used + g + lag), s1)

/-- A grain slot: a grain or fill by the rate rule (R142). DESIGN CHOICE: log entry 26. -/
def State.demapGrain (s : State) (t k n c : Nat) (b : SlotBlock) (mon : Bool) : State :=
  let r := s.trib t
  let cp := r.copy k
  let fmt := s.tfmt t
  let (carries, acc) := rateStep c cp.gcount cp.acc
  if !carries then s.setTrib t (r.setCopy k { cp with acc := acc })
  else
    let bad := b.errored || b.control
    let unit := cp.unit ++ [(b.payload, bad || !cp.headGood)]
    let full := unit.length = unitGrains fmt
    let m := cp.placed / unitGrains fmt
    let stated := cp.first + to16 (m * s.unitDur t)
    let cp' := { cp with acc := acc, placed := cp.placed + 1, unit := if full then [] else unit
                         fed := cp.fed ++ payloadBytes b.payload, defective := cp.defective || bad
                         errGrains := cp.errGrains + (if bad then 1 else 0)
                         ranged := cp.ranged || (fmt % 8 == 0 && !bad && rangeFlag b.payload)
                         lastUnit := if full && cp.anchored then some stated else cp.lastUnit }
    let s1 := s.setTrib t (r.setCopy k cp')
    let s2 := s1.onlyIf (!s.merged t) fun s => (s.bump .trib t 1 1).bump .trib t 2 (if bad && cp.anchored then 1 else 0)
    if full then s2.deliverRx t k n stated ((cp.seq + 1) % 2 ^ 32) b.arrival mon cp.anchored unit else s2

/-! ## Merged copies (R241 to R243) -/

/-- The key of copy k of multiframe seq. -/
def mfKey (seq k : Nat) : Nat := seq * 2 + k

/-- The comparison of the two copies of a multiframe (R242): equal counts, and first instants, or times where there is no
grain, within half a sample period. DEDUCED: log entry 31. -/
def State.agree (s : State) (t : Nat) (a b : MfRec) : Bool :=
  let (x, y) := if a.gcount = 0 then (a.mfTime, b.mfTime) else (a.first, b.first)
  let d := (x - y) + (y - x)
  a.gcount == b.gcount && decide (2 * d * 65536 ≤ s.period t)

/-- Both copies of a multiframe are verified good: copy B's service follows from the comparison (R243). -/
def State.compareCopies (s : State) (t seq : Nat) : State :=
  let r := s.trib t
  match SMap.find r.mfRecs (mfKey seq 0), SMap.find r.mfRecs (mfKey seq 1) with
  | some a, some b =>
    if !(a.good && b.good) then s
    else
      let c := r.copyB
      let ev (s : State) (d : Nat) : State := s.raise (s.tribOwner t) 6 (s.tribLocal t) d 0
      if s.agree t a b then
        let n := c.agreed + 1
        if c.outOfService && n ≥ 16 then
          ev (s.setTrib t { r with copyB := { c with mismatches := 0, agreed := 0, outOfService := false } }) 2
        else s.setTrib t { r with copyB := { c with mismatches := 0, agreed := n } }
      else
        let n := c.mismatches + 1
        let out := n ≥ 3
        let s1 := ((s.setTrib t { r with copyB := { c with mismatches := n, agreed := 0, outOfService := c.outOfService || out } }).bump
          .prot t 7 1).stick (ProtMrgStat.mism t) 1
        if out && !c.outOfService then ev (s1.bump .prot t 11 1) 1 else s1
  | _, _ => s

/-- The record of a merged copy's multiframe, kept until half the sequence space has passed. DESIGN CHOICE: log entry 26. -/
def State.recordMf (s : State) (t k seq : Nat) (m : MfRec) : State :=
  let r := s.trib t
  let old := (seq + 2 ^ 31) % 2 ^ 32
  let recs := SMap.ins (SMap.del (SMap.del r.mfRecs (mfKey old 0)) (mfKey old 1)) (mfKey seq k)
    { m with order := r.mfOrder, verifiedAt := s.ticks }
  (s.setTrib t { r with mfRecs := recs, mfOrder := r.mfOrder + 1, decisions := SMap.del r.decisions old }).compareCopies t seq

/-! ## Trail (R145 to R147) -/

/-- A span of sample instants in which n codes (0 for a number not stated) were overrange upstream; spans older than 50 ms are gone. -/
def State.noteOvr (s : State) (t first last n : Nat) : State :=
  let r := s.trib t
  s.setTrib t { r with ovr := (first, last, n) :: r.ovr.filter fun x => decide (s.now ≤ x.2.1 + 50 * tMs) }

/-- A trail slot: the multiframe is verified, its defects follow, and the anchor is set, kept or lost. A trail that is errored or whose
tcrc is wrong raises TCRC alone, whatever its seq and F. DEDUCED: log entry 205. -/
def State.demapTrail (s : State) (t k n : Nat) (b : SlotBlock) : State :=
  let r := s.trib t
  let cp := r.copy k
  let p := b.payload
  let bytes := payloadBytes p
  let crcOk := !b.errored && !b.control && crc16 (cp.fed ++ bytes.take 4 ++ bytes.drop 6) == pbits p 47 32
  let seq := pbits p 31 0
  let f := pbits p 61 56 * 2 ^ 24 + cp.timeOff
  let next := (cp.seq + 1) % 2 ^ 32
  let agrees := !cp.anchored || (seq == next && (cp.gcount == 0 || b.mfTime + f == cp.first))
  let seqDef := !cp.headGood || (crcOk && !agrees)
  let good := crcOk && agrees
  let tagged := s.tfmt t % 8 == 0
  let ovr := if good && !tagged && cp.anchored then pbits p 55 48 else 0
  let orng := if tagged then cp.ranged else good && pbits p 55 48 != 0
  let upd := good && p.toNat.testBit 62
  let defs := (if seqDef then 1 else 0) + (if crcOk then 0 else 2) + (if orng then 4 else 0) + (if upd then 32 else 0)
  let verified := cp.headGood && good
  let last := if cp.gcount = 0 then cp.lastUnit
    else some (b.mfTime + f + to16 ((cp.gcount / unitGrains (s.tfmt t) - 1) * s.unitDur t))
  let age := s.tribAge t
  let endU := cp.first + to16 ((cp.gcount / unitGrains (s.tfmt t) - 1) * s.unitDur t)
  let cp' := { cp with prevCount := cp.gcount, lane := some n, defective := false, headGood := false, unit := []
                       anchored := if seqDef then false else cp.anchored || verified
                       lastUnit := if !cp.anchored && verified then last else cp.lastUnit
                       seq := if cp.anchored then next else if verified then seq else cp.seq }
  let s1 := (s.setTrib t (r.setCopy k cp')).syncAnchor t
  let s2 := s1.onlyIf good fun s => s.fset (TribRxSeq.seq t) seq
  if s.merged t then
    if cp.anchored then
      s2.recordMf t k (if crcOk then seq else next)
        { good := verified && !cp.defective, gcount := cp.gcount, first := cp.first, mfTime := b.mfTime, defs := defs, headGood := cp.headGood
          errGrains := cp.errGrains, last := endU, ovr := ovr }
    else s2
  else
    let s3 := s2.onlyIf (ovr != 0) fun s => s.noteOvr t (cp.first - age) (endU - age) ovr
    (((((s3.rxDefects t defs).bump .trib t 4 (defs % 2)).bump .trib t 5 (defs / 2 % 2)).bump .trib t 6 (defs / 4 % 2)).bump
      .trib t 7 (defs / 32)).bump .trib t 8 (if cp.anchored then 0 else 1)

/-- The place of slot x in its multiframe, in fifths of 2^-16 ns: 82 blocks to a codeword of 80 slots (R52, R60). -/
def slotFifths (rate x : Nat) : Nat := mfFifths rate * (x / 80 * 82 + x % 80) / 5248

/-- A slot of merged tributary t on lane n, which carries neither copy: its grains are discarded and counted (R239), told from fill by the
head and the rate rule. -/
def State.strayGrain (s : State) (t n c : Nat) (kind : SlotKind) (b : SlotBlock) : State :=
  let r := s.trib t
  let (count, acc) := SMap.getD r.strays n (0, 0)
  match kind with
  | .head =>
    let m := if s.goodHead t c b then pbits b.payload 32 20 else min count c
    s.setTrib t { r with strays := SMap.ins r.strays n (m, c / 2) }
  | .grain _ =>
    let (carries, acc') := rateStep c count acc
    s.setTrib t { r with strays := SMap.ins r.strays n (count, acc'), stray := r.stray + (if carries then 1 else 0) }
  | _ => s

/-- While lane n, which is on, has no multiframe lock, its slots still reach the demapper, each errored, at the pace of the last lock's
positions (R99): the next one once its place in time has passed. DESIGN CHOICE: log entry 206. -/
def State.erroredSlot (s : State) (n : Nat) : State :=
  let l := s.lane n
  let x := l.rx.flyNo
  let rate := s.fget (LaneKlfCfg.rxRate n)
  if !s.laneOn n || !s.lanePowered n || s.laneEth n || s.mfLocked n || decide (s.clock < 5 * l.rx.mfTime + slotFifths rate x) then s
  else
    let b : SlotBlock := { slot := x, bank := s.fget (LaneCalStat.rxActive n), mfTime := l.rx.mfTime, control := false, payload := 0
                           errored := true, arrival := s.now }
    let last := x + 1 = 5120
    let time := if last then gridTime rate (gridIndex rate l.rx.mfTime + 1) else l.rx.mfTime
    (s.bump .lane n 11 1).setLane n { l with rx := { l.rx with slots := [b], flyNo := if last then 0 else x + 1, mfTime := time } }

/-- The oldest received slot of lane n is demapped by the bank of its multiframe. A cascade lane's reserved slots hold control cells
(R312). -/
def State.demapNext (s : State) (n : Nat) : State :=
  let l := s.lane n
  match l.rx.slots with
  | [] => s
  | b :: bs =>
    let s0 := s.setLane n { l with rx := { l.rx with slots := bs } }
    if 96 ≤ n ∧ (b.slot % 80 = 20 ∨ b.slot % 80 = 60) then
      if b.control then { s0 with cellsIn := s0.cellsIn ++ [⟨n - 96, b.payload, b.errored⟩] } else s0
    else
      let (w, s1) := s0.treadN (s0.laneOwner n) (calBase n 0 b.bank + 4 * b.slot) 4 n 5
      match w.map calEntry with
      | none => s1
      | some e =>
        if !e.valid then s1
        else
          match s1.calTrib n e with
          | none => s1
          | some t =>
            if !s1.fbit (TribCfg.en t) then s1
            else
              let slots := s1.slotsOf n 0 b.bank t
              let c := (grainSlots slots).length
              match s1.copyOf t n, slotKind slots b.slot with
              | none, kind => s1.strayGrain t n c kind b
              | some _, .lead => s1
              | some k, .head => s1.demapHead t k n c b
              | some k, .grain _ =>
                let (full, s2) := s1.ingressFull n (unitGrains (s1.tfmt t))
                if full then { s with fresh := s2.fresh } else s2.demapGrain t k n c b e.mon
              | some k, .trail => s1.demapTrail t k n b

/-- DEMAP_SLOT (R147): the oldest slot of lane n is demapped; it waits while the ingress boundary has no room for its unit. -/
def doDemapSlot (n : Nat) (s : State) : State :=
  (s.onlyIf (s.lane n).rx.slots.isEmpty fun s => s.erroredSlot n).demapNext n

def execDemapSlot (n : Lane) (s : State) : Out := .next (doDemapSlot n s)

end Sys2Proof.Machine
end

