-- ==== Sys2Proof/Machine/ReleaseOps.lean ====
section
/-! DEFINITION. What release rests on: windows over sample instants (R176 to R179), the egress grid (R183), the egress slot
of a grain (R135, R142), the selection between merged copies (R244 to R251) and the reads of held grains (R199, R424,
R425). -/

namespace Sys2Proof.Machine

/-! ## Windows (R176 to R179) -/

/-- The start and end of a window, in 2^-16 ns. -/
def State.winTime (s : State) (f : Nat → FRef) : Nat := s.fget (f 0) + s.fget (f 1) * 2 ^ 32 + s.fget (f 2) * 2 ^ 64

def State.winStart (s : State) (w : Nat) : Nat := timeOf (s.winTime (WinStart.start w))
def State.winEnd (s : State) (w : Nat) : Nat := timeOf (s.winTime (WinEnd.endT w))

/-- The repeat period of a window; 0 for a single occurrence. -/
def State.winPeriod (s : State) (w : Nat) : Nat := s.fwide (WinPerLo.perLo w) (WinPerHi.perHi w)

/-- An instant lies in an occurrence of window w (R176, R178). -/
def State.winContains (s : State) (w i : Nat) : Bool :=
  let a := s.winStart w
  let len := s.winEnd w - a
  let p := s.winPeriod w
  let n := s.fget (WinCount.count w)
  if i < a then false
  else if p = 0 then decide (i - a < len)
  else decide ((i - a) % p < len) && (n == 0 || decide ((i - a) / p < n))

/-- Window w has tributary t in its scope (R177). -/
def State.winCovers (s : State) (w t : Nat) : Bool :=
  s.winOwner? w == s.tribOwner? t &&
    (match s.fget (WinCfg.scope w) with
     | 0 => s.fget (WinCfg.target w) == s.tribLocal t
     | 1 => s.fbit (TribCfg.inBundle t) && s.fget (TribCfg.bundle t) == s.fget (WinCfg.target w) % 256
     | _ => true)

/-- An enabled window of a kind with t in scope contains the instant. -/
def State.inWindow (s : State) (kind t i : Nat) : Bool :=
  (List.range 256).any fun w =>
    s.fbit (WinCfg.en w) && s.fget (WinCfg.kind w) == kind && s.winCovers w t && s.winContains w i

/-! ## The egress grid (R183) -/

/-- The release destination that lane n is. -/
def laneDest (n : Nat) : Dest := if n < 96 then .klf n else .cascade (n - 96)

/-- A destination is a capture ring. -/
def isCaptureDest : Dest → Bool
  | .capture _ => true
  | _ => false

/-- A substitution that sets dfct: every cause but none (0) and a window (5) (R199). Cause 6 is a blank spread from
another bundle member (R187). -/
def substituted (cause : Nat) : Bool := cause != 0 && cause != 5

/-- Release time k of a tributary's egress grid of units. -/
def State.gridPoint (s : State) (t r0 k : Nat) : Nat := r0 + to16 (k * s.unitDur t)

/-- The first grid index at or after a time. -/
def State.gridFrom (s : State) (t r0 time : Nat) : Nat :=
  if time ≤ r0 then 0 else
    let k := (time - r0) * 65536 / max 1 (s.unitDur t)
    if time ≤ s.gridPoint t r0 k then k else k + 1

/-- The distance of two times. -/
def dist (a b : Nat) : Nat := (a - b) + (b - a)

/-- A release time takes a grid point: it lies less than half a sample period from it. -/
def State.takesPoint (s : State) (t point rel : Nat) : Bool := decide (2 * dist point rel * 65536 < s.period t)

/-- The sample grid point nearest a release time, and whether the release time takes it. -/
def State.samplePoint (s : State) (t r0 rel : Nat) : Nat × Bool :=
  let p := max 1 (s.period t)
  let j := (2 * dist rel r0 * 65536 + p) / (2 * p)
  let point := if r0 ≤ rel then r0 + to16 (j * p) else r0 - to16 (j * p)
  (point, s.takesPoint t point rel)

/-- Release times that a budget increase leaves without units: [tau, tau + L1 - L0) (R191). -/
def State.inGap (s : State) (t rel : Nat) : Bool :=
  let r := s.trib t
  match r.oldL, r.adm with
  | some (l0, tau), some a => decide (tau ≤ rel ∧ rel + l0 < tau + a.l)
  | _, _ => false

/-- The enabled members of the bundle of tributary t, ascending, in t's partition (R126, R212). DESIGN CHOICE: log entry 223. -/
def State.bundleMembers (s : State) (t : Nat) : List Nat :=
  (List.range 4096).filter fun u =>
    s.fbit (TribCfg.en u) && s.fbit (TribCfg.inBundle u) && s.fget (TribCfg.bundle u) == s.fget (TribCfg.bundle t)
      && s.tribOwner? u == s.tribOwner? t

/-- The tributaries that share t's egress grid: t, or the members of its bundle (R187). -/
def State.gridShare (s : State) (t : Nat) : List Nat := if s.fbit (TribCfg.inBundle t) then s.bundleMembers t else [t]

/-- The release times of the held units of a tributary. -/
def State.heldTimes (s : State) (t : Nat) : List Nat := ((s.trib t).held.filter fun g => !g.early).map BufGrain.rel

/-- The grid x is in force for the tributaries that share t's. -/
def State.setGrid (s : State) (t x : Nat) : State :=
  s.forEach (s.gridShare t) fun s u => s.setTrib u { s.trib u with grid := some x, rebase := none }

/-- The grid in force: the one kept, or one fixed by the earliest held unit with a release time in the range, of any tributary that
shares it (R183, R187). -/
def State.fixGrid (s : State) (t lo hi : Nat) : State :=
  match (s.trib t).grid with
  | some _ => s
  | none =>
    match ((s.gridShare t).flatMap s.heldTimes).filter (fun x => decide (lo ≤ x ∧ x < hi)) with
    | [] => s
    | x :: xs => s.setGrid t (xs.foldl min x)

/-- A re-base that falls before `hi` takes place. -/
def State.takeRebase (s : State) (t hi : Nat) : State :=
  match (s.trib t).rebase with
  | some x => if x < hi then s.setGrid t x else s
  | none => s

/-- The units of a tributary in a window: how many (at most cap), the first one's offset F (R140) and its grid index. -/
def State.windowUnits (s : State) (t lo hi cap : Nat) : Nat × Nat × Nat :=
  match (s.trib t).grid with
  | none => (0, 2 ^ 30 - 1, 0)
  | some r0 =>
    let k0 := s.gridFrom t r0 lo
    let ks := (List.range (s.gridFrom t r0 hi - k0)).map (k0 + ·)
    let run := (ks.dropWhile fun k => s.inGap t (s.gridPoint t r0 k)).takeWhile fun k => !s.inGap t (s.gridPoint t r0 k)
    match run with
    | [] => (0, 2 ^ 30 - 1, 0)
    | k :: _ => let c := min cap run.length; if c = 0 then (0, 2 ^ 30 - 1, 0) else (c, s.gridPoint t r0 k - lo, k)

/-! ## The egress slot of a grain -/

/-- The time from a multiframe's start to its slot x, in 2^-16 ns. -/
def slotOffset (rate x : Nat) : Nat := slotFifths rate x / 5

/-- The multiframe of a rate's grid whose window holds a time (R140). -/
def windowIndex (rate time : Nat) : Nat :=
  let m := (5 * time + 4) / mfFifths rate
  if gridTime rate m ≤ time then m else m - 1

/-- The transmit bank of lane n in force for multiframe k of its grid: a held swap due by then counts (R69). -/
def State.txBankFor (s : State) (n k : Nat) : Nat :=
  let l := s.lane n
  let b := s.calActive n 1
  match l.tx.held with
  | some x => if l.tx.grid ≤ k ∧ (x + 2 ^ 32 - l.tx.seq) % 2 ^ 32 ≤ k - l.tx.grid then 1 - b else b
  | none => b

/-- The read lead of R545, which is also the time of the write. -/
def State.readLead (s : State) : Nat := if s.fget GlbPace.mode = 1 then 157286 else 104857

/-- When the release scheduler reads grain idx of the unit at grid index k for lane n: its egress slot less the read lead
(R196); none where the multiframe does not carry the unit. -/
def State.laneReadAt (s : State) (n t r0 k idx : Nat) : Option Nat :=
  let rate := s.fget (LaneKlfCfg.txRate n)
  let rel := s.gridPoint t r0 k
  let j := windowIndex rate rel
  let lo := gridTime rate j
  let slots := grainSlots (s.slotsOf n 1 (s.txBankFor n j) t)
  let g := unitGrains (s.tfmt t)
  let (units, _, k0) := s.windowUnits t lo (gridTime rate (j + 1)) (slots.length / g)
  if k < k0 ∨ k0 + units ≤ k then none
  else
    ((grainPlaces slots.length (units * g))[(k - k0) * g + idx]?).bind fun i =>
      (slots[i]?).map fun x => lo + slotOffset rate x - s.readLead

/-! ## Protection selection (R244 to R251) -/

/-- The command that selects copies: the held one, or the one that received requests imply (R251); of like requests on both lanes the one
on copy A's counts. DESIGN CHOICE: log entry 207. -/
def State.mergeCommand (s : State) (t : Nat) : Nat × Nat :=
  let c := s.fget (ProtMrgCfg.cmd t)
  if c ≠ 0 then (c, 0)
  else if !s.fbit (ProtMrgCfg.honour t) then (0, 0)
  else
    let ra := s.fget (ProtLane.rxReq (s.fget (ProtMrgCfg.laneA t)))
    let rb := s.fget (ProtLane.rxReq (s.fget (ProtMrgCfg.laneB t)))
    if ra = 2 then (5, 2) else if rb = 2 then (6, 2) else if ra = 1 then (2, 1) else if rb = 1 then (1, 1) else (0, 0)

/-- A copy may be used under a command: FORCE names the only one, LOCKOUT excludes one. -/
def copyUsable (cmd k : Nat) : Bool :=
  match cmd with
  | 3 => k == 0 | 4 => k == 1 | 5 => k == 1 | 6 => k == 0 | _ => true

/-- The copy preferred by a command, for a multiframe without a good copy (R246). -/
def preferred (cmd : Nat) : Nat := match cmd with | 2 => 1 | 4 => 1 | 5 => 1 | _ => 0

/-- A copy is good for multiframe seq (R241); a FORCE or LOCKOUT command overrides the out-of-service rule for the copy it
names (R243). -/
def State.copyGood (s : State) (t seq k cmd : Nat) : Bool :=
  match SMap.find (s.trib t).mfRecs (mfKey seq k) with
  | some m => m.good && !(k == 1 && (s.trib t).copyB.outOfService && cmd != 4 && cmd != 6)
  | none => false

/-- The condition code of a copy in a multiframe (R252). -/
def State.copyCond (s : State) (t seq k cmd : Nat) : Nat :=
  match SMap.find (s.trib t).mfRecs (mfKey seq k) with
  | none => 2
  | some m => if s.copyGood t seq k cmd then 0 else if m.good then 3 else 1

/-- The copy verified first (R244). Copies verified in the same handshake go to copy A: in one tick they may have been, which is open.
DESIGN CHOICE: log entry 209. -/
def State.firstGood (s : State) (t seq : Nat) : Nat × State :=
  match SMap.find (s.trib t).mfRecs (mfKey seq 0), SMap.find (s.trib t).mfRecs (mfKey seq 1) with
  | some a, some b =>
    if a.order < b.order then (0, s)
    else if a.verifiedAt = b.verifiedAt then let (same, s1) := s.freeB; (if same then 0 else 1, s1)
    else (1, s)
  | _, _ => (0, s)

/-- The choice between two good copies (R244): the command, else PROT_MRG_CFG.sel. -/
def State.chooseBoth (s : State) (t seq cmd : Nat) : Nat × State :=
  match cmd with
  | 1 => (0, s) | 2 => (1, s) | 3 => (0, s) | 4 => (1, s) | 5 => (1, s) | 6 => (0, s)
  | _ =>
    match s.fget (ProtMrgCfg.sel t) with
    | 1 => (0, s)
    | 2 => (1, s)
    | 3 =>
      let a := s.fget (ProtLane.rxRole (s.fget (ProtMrgCfg.laneA t))) == 2
      let b := s.fget (ProtLane.rxRole (s.fget (ProtMrgCfg.laneB t))) == 2
      if a && !b then (0, s) else if b && !a then (1, s) else s.firstGood t seq
    | _ => s.firstGood t seq

/-- The merged counters and defects of a decided multiframe (R247), selected (0 A, 1 B) or per grain (2): of the selected copy, or in a
multiframe without a good copy of both. SEQ and TCRC need no copy to be good. The errored grains of a multiframe decided per grain count as
they are delivered. -/
def State.reportMerged (s : State) (t seq sel cmd : Nat) : State :=
  let r := s.trib t
  let a := SMap.find r.mfRecs (mfKey seq 0)
  let b := SMap.find r.mfRecs (mfKey seq 1)
  let of (m : Option MfRec) : Nat := (m.map MfRec.defs).getD 0
  let none' := !s.copyGood t seq 0 cmd && !s.copyGood t seq 1 cmd
  let defs := if none' then of a ||| of b else (if sel = 0 then of a else if sel = 1 then of b else of a ||| of b) &&& 0x24
  let two (f : MfRec → Nat) : Nat := max ((a.map f).getD 0) ((b.map f).getD 0)
  let chosen : MfRec := ((if sel = 0 then a else if sel = 1 then b else none).getD
    { gcount := two MfRec.gcount, headGood := (a.any MfRec.headGood) || b.any MfRec.headGood })
  let absent := a.isNone && b.isNone
  let s1 := s.onlyIf (chosen.ovr != 0) fun s => s.noteOvr t (chosen.first - s.tribAge t) (chosen.last - s.tribAge t) chosen.ovr
  let s2 := ((((s1.rxDefects t defs).bump .trib t 4 (defs % 2)).bump .trib t 5 (defs / 2 % 2)).bump .trib t 6 (defs / 4 % 2)).bump
    .trib t 7 (defs / 32)
  (((s2.bump .trib t (if chosen.headGood then 0 else 3) (if absent then 0 else 1)).bump .trib t 1 chosen.gcount).bump .trib t 2
    (if sel = 2 then 0 else chosen.errGrains)).bump .trib t 8 (if absent then 1 else 0)

/-- The decision of multiframe seq (R244): 0 copy A, 1 copy B, 2 per grain, with the command it was made under (R250); made once, at the
first read. -/
def State.decideMf (s : State) (t seq : Nat) : Nat × Nat × State :=
  match SMap.find (s.trib t).decisions seq with
  | some d => (d % 4, d / 4, s)
  | none =>
    let (cmd, implied) := s.mergeCommand t
    let a := s.copyGood t seq 0 cmd && copyUsable cmd 0
    let b := s.copyGood t seq 1 cmd && copyUsable cmd 1
    let (d, s0) := if a && b then s.chooseBoth t seq cmd else (if a then 0 else if b then 1 else 2, s)
    let r := s0.trib t
    let s1 := s0.setTrib t { r with decisions := SMap.ins r.decisions seq (d + 4 * cmd) }
    let ca := s.copyCond t seq 0 cmd
    let cb := s.copyCond t seq 1 cmd
    let s2 := (((s1.fset (ProtMrgStat.aCond t) (if ca = 3 then 1 else ca)).fset (ProtMrgStat.bCond t) cb).fset
      (ProtMrgStat.implied t) implied).fset (ProtMrgStat.selLast t) d
    let s3 := (s2.bump .prot t d 1).bump .prot t (if ca = 0 then 3 else 5) 1
    (d, cmd, (s3.bump .prot t (if cb = 0 then 4 else 6) (if cb = 3 then 0 else 1)).reportMerged t seq d cmd)

/-! ## Reads of class B (R424, R425, R542) -/

/-- The capacity in units of one plane of an allocation of the given grains (R200, R205, R240). DESIGN CHOICE: log entry 24. -/
def planeUnits (a : Adm) (grains g : Nat) : Nat := max 1 (grains / max 1 a.planes / g)

/-- The class B location of grain idx of the unit released at rel, in a copy's plane of an allocation (R445); staging holds one plane
(R240). -/
def State.placeLoc (s : State) (t : Nat) (a : Adm) (copy rel idx : Nat) : Nat :=
  let g := unitGrains (s.tfmt t)
  let blocks := a.pages * 2048
  let b := rel * 65536 / max 1 (s.unitDur t) % planeUnits a blocks g * g + idx
  let base := if a.deep.isNone then copy * (blocks / max 1 a.planes) else 0
  (a.basePage + (base + b) / 2048) % 12288 * 2 ^ 16 + (base + b) % 2048

/-- The class B location of a held grain. -/
def State.blockLoc (s : State) (t : Nat) (g : BufGrain) : Word :=
  match (s.trib t).adm with
  | none => 0
  | some a => BitVec.ofNat 32 (s.placeLoc t a g.copy g.rel g.idx)

/-- A read of a held grain by a consumer of the given kind (0 the scrubber): the grain after correction or poisoning. Three or
more bits in error have one of the outcomes of R542. -/
def State.readGrain (s : State) (t : Nat) (g : BufGrain) (unit kind : Nat) : BufGrain × State :=
  let loc := s.blockLoc t g
  let own := s.tribOwner t
  let unc (s : State) : BufGrain × State := ({ g with poison := true, errs := 0 }, s.foundUncorrectable own 1 0 0 loc unit kind)
  let (g', s1) :=
    if g.poison || g.errs = 0 then (g, s)
    else if g.errs = 1 then ({ g with errs := 0 }, s.bump .mem 0 1 1)
    else if g.errs = 2 then unc s
    else
      let (u, s1) := s.freeB
      let (c, s2) := s1.freeB
      if u then unc s2
      else
        let (v, s3) := s2.free 64
        ({ g with payload := BitVec.ofNat 64 v, errs := 0 }, if c then s3.bump .mem 0 1 1 else s3)
  if g'.poison && kind != 0 then (g', s1.poisonConsumed own 1 loc unit kind) else (g', s1)

/-! ## Bank handshakes (R33 to R35) -/

/-- Two class B locations lie in the same bank. -/
def State.sameBank (s : State) (x y : Nat) : Bool := x == y || Config.bankOf s.poweredBanks x % 96 == Config.bankOf s.poweredBanks y % 96

/-- The blocks of the handshakes in hand: handshakes of an earlier tick are over. -/
def State.shaken (s : State) : List Nat := if s.mem.shake.1 = s.ticks then s.mem.shake.2 else []

/-- A block takes a position in its bank's handshake, which moves at most 9 blocks; the next handshake follows a full one (R33).
DEDUCED: log entry 222. -/
def State.takePosition (s : State) (loc : Nat) : State :=
  let l := s.shaken
  let kept := if l.length < 9 ∨ (l.filter (s.sameBank loc)).length < 9 then l else l.filter fun x => !s.sameBank loc x
  { s with mem := { s.mem with shake := (s.ticks, loc :: kept) } }

/-- The consumer's unit and kind of a destination in MEM events (R444). -/
def destConsumer : Dest → Nat × Nat
  | .klf n => (n, 1)
  | .cascade n => (96 + n, 1)
  | .eth p => (p, 2)
  | .capture r => (r, 3)

/-! ## Void admissions (R193) -/

/-- A tributary becomes void by a row of R193, with a TRIB_VOID event. -/
def State.voidTrib (s : State) (t row : Nat) : State :=
  let r := s.trib t
  match r.adm with
  | none => s
  | some _ =>
    ((s.setTrib t { r with voidRow := row }).fsetB (TribLatHi.void t) true).raise (s.tribOwner t) 3 (s.tribLocal t) (row + 16) 0

/-- An admission that is decided but not yet in force will be void from its activation on. -/
def State.voidPending (s : State) (t row : Nat) : State :=
  let r := s.trib t
  match r.pend with
  | none => s
  | some a => s.setTrib t { r with pend := some { a with voidRow := row } }

/-! ## Failed dies and lost stacks (R206, R432, R433) -/

/-- Granules of a stack that an admission holds. -/
def Adm.granulesIn (st : Nat) (a : Adm) : Nat := if a.deep = some st then a.granules else 0

/-- The granules a tributary holds in a stack. -/
def TribSt.granulesHeld (r : TribSt) (st : Nat) : Nat :=
  max ((r.adm.map (Adm.granulesIn st)).getD 0 + (if r.oldStack = some st then r.oldGranules else 0))
    ((r.pend.map (Adm.granulesIn st)).getD 0)

/-- The dies of a stack marked failed, as a mask. -/
def State.deadDies (s : State) (st : Nat) : Nat := if st = 0 then s.fget MemHbmStat.dies0 else s.fget MemHbmStat.dies1

/-- A stack is lost. -/
def State.stackLost (s : State) (st : Nat) : Bool := if st = 0 then s.fbit MemHbmStat.lost0 else s.fbit MemHbmStat.lost1

/-- The partitions told of a stack: partition 0 and every one with an allocation in it (R444). -/
def State.stackParts (s : State) (st : Nat) : List Nat :=
  (List.range 16).filter fun p => p == 0 || s.tribs.any fun e => s.tribOwner? e.1 == some p && decide (0 < e.2.granulesHeld st)

/-- A die or stack happening, in the windows of every partition told (R444). -/
def State.stackHappening (s : State) (st pos happening : Nat) : State :=
  let loc0 := BitVec.ofNat 32 (2 * 2 ^ 29 + st * 2 ^ 28 + pos * 2 ^ 24)
  s.forEach (s.stackParts st) fun s p => s.memHappening p 2 happening 0 loc0 0 0

/-- A stack is declared lost (R433): every grain in it is late, its tributaries become void (R206), and those decided for it will be. -/
def State.loseStack (s : State) (st : Nat) : State :=
  if s.stackLost st then s
  else
    let s1 := s.fsetB (if st = 0 then MemHbmStat.lost0 else MemHbmStat.lost1) true
    let s2 := { s1 with mem := if st = 0 then { s1.mem with cycled0 := 0 } else { s1.mem with cycled1 := 0 } }
    let s3 := s2.forEach (s2.tribs.map Prod.fst) fun s t =>
      let inStack (a : Option Adm) : Bool := (a.bind Adm.deep) == some st
      let s1 := s.onlyIf (inStack (s.trib t).pend) fun s => s.voidPending t 5
      s1.onlyIf (inStack (s1.trib t).adm) fun s =>
        let r := s.trib t
        (s.setTrib t { r with held := r.held.map fun h => if h.inHbm && h.late == 0 then { h with late := 1 } else h }).voidTrib t 5
    ((s3.stackHappening st 15 4).duskCause 1).alarm

/-- A die is marked failed, where none of its stack is. -/
def State.failDie (s : State) (st pos : Nat) : State :=
  if s.deadDies st ≠ 0 then s
  else
    let s1 := s.fset (if st = 0 then MemHbmStat.dies0 else MemHbmStat.dies1) (2 ^ pos)
    (((s1.bump .mem 0 16 1).stackHappening st pos 3).duskCause 1).alarm

/-- A die's corrections reach die_thr: it is marked, or the stack is lost where another one is (R432, R433). DEDUCED: log entry 105. -/
def State.dieReached (s : State) (st pos : Nat) : State :=
  if SMap.getD s.mem.dieCnt (st * 12 + pos) 0 < s.fget MemHbmCfg.dieThr then s
  else if s.deadDies st = 0 then s.failDie st pos
  else if s.deadDies st = 2 ^ pos then s
  else s.loseStack st

/-- A correction counted against a die in the second in hand; the mark applies from the next decode (R432, R443). DEDUCED: log entry 105. -/
def State.countDie (s : State) (st pos : Nat) : State :=
  let k := st * 12 + pos
  let s1 := { s with mem := { s.mem with dieCnt := SMap.ins s.mem.dieCnt k (SMap.getD s.mem.dieCnt k 0 + 1) } }
  s1.dieReached st pos

/-! ## Zeroing on ownership change (R437, R438) -/

/-- The time to zero n bytes of the release buffer at the zeroing share of a pace mode, 42 or 28 Gbit/s a bank (R436), in 2^-16 ns,
rounded up. -/
def State.zeroBytesTime (s : State) (full : Bool) (n : Nat) : Nat :=
  let banks := max 1 s.poweredBanks
  let (num, den) := if full then (4, 21 * banks) else (2, 7 * banks)
  (n * num * 65536 + den - 1) / den

/-- The time to zero n granules of a stack at 35 GB/s, rounded up. DEDUCED: log entry 108. -/
def zeroGranulesTime (n : Nat) : Nat := (n * 262144 * 65536 + 34) / 35

/-- The admission figures in force are those of FULL. -/
def State.admFull (s : State) : Bool := !s.fbit GlbPace.admMode

/-- MEM_ZERO_PEND reports the work that remains (R439). -/
def State.syncZero (s : State) : State :=
  let sum (f : ZeroJob → Nat) : Nat := (s.mem.zero.map f).sum
  (s.fset MemZeroPend.pages (sum fun j => j.pages + (j.staging + 16383) / 16384)).fset MemZeroPend.deepMib
    ((sum ZeroJob.granules + 3) / 4)

/-- A region joins the zeroing queue: pages, granules of a stack, or bytes of capture staging. It ends after the regions
queued before it of the release buffer or of the same stack, 2 us at least from now. DEDUCED: log entry 111. -/
def State.pushZero (s : State) (p pages granules stack staging : Nat) : State :=
  if pages + granules + staging = 0 then s
  else
    let work := s.zeroBytesTime s.admFull (pages * 16384 + staging) + zeroGranulesTime granules
    let same (x : ZeroJob) : Bool := if granules = 0 then x.granules == 0 else x.granules != 0 && x.stack == stack
    let last := ((s.mem.zero.filter same).map ZeroJob.endAt).foldl max 0
    let j : ZeroJob := { seq := s.mem.zeroSeq, part := p, pages := pages, granules := granules, stack := stack, staging := staging
                         endAt := max (s.now + 2 * tUs) last + work }
    ({ s with mem := { s.mem with zero := s.mem.zero ++ [j], zeroSeq := s.mem.zeroSeq + 1 } }).syncZero

/-- What an older, larger allocation gave up passes to zeroing once no unit written under it remains unread (R191). -/
def State.releaseOld (s : State) (t : Nat) : State :=
  let r := s.trib t
  match r.oldL with
  | none => s
  | some _ =>
    if (r.oldPages = 0 ∧ r.oldGranules = 0) ∨ r.held.any BufGrain.old then s
    else
      (s.setTrib t { r with oldPages := 0, oldGranules := 0, oldStack := none }).pushZero (s.tribOwner t) r.oldPages r.oldGranules
        (r.oldStack.getD 0) 0

end Sys2Proof.Machine
end

