-- ==== Sys2Proof/Machine/AdmOps.lean ====
section
/-! DEFINITION. The terms of admission (R188 to R190): transit and egress terms (R29 to R32, R189, R233, R544), allocations (R201,
R205), loads (R195) and capacities, and what voids or ends an admission (R191, R193). -/

namespace Sys2Proof.Machine

/-! ## T_min, in tenths of a nanosecond -/

/-- Steps 1 to 4 from receive lane n, with its deskew term (R29, R92, R544). -/
def State.laneIngress (s : State) (n : Nat) : Nat :=
  let r := 2 ^ s.fget (LaneKlfCfg.rxRate n)
  let fec := s.fbit (LaneKlfCfg.rxFec n)
  let c := s.fget (LaneDskCfg.centre n)
  let deskew := if c ≤ 2 then 0 else ((2 * c - 4) * r * 21120 + 6764) / 6765
  (if fec then 256 * r else 3 * r) + 32 + (if fec then 224 else 7 * r) + 24 + deskew

/-- Steps 5 and 6, each, by the admission figures (R30). -/
def State.coreStep (s : State) : Nat := if s.admFull then 32 else 48

/-- Steps 7 to 9 for a destination, or their replacements (R32). -/
def State.egressSteps (s : State) : Dest → Nat
  | .klf n => 24 + 256 * 2 ^ s.fget (LaneKlfCfg.txRate n)
  | .cascade c => 24 + 256 * 2 ^ s.fget (LaneKlfCfg.txRate (96 + c))
  | .eth _ => 64 + 240
  | .capture _ => 128

/-- The lanes whose committed receive banks name tributary t, its merge lanes where it is merged. -/
def State.rxLanes (s : State) (t : Nat) : List Nat :=
  let named (n : Nat) : Bool := (List.range 2).any fun b => s.calCommitted n 0 b && (s.bankTribs n 0 b).contains t
  let src := s.fget (TribCfg.src t)
  if s.merged t then
    let a := s.fget (ProtMrgCfg.laneA t)
    let b := s.fget (ProtMrgCfg.laneB t)
    if named a && named b then (if a = b then [a] else [a, b]) else []
  else if src = 0 then (List.range 96).filter named
  else if src = 4 then ((List.range 4).map (96 + ·)).filter named
  else []

/-- T_min of tributary t to a destination, on die or deep (R189), in tenths of a nanosecond. -/
def State.transit (s : State) (t : Nat) (deep : Bool) (d : Dest) : Nat :=
  if deep then 200000
  else
    match s.fget (TribCfg.src t) with
    | 1 => 620 + 96 + 2 * s.coreStep + s.egressSteps d
    | 2 =>
      match (s.trib t).playRing with
      | none => 200000
      | some r =>
        let us := s.fget (HostRingArg.arg (s.tribOwner t) r) % 65536
        (if us = 0 then 20 else us) * 10000
    | 3 => s.coreStep + s.egressSteps d
    | _ => ((s.rxLanes t).map s.laneIngress).foldl max 0 + 2 * s.coreStep + s.egressSteps d

/-- Tenths of a nanosecond in 2^-16 ns, rounded up. -/
def tenths (x : Nat) : Nat := (x * 65536 + 9) / 10

/-! ## Egress advance and lag (R189) -/

/-- m unit durations U_min in 2^-16 ns. -/
def State.uMin (s : State) (t m : Nat) : Nat := to16 (s.uMin10k t * m) / 10000

/-- E_adv and E_lag of tributary t in bank b of transmit lane n: the extremes over every unit count that fits, with the shortest
units, the first unit latest for the advance and earliest for the lag. -/
def State.bankTerms (s : State) (n b t : Nat) : Nat × Nat :=
  let slots := grainSlots (s.slotsOf n 1 b t)
  let rate := s.fget (LaneKlfCfg.txRate n)
  let g := unitGrains (s.tfmt t)
  let tmf := gridTime rate 1
  let counts := ((List.range (slots.length / g)).map (· + 1)).filter fun k => decide (s.uMin t (k - 1) < tmf)
  counts.foldl (fun acc k =>
    ((grainPlaces slots.length (k * g)).zipIdx).foldl (fun (a : Nat × Nat) e =>
      let x := slotOffset rate ((slots[e.1]?).getD 0)
      let m := e.2 / g
      (max a.1 (tmf - 1 - s.uMin t (k - 1 - m) - x), max a.2 (x - s.uMin t m))) acc) (0, 0)

/-- The committed transmit banks of lane n. -/
def State.txBanks (s : State) (n : Nat) : List Nat := (List.range 2).filter fun b => s.calCommitted n 1 b

/-- The larger terms over the committed banks of a lane. -/
def State.laneTerms (s : State) (n t : Nat) : Nat × Nat :=
  ((s.txBanks n).map fun b => s.bankTerms n b t).foldl (fun a b => (max a.1 b.1, max a.2 b.2)) (0, 0)

/-- E_adv and E_lag of a destination. -/
def State.egressTerms (s : State) (t : Nat) : Dest → Nat × Nat
  | .klf n => s.laneTerms n t
  | .cascade c => s.laneTerms (96 + c) t
  | .eth _ => (0, to16 (s.fget (TribEthCfg.gpp t) / unitGrains (s.tfmt t) * s.unitDur t))
  | .capture _ => (0, 0)

/-! ## Loads (R188, R195) -/

/-- The tributaries that a partition owns and that hold any state. -/
def State.tribsOf (s : State) (p : Nat) : List Nat := (s.tribs.map Prod.fst).filter fun t => s.tribOwner? t == some p

/-- The admissions that load the device for a tributary: the one in force, and the one decided. -/
def TribSt.adms (r : TribSt) : List Adm := r.adm.toList ++ r.pend.toList

/-- The greater of a figure over the admissions of a tributary, so that it counts once. -/
def TribSt.most (r : TribSt) (f : Adm → Nat) : Nat := (r.adms.map f).foldl max 0

/-- The sum of a figure over every admitted tributary but t. -/
def State.loadBut (s : State) (t : Option Nat) (f : Adm → Nat) : Nat :=
  (s.tribs.map fun e => if some e.1 = t then 0 else e.2.most f).sum

/-- Write load and read load of an admission, in bit/s: one write per grain, one more for a merge plane, and one read per
destination. DESIGN CHOICE: log entry 24. -/
def Adm.writeLoad (a : Adm) : Nat := a.rate * a.writes
def Adm.readLoad (a : Adm) : Nat := a.rate * a.dests.length

/-- The rate of an admission in a stack: of each of its planes (R240). -/
def Adm.stackLoad (st : Nat) (a : Adm) : Nat := if a.deep = some st then a.rate * a.planes else 0

/-- The admission rates to a destination that satisfies a test. -/
def Adm.destLoad (q : Dest → Bool) (a : Adm) : Nat := a.rate * (a.dests.filter fun e => q e.dest).length

/-- The release-buffer capacity each way at the figures of a pace mode, three times over in bit/s: 200 Gbit/s or 400/3 Gbit/s a
powered bank. -/
def State.bankCapacity3 (s : State) (full : Bool) : Nat := s.poweredBanks * (if full then 600 else 400) * 1000000000

/-- Term 5 with loads w and r each way. -/
def State.term5 (s : State) (full : Bool) (w r : Nat) : Bool :=
  decide (3 * w ≤ s.bankCapacity3 full ∧ 3 * r ≤ s.bankCapacity3 full)

/-- The pages a tributary holds, with those an older allocation still holds. -/
def TribSt.pagesHeld (r : TribSt) : Nat :=
  max ((r.adm.map Adm.pages).getD 0 + r.oldPages) ((r.pend.map Adm.pages).getD 0)

/-- Pages of a partition's share that are being zeroed, and those of them an admission to come has taken. -/
def State.zeroingPages (s : State) (p : Nat) : Nat := ((s.mem.zero.filter fun j => j.part == p).map ZeroJob.pages).sum

def State.takenPages (s : State) (p : Nat) : Nat := ((s.tribsOf p).map fun t => (((s.trib t).pend.map Adm.fromZero).getD 0)).sum

def State.zeroingGranules (s : State) (p st : Nat) : Nat :=
  ((s.mem.zero.filter fun j => j.part == p && j.stack == st).map ZeroJob.granules).sum

def State.takenGranules (s : State) (p st : Nat) : Nat :=
  ((s.tribsOf p).map fun t => match (s.trib t).pend with | some a => if a.deep = some st then a.fromZeroG else 0 | none => 0).sum

/-- Zeroed pages free in a partition's share. DEDUCED: log entry 188. -/
def State.freePages (s : State) (p : Nat) : Nat :=
  s.mget (BootMapPages.pages p) + s.takenPages p - ((s.tribsOf p).map fun t => (s.trib t).pagesHeld).sum - s.zeroingPages p

/-- Granules of a share: 4 to a MiB (R205). -/
def State.shareGranules (s : State) (p st : Nat) : Nat :=
  4 * (if st = 0 then s.mget (BootMapDeep.s0 p) else s.mget (BootMapDeep.s1 p))

/-- Zeroed granules free in a partition's share of a stack. DEDUCED: log entry 188. -/
def State.freeGranules (s : State) (p st : Nat) : Nat :=
  s.shareGranules p st + s.takenGranules p st - ((s.tribsOf p).map fun t => (s.trib t).granulesHeld st).sum - s.zeroingGranules p st

/-- A rate in Gbit/s, rounded up. -/
def gbits (x : Nat) : Nat := (x + 999999999) / 1000000000

/-- The sum of a figure over a partition's admissions. -/
def State.partLoad (s : State) (p : Nat) (f : Adm → Nat) : Nat := ((s.tribsOf p).map fun t => (s.trib t).most f).sum

/-- The playback rate that an admission of tributary t takes. -/
def State.playLoad (s : State) (t : Nat) : Nat := if s.fget (TribCfg.src t) = 2 then (s.trib t).most Adm.rate else 0

/-- The load registers of a partition show its admissions (R195, R344). -/
def State.syncLoads (s : State) (p : Nat) : State :=
  let s1 := ((s.fset (TimeRelLoad.wr p) (gbits (s.partLoad p Adm.writeLoad))).fset (TimeRelLoad.rd p)
    (gbits (s.partLoad p Adm.readLoad))).fset (TimeRelFree.pages p) (s.freePages p)
  let s2 := (s1.fset (TimeDeepLoad.s0 p) (gbits (s.partLoad p (Adm.stackLoad 0)))).fset (TimeDeepLoad.s1 p)
    (gbits (s.partLoad p (Adm.stackLoad 1)))
  (s2.fset (HostRate.cap p) (gbits (s.partLoad p (Adm.destLoad isCaptureDest)))).fset (HostRate.play p)
    (gbits (((s.tribsOf p).map s.playLoad).sum))

/-! ## The terms -/

/-- Term 1 for a destination. -/
def State.destOwned (s : State) (p t : Nat) : Dest → Bool
  | .klf n => decide (n < 96) && s.laneOwner n == p
  | .eth n => decide (n < 96) && s.laneOwner n == p
  | .capture r => s.ringIs p r 2
  | .cascade c => !(s.txBanks (96 + c)).isEmpty && (s.txBanks (96 + c)).all fun b => (s.bankTribs (96 + c) 1 b).contains t

/-- R144 in a transmit bank: enough grain slots. -/
def State.bankFits (s : State) (n b t : Nat) : Bool :=
  decide (s.needSlots t (s.fget (LaneKlfCfg.txRate n)) ≤ (grainSlots (s.slotsOf n 1 b t)).length)

/-- The link rate in GT/s times 10 by its code (R344). -/
def linkGt10 : Nat → Nat
  | 1 => 25 | 2 => 50 | 3 => 80 | 4 => 160 | 5 => 320 | 6 => 640 | _ => 0

/-- The device's capture or playback limit: 0.78125 Gbit/s x GT/s x width, in bit/s (R364). -/
def State.linkLimit (s : State) : Nat := 78125000 * linkGt10 (s.fget HostLink.rate) * s.fget HostLink.width

/-- Bytes of capture staging that are being zeroed. DEDUCED: log entry 37. -/
def State.stagingZeroing (s : State) : Nat := (s.mem.zero.map ZeroJob.staging).sum

/-- Bytes that 64 us of a rate take. -/
def stagingBytes (rate : Nat) : Nat := (rate * 64 + 7999999) / 8000000

/-- Every capture ring with an admitted destination, as (partition, ring), each once. -/
def State.captureRate (s : State) (q : Dest → Bool) (p : Option Nat) (but : Nat) : Nat :=
  (s.tribs.map fun e => if e.1 = but ∨ (p.isSome ∧ s.tribOwner? e.1 ≠ p) then 0 else e.2.most (Adm.destLoad q)).sum

/-- Term 6 for a destination of tributary t at rate b, with the other capture destinations of the same request counted by n
destinations and m on the same ring. -/
def State.destCapacity (s : State) (p t b n m : Nat) : Dest → Bool
  | .klf l => !(s.txBanks l).isEmpty && (s.txBanks l).all fun k => s.bankFits l k t
  | .cascade c => !(s.txBanks (96 + c)).isEmpty && (s.txBanks (96 + c)).all fun k => s.bankFits (96 + c) k t
  | .eth l =>
    match s.portLanes l with
    | none => false
    | some k => decide (s.loadBut (some t) (Adm.destLoad (fun d => d = .eth l)) + b ≤ k * 200 * 1000000000)
  | .capture r =>
    let ring := s.captureRate (fun d => d = .capture r) (some p) t + b * m
    let part := s.captureRate isCaptureDest (some p) t + b * n
    let dev := s.captureRate isCaptureDest none t + b * n
    decide (ring ≤ 400 * 1000000000 ∧ part ≤ s.fget (HostRateLim.cap p) * 1000000000 ∧ dev ≤ s.linkLimit
      ∧ stagingBytes dev + s.stagingZeroing ≤ 8 * 1048576)

/-- The playback side of term 6. -/
def State.playCapacity (s : State) (p t b : Nat) : Bool :=
  if s.fget (TribCfg.src t) ≠ 2 then true
  else
    let sum (ts : List Nat) : Nat := (ts.map fun u => if u = t then 0 else s.playLoad u).sum
    decide (sum (s.tribsOf p) + b ≤ s.fget (HostRateLim.play p) * 1000000000 ∧ sum (s.tribs.map Prod.fst) + b ≤ s.linkLimit)

/-- Pages of an allocation that holds a span of time at a rate (R201). -/
def pagesFor (rate span : Nat) : Nat := (rate * span + 131072 * tSec - 1) / (131072 * tSec) + 1

/-- Granules of a deep allocation (R205). -/
def granulesFor (rate span : Nat) : Nat := (rate * span + 8 * 262144 * tSec - 1) / (8 * 262144 * tSec)

/-- The settings of a tributary's request (R184). -/
def State.reqL (s : State) (t : Nat) : Nat := s.fwide (TribLatLo.latLo t) (TribLatHi.latHi t)
def State.reqDMin (s : State) (t : Nat) : Int := toSigned 32 (s.fget (TribArrMin.arrMin t))
def State.reqDMax (s : State) (t : Nat) : Int := toSigned 32 (s.fget (TribArrMax.arrMax t))

/-- The smallest L that term 3 accepts for a destination, in 2^-16 ns. -/
def State.smallestL (s : State) (t : Nat) (deep : Bool) (d : Dest) : Nat :=
  (s.reqDMax t * 65536 + (tenths (s.transit t deep d) + (s.egressTerms t d).1 : Nat)).toNat

/-- What the evaluation of one tributary came to: result, failing destination, smallest L, and the allocation's pages, granules
and stack. -/
structure Verdict where
  result : Nat
  failDest : Nat := 0
  smallest : Nat := 0
  pages : Nat := 0
  granules : Nat := 0
  stack : Option Nat := none
  deriving DecidableEq, Repr

/-- The index of the first destination that fails a test. -/
def firstFail (ds : List Dest) (ok : Dest → Bool) : Option Nat :=
  let i := ds.findIdx fun d => !ok d
  if i < ds.length then some i else none

/-- Terms 2 to 7 with the buffer chosen: none on die, or a stack (R188). -/
def State.evalBuffer (s : State) (p t : Nat) (ds : List Dest) (stack : Option Nat) : Verdict :=
  let l := s.reqL t
  let deep := stack.isSome
  let small := (ds.map fun d => s.smallestL t deep d).foldl max 0
  let b := s.grainRate t
  let eLag := (ds.map fun d => (s.egressTerms t d).2).foldl max 0
  let planes := if s.merged t then 2 else 1
  let span := ((l : Int) - s.reqDMin t * 65536 + (eLag + 4 * tUs : Nat)).toNat
  let pages := planes * (if deep then pagesFor b (16 * tUs + eLag + 4 * tUs) else pagesFor b span)
  let gran := if deep then planes * granulesFor b span else 0
  let r := s.trib t
  let v (res : Nat) : Verdict := { result := res, smallest := small, pages := pages, granules := gran, stack := stack }
  let inRange := if deep then decide (20 * tUs ≤ l ∧ l ≤ 40 * tMs) else decide (200 * tNs ≤ l ∧ l ≤ 83 * tUs)
  if !inRange then v 2
  else
    match firstFail ds fun d => decide (s.smallestL t deep d ≤ l) with
    | some i => { v 3 with failDest := i }
    | none =>
      let room := s.freePages p + s.zeroingPages p - s.takenPages p + r.pagesHeld
      let roomG := match stack with
        | none => true
        | some st => decide (gran ≤ s.freeGranules p st + s.zeroingGranules p st - s.takenGranules p st + r.granulesHeld st)
            && s.domOn (45 + st) && !s.stackLost st
      if room < pages || !roomG then v 4
      else if !s.term5 s.admFull (s.loadBut (some t) Adm.writeLoad + b * (if deep then 1 else planes)) (s.loadBut (some t) Adm.readLoad + b * ds.length) then v 5
      else
        let n := (ds.filter isCaptureDest).length
        match firstFail ds fun d => s.destCapacity p t b n (ds.filter (· = d)).length d with
        | some i => { v 6 with failDest := i }
        | none =>
          if !s.playCapacity p t b then v 6
          else
            match stack with
            | none => v 0
            | some st => if s.loadBut (some t) (Adm.stackLoad st) + b * planes ≤ 4000 * 1000000000 then v 0 else v 7

/-- A deep request tries both stacks: the free choice where both accept it; else the one that does, else stack 0's failure.
DESIGN CHOICE: log entry 36. -/
def State.evalDeep (s : State) (p t : Nat) (ds : List Dest) : Verdict × State :=
  let a := s.evalBuffer p t ds (some 0)
  let b := s.evalBuffer p t ds (some 1)
  if a.result = 0 ∧ b.result = 0 then let (c, s1) := s.freeB; (if c then b else a, s1)
  else if b.result = 0 then (b, s) else (a, s)

/-- Terms 1 to 7 of a tributary, with the buffer that TRIB_LAT_HI.buf asks for (R185). -/
def State.evalTrib (s : State) (p t : Nat) (ds : List Dest) : Verdict × State :=
  let src := s.fget (TribCfg.src t)
  if !s.fbit (TribCfg.en t) || s.fget (TribStat.cfgErr t) != 0 || decide (s.reqDMax t < s.reqDMin t) then ({ result := 1 }, s)
  else
    match firstFail ds (s.destOwned p t) with
    | some i => ({ result := 1, failDest := i }, s)
    | none =>
      if (src = 0 ∨ src = 4) ∧ (s.rxLanes t).isEmpty then ({ result := 1 }, s)
      else
        match s.fget (TribLatHi.buf t) with
        | 1 => (s.evalBuffer p t ds none, s)
        | 2 => s.evalDeep p t ds
        | _ =>
          if s.reqL t ≤ 83 * tUs then
            let v := s.evalBuffer p t ds none
            if v.result = 4 ∨ v.result = 5 then s.evalDeep p t ds else (v, s)
          else s.evalDeep p t ds

/-! ## Void and end of an admission -/

/-- TRIB_LAT_HI shows the admission in force. -/
def State.syncAdmitted (s : State) (t : Nat) : State :=
  match (s.trib t).adm with
  | none => ((s.fsetB (TribLatHi.admitted t) false).fsetB (TribLatHi.void t) false).fset (TribLatHi.bufAct t) 0
  | some a =>
    (s.fsetB (TribLatHi.admitted t) true).fset (TribLatHi.bufAct t) (match a.deep with | none => 1 | some st => 2 + st)

/-- The admission of a tributary ends: its unreleased units are discarded and its allocation, with any older or coming one,
goes to zeroing (R191, R437). -/
def State.endAdmission (s : State) (t : Nat) : State :=
  let r := s.trib t
  let p := s.tribOwner t
  let pages := r.pagesHeld - (r.pend.map Adm.fromZero).getD 0
  let r' : TribSt := { r with adm := none, pend := none, withdrawAt := none, oldL := none, oldPages := 0, oldGranules := 0
                              oldStack := none, wq := [], held := [], egress := [], grid := none, rebase := none, absent := []
                              missing := [], prefTo := 0, never := [], substAt := [], txDefs := [], hbmErr := [], voidRow := 0 }
  let s1 := (s.setTrib t r').syncAdmitted t
  let gran (st : Nat) : Nat :=
    r.granulesHeld st - (match r.pend with | some a => if a.deep = some st then a.fromZeroG else 0 | none => 0)
  (((s1.pushZero p pages 0 0 0).pushZero p 0 (gran 0) 0 0).pushZero p 0 (gran 1) 1 0).syncLoads p

end Sys2Proof.Machine
end

