-- ==== Sys2Proof/Machine/EthOps.lean ====
section
/-! DEFINITION. Ethernet headers and VITA 49.2 prologues (R162 to R166): templates and received frames. -/

namespace Sys2Proof.Machine

/-- Big-endian n bytes at offset i of a frame. PRESUMED: log entry 68. -/
def beAt (bs : List Byte) (i n : Nat) : Nat := ofBe ((bs.drop i).take n)

/-- Where the parts of a frame stand: IP header, version 6, UDP header, VRT header, Class ID and trailer present, TSI, and the
length to the end of the VRT prologue. PRESUMED: log entry 68. -/
structure VrtHead where
  ip : Nat
  v6 : Bool
  udp : Nat
  vrt : Nat
  classId : Bool
  trailer : Bool
  tsi : Nat
  tsf : Nat
  len : Nat
  deriving DecidableEq, Repr

/-- The offset of the Ethertype after at most one IEEE 802.1Q tag. -/
def etherOff (bs : List Byte) : Nat := if beAt bs 12 2 = 0x8100 then 16 else 12

/-- The IP header at i: its version 6 flag and length, for UDP without options, extension headers or fragments (R162). -/
def ipHead (bs : List Byte) (typ i : Nat) : Option (Bool × Nat) :=
  if typ = 0x0800 ∧ beAt bs i 1 = 0x45 ∧ beAt bs (i + 9) 1 = 17 ∧ beAt bs (i + 6) 2 % 0x4000 = 0 then some (false, 20)
  else if typ = 0x86DD ∧ beAt bs i 1 / 16 = 6 ∧ beAt bs (i + 6) 1 = 17 then some (true, 40)
  else none

/-- The headers of a frame or template, with any TSI and TSF: VRT packet type 0001 with a Stream ID. The VRT header's bits are those
of VITA 49.2: type [31:28], C [27], T [26], TSI [23:22], TSF [21:20]. PRESUMED: log entry 68. -/
def parseVrt (bs : List Byte) : Option VrtHead :=
  let e := etherOff bs
  let i := e + 2
  match ipHead bs (beAt bs e 2) i with
  | none => none
  | some (v6, n) =>
    let u := i + n
    let v := u + 8
    let w := beAt bs v 4
    let c := w.testBit 27
    let tsi := w / 2 ^ 22 % 4
    let tsf := w / 2 ^ 20 % 4
    let len := v + 8 + (if c then 8 else 0) + (if tsi = 0 then 0 else 4) + (if tsf = 0 then 0 else 8)
    if w / 2 ^ 28 = 1 ∧ len ≤ bs.length then some ⟨i, v6, u, v, c, w.testBit 26, tsi, tsf, len⟩ else none

/-- TSI 10 or 11 and TSF 10 (R162). -/
def VrtHead.timed (h : VrtHead) : Bool := (h.tsi == 2 || h.tsi == 3) && h.tsf == 2

/-- The offset of tributary t's template in BAR1 (R163). -/
def tmplBase (t : Nat) : Nat := 0x700000 + t * 0x80

/-- The first hdr_len bytes of a template as stored; none where a byte is poisoned. -/
def State.tmplBytes (s : State) (t : Nat) : Option (List Byte) :=
  let n := s.fget (TribEthCfg.hdrLen t)
  (s.tpeekN (tmplBase t) n).map (leBytes n)

/-- A template that R162 and its hdr_len allow. -/
def parseTemplate (bs : List Byte) : Option VrtHead :=
  match parseVrt bs with
  | some h => if h.len = bs.length ∧ h.timed then some h else none
  | none => none

/-- The receive port, UDP destination port and Stream ID that a tributary matches (R165). -/
def State.tmplMatch (s : State) (t : Nat) : Option (Nat × Nat × Nat) :=
  match s.tmplBytes t with
  | none => none
  | some bs => (parseTemplate bs).map fun h => (s.fget (TribEthCfg.port t), beAt bs (h.udp + 2) 2, beAt bs (h.vrt + 4) 4)

/-- The one's complement sum of 16-bit words of bytes, folded. -/
def onesSum (bs : List Byte) : Nat :=
  let rec words : List Byte → Nat
    | a :: b :: r => a.toNat * 256 + b.toNat + words r
    | [a] => a.toNat * 256
    | [] => 0
  let n := words bs
  let f (x : Nat) : Nat := x % 65536 + x / 65536
  f (f (f n))

/-- The UDP pseudo-header of a frame for a UDP length. -/
def pseudoHeader (bs : List Byte) (h : VrtHead) (len : Nat) : List Byte :=
  (if h.v6 then (bs.drop (h.ip + 8)).take 32 else (bs.drop (h.ip + 12)).take 8) ++ leBytes 2 0 ++ [0, 17]
    ++ (leBytes 2 len).reverse

/-- The checksums of a received frame: the IPv4 header's, and the UDP one where it is present (R165). -/
def checksumsOk (bs : List Byte) (h : VrtHead) : Bool :=
  let ip := h.v6 || onesSum ((bs.drop h.ip).take 20) == 65535
  let len := beAt bs (h.udp + 4) 2
  let present := beAt bs (h.udp + 6) 2 != 0
  ip && (!present || onesSum (pseudoHeader bs h len ++ (bs.drop h.udp).take len) == 65535)

end Sys2Proof.Machine
end

