-- ==== Sys2Proof/Machine/Release.lean ====
section
/-! DEFINITION. The slot fabric, the release buffer and the deep buffer: FABRIC_DELIVER (R36), RELEASE_BUFFER_WRITE (R196 to
R203, R545), RELEASE_READ (R183 to R199) and DEEP_PREFETCH (R203 to R206, R430). -/

namespace Sys2Proof.Machine

/-! ## The slot fabric (R36, R213) -/

def State.slc (s : State) (e : Nat) : SlcSt := SMap.getD s.slcs e {}
def State.setSlc (s : State) (e : Nat) (v : SlcSt) : State := { s with slcs := SMap.putD s.slcs e {} v }

/-- Engines that a gang of engine e spans, 1 for a single engine (R211). DEDUCED: log entry 101. -/
def State.gangSize (s : State) (e : Nat) : Nat :=
  match s.fget (SlcCluCfg.gang (e / 16 * 16)) with
  | 1 => 8 | 2 => 16 | _ => 1

/-- The lead of the gang that engine e belongs to. -/
def State.gangLead (s : State) (e : Nat) : Nat := e / s.gangSize e * s.gangSize e

/-- The device number of engine e's input tributary. -/
def State.slcInput (s : State) (e : Nat) : Option Nat := s.tribDevice (s.clusterOwner (e / 16)) (s.fget (SlcCfg.inTrib e))

/-- The tributaries that feed engine e: its input, or for a gang whose input is in a bundle the bundle's members (R212). DEDUCED: log entry 101. -/
def State.slcMembers (s : State) (e : Nat) : List Nat :=
  match s.slcInput e with
  | none => []
  | some t => if s.gangSize e ≠ 1 ∧ s.fbit (TribCfg.inBundle t) then s.bundleMembers t else [t]

/-- The enabled engines fed by tributary t. -/
def State.slcFed (s : State) (t : Nat) : List Nat :=
  (List.range 256).filter fun e => s.fbit (SlcCfg.en e) && (s.slcMembers e).contains t

/-- A grain offered to an engine's input queue of 256 grains; one that finds it full is marked lost and counted against the
engine (R36, R213). -/
def State.offerSlc (s : State) (e t : Nat) (g : InGrain) : State :=
  let q := s.slc e
  let lost := decide (256 ≤ (q.inq.filter fun x => !x.lost).length)
  let x : SlcIn := ⟨t, g.instant, g.idx, if g.poison then blankGrain (s.tfmt t) g.idx else g.payload, lost⟩
  (s.setSlc e { q with inq := q.inq ++ [x] }).bump .slc e (if lost then 1 else 0) 1

/-- FABRIC_DELIVER (R36): the oldest grain of a tributary at the fabric goes to every engine it feeds and, while the tributary
is admitted, to the release buffer (R190). Of a merged tributary copy A feeds the engines, ahead of the selection. DESIGN CHOICE: log entry
210. DESIGN CHOICE: log entry 210. -/
def doFabricDeliver (t : Nat) (s : State) : State :=
  let r := s.trib t
  match r.fab with
  | [] => s
  | g :: gs =>
    let wq := if r.adm.isSome then r.wq ++ [g] else r.wq
    let s1 := (s.setTrib t { r with fab := gs, wq := wq }).vtGrain t g.instant g.idx 2 false
    if g.copy = 0 then (s1.slcFed t).foldl (fun s e => s.offerSlc e t g) s1 else s1

def execFabricDeliver (t : TribN) (s : State) : Out := .next (doFabricDeliver t s)

/-! ## Writes (R191, R196 to R203, R442) -/

/-- The budget of an instant: the old one before a change takes hold (R191). -/
def State.budgetOf (s : State) (t : Nat) (a : Adm) (inst : Nat) : Nat :=
  match (s.trib t).oldL with
  | some (l0, tau) => if inst + l0 < tau then l0 else a.l
  | none => a.l

/-- An instant that a budget decrease leaves unreleased (R191). -/
def State.neverReleased (s : State) (t : Nat) (a : Adm) (inst : Nat) : Bool :=
  match (s.trib t).oldL with
  | some (l0, tau) => decide (tau ≤ inst + l0 ∧ inst + a.l < tau)
  | none => false

/-- The capacity of a plane of an allocation in units (R200, R205, R240). DESIGN CHOICE: log entry 24. -/
def State.allocUnits (s : State) (t : Nat) (a : Adm) : Nat :=
  planeUnits a (match a.deep with | none => a.pages * 2048 | some _ => a.granules * 32768) (unitGrains (s.tfmt t))

/-- The position of a unit in its allocation (R200). -/
def State.position (s : State) (t : Nat) (a : Adm) (rel : Nat) : Nat :=
  rel * 65536 / max 1 (s.unitDur t) % s.allocUnits t a

/-- A destination has not read grain idx of the unit released at rel. -/
def stillToRead (e : DestSt) (rel idx : Nat) : Bool :=
  decide (e.nextFrom ≤ rel) && (e.nextFrom != rel || e.nextGrain ≤ idx)

/-- A destination has read grain idx of the unit released at rel. -/
def hasRead (e : DestSt) (rel idx : Nat) : Bool := decide (e.start ≤ rel) && !stillToRead e rel idx

/-- A grain found absent at earlier reads arrives: late, counted once per grain, and LATE is raised for every multiframe or packet that
lacked it; a unit of which nothing is absent any more is no longer counted as missing (R198). DEDUCED: log entry 22. -/
def State.lateArrival (s : State) (t rel idx : Nat) : State :=
  let r := s.trib t
  match r.absent.find? fun x => x.1 == rel && x.2.1 == idx with
  | none => s
  | some (_, _, ks) =>
    let left := r.absent.filter fun x => !(x.1 == rel && x.2.1 == idx)
    let whole := !left.any fun x => x.1 == rel
    let back := if whole then SMap.getD r.missing rel 0 else 0
    let s1 := ((s.setTrib t { r with absent := left, missing := if whole then SMap.del r.missing rel else r.missing }).bump .trib t 16 1).bump
      .trib t 18 ((2 ^ 48 - back) % 2 ^ 48)
    ks.foldl (fun s k => s.txDefect t 3 k) s1

/-- The codeword of a deep grain: 40 grains each, from the base of its plane (R204, R240). -/
def State.codewordOf (s : State) (t : Nat) (a : Adm) (copy rel idx : Nat) : Nat :=
  a.baseCw + copy * (a.granules * 32768 / max 1 a.planes / 40 + 1) + (s.position t a rel * unitGrains (s.tfmt t) + idx) / 40

/-- A flip armed for tributary t corrupts the grain or codeword written next (R442). -/
def State.applyFlips (s : State) (t : Nat) (g : BufGrain) : BufGrain × State :=
  let hitB := s.fbit MemFlipB.arm && s.fget MemFlipB.trib == t && !g.inHbm
  let hitD := s.fbit MemFlipD.arm && s.fget MemFlipD.trib == t && g.inHbm
  if hitB then
    let n := ((List.range 32).filter fun i => (s.fget (MemFlipBD.dmask 0)).testBit i).length
      + ((List.range 32).filter fun i => (s.fget (MemFlipBD.dmask 1)).testBit i).length
      + ((List.range 8).filter fun i => (s.fget MemFlipB.cmask).testBit i).length
    ({ g with errs := n }, (s.fsetB MemFlipB.arm false).bump .mem 0 17 1)
  else if hitD then
    let r := s.trib t
    let err := if s.fget MemFlipD.value = 0 then r.hbmErr
      else SMap.ins r.hbmErr g.codeword (SMap.getD r.hbmErr g.codeword 0 ||| 2 ^ s.fget MemFlipD.pos)
    (g, ((s.setTrib t { r with hbmErr := err }).fsetB MemFlipD.arm false).bump .mem 0 17 1)
  else (g, s)

/-! ### When grains are read -/

/-- The next unit that a destination reads, by the grid in force or one that the held units fix: the grid's origin, the release time,
and when the next grain of it is read (none where the lane's multiframe cannot carry it). -/
def State.nextRead (s : State) (t : Nat) (e : DestSt) : Option (Nat × Nat × Option Nat × State) :=
  let s0 := s.fixGrid t e.nextFrom (s.now + 1)
  match (s0.trib t).grid with
  | none => none
  | some r0 =>
    let k := s0.gridFrom t r0 e.nextFrom
    let rel := s0.gridPoint t r0 k
    let readAt : Option Nat := match e.dest with
      | .klf n => s0.laneReadAt n t r0 k e.nextGrain
      | .cascade n => s0.laneReadAt (96 + n) t r0 k e.nextGrain
      | _ => some rel
    some (r0, rel, readAt, s0)

/-- When the first grain of the unit released at rel is first read: at its earliest egress slot less the read lead, or at rel. -/
def State.firstRead (s : State) (t : Nat) (a : Adm) (rel : Nat) : Nat :=
  let at' (e : DestSt) : Nat :=
    let lane (n : Nat) : Nat := match (s.trib t).grid with
      | none => rel - e.eAdv
      | some r0 => (s.laneReadAt n t r0 (s.gridFrom t r0 (rel - to16 (s.period t) / 2)) 0).getD (rel - e.eAdv)
    match e.dest with
    | .klf n => lane n
    | .cascade n => lane (96 + n)
    | _ => rel
  (a.dests.map at').foldl min rel

/-! ### Requests that wait for a bank (R33) -/

/-- The locations of the release reads that are due. -/
def State.dueReads (s : State) : List Nat :=
  s.tribs.flatMap fun x => match x.2.adm with
    | none => []
    | some a => a.dests.flatMap fun e => match s.nextRead x.1 e with
      | some (_, rel, some at', s0) =>
        if at' ≤ s.now && !s0.inGap x.1 rel then
          (List.range (if a.deep.isNone then max 1 a.planes else 1)).map fun k => s.placeLoc x.1 a k rel e.nextGrain
        else []
      | _ => []

/-- The location of the write that waits at the head of a tributary's grains: of playback grains or of others. -/
def State.waitingWrite (s : State) (playback : Bool) (x : Nat × TribSt) : Option Nat :=
  match x.2.adm, x.2.wq with
  | some a, g :: _ =>
    if a.deep.isNone && playback == (s.fget (TribCfg.src x.1) == 2) then
      some (s.placeLoc x.1 a g.copy (g.instant + s.budgetOf x.1 a g.instant) g.idx)
    else none
  | _, _ => none

/-- The unit of a deep tributary that is due for prefetch: its stack and release time (R203). -/
def State.prefetchDue (s : State) (t : Nat) : Option (Nat × Nat) :=
  let r := s.trib t
  match (r.adm.bind Adm.deep).orElse fun _ => r.oldStack with
  | none => none
  | some st =>
    match (r.held.filter fun h => h.inHbm && h.late == 0).map BufGrain.rel with
    | [] => none
    | x :: xs =>
      let rel := xs.foldl min x
      let first := match r.adm with | some a => s.firstRead t a rel | none => rel
      if s.now + 16 * tUs < first || s.stackLost st then none else some (st, rel)

/-- The locations in staging of the grains of a unit that leaves HBM. -/
def State.stagingLocs (s : State) (t rel : Nat) : List Nat :=
  match (s.trib t).adm with
  | none => []
  | some a => ((s.trib t).held.filter fun h => h.inHbm && h.late == 0 && s.takesPoint t rel h.rel).map fun h => s.placeLoc t a h.copy h.rel h.idx

/-- A request of higher priority than `rank` waits for the bank of a location (R33: 1 release reads, 2 ingress writes, 3 prefetch writes,
4 playback writes, 5 zeroing, which takes its share only, 6 the scrubber). DEDUCED: log entry 222. -/
def State.bankBusy (s : State) (rank loc : Nat) : Bool :=
  let hit (l : List Nat) : Bool := l.any (s.sameBank loc)
  hit s.dueReads || (decide (2 < rank) && hit (s.tribs.filterMap (s.waitingWrite false)))
    || (decide (3 < rank) && hit ((s.tribs.map Prod.fst).flatMap fun t => match s.prefetchDue t with
      | some (_, rel) => s.stagingLocs t rel
      | none => []))
    || (decide (4 < rank) && hit (s.tribs.filterMap (s.waitingWrite true)))

/-! ### Writing -/

/-- A grain reaches its allocation position: early where the position is still owned by a grain of an earlier release time
(R197), otherwise held for the destinations that have not read it. A deep grain that misses its prefetch, or whose stack is lost, is late
(R203, R206). -/
def State.holdGrain (s : State) (t : Nat) (a : Adm) (g : InGrain) (rel : Nat) : State :=
  let left := (a.dests.filter fun e => stillToRead e rel g.idx).map DestSt.dest
  let s0 := s.onlyIf (a.dests.any fun e => hasRead e rel g.idx) fun s =>
    (s.onlyIf (s.merged t) fun s => s.bump .prot t (9 + g.copy) 1).lateArrival t rel g.idx
  let r := s0.trib t
  if left.isEmpty then s0.vtGrainEnd t g.instant g.idx 2 0
  else
    let pos := s0.position t a rel
    let owned := r.held.any fun h => h.idx == g.idx && h.copy == g.copy && !h.early && decide (h.rel < rel)
      && s0.position t a h.rel == pos && !h.left.isEmpty
    let missed := a.deep.isSome && (decide (rel < r.prefTo) || decide (s0.firstRead t a rel < s0.now + 16 * tUs))
    let lost := match a.deep with | some st => s0.stackLost st | none => false
    let b : BufGrain := { rel := rel, instant := g.instant, idx := g.idx, copy := g.copy, mf := g.mf, payload := g.payload
                          blank := g.blank, left := left, poison := g.poison, inHbm := a.deep.isSome, ovr := g.ovr
                          codeword := s0.codewordOf t a g.copy rel g.idx, late := if missed then 2 else if lost then 1 else 0 }
    if owned then
      ((s0.setTrib t { r with held := r.held ++ [{ b with early := true, payload := 0 }] }).bump .trib t 17 1).vtGrainEnd t
        g.instant g.idx 2 0
    else
      let (b', s2) := s0.applyFlips t b
      let s3 := (s2.bump .trib t 16 (if missed then 1 else 0)).onlyIf (missed && s2.merged t) fun s => s.bump .prot t (9 + g.copy) 1
      let s4 := s3.onlyIf a.deep.isNone fun s => s.takePosition (s.placeLoc t a g.copy rel g.idx)
      let r2 := s4.trib t
      let same (h : BufGrain) : Bool := h.rel == rel && h.idx == g.idx && h.copy == g.copy
      (s4.setTrib t { r2 with held := r2.held.filter (fun h => !same h) ++ [b'] }).vtGrain t g.instant g.idx 3 false

/-- An instant that a budget decrease leaves unreleased is counted once, with the rest of its unit (R191). -/
def State.countNever (s : State) (t instant : Nat) : State :=
  let r := s.trib t
  if r.never.contains instant then s
  else (s.setTrib t { r with never := instant :: r.never }).bump .trib t 20 (unitInstants (s.tfmt t))

/-- RELEASE_BUFFER_WRITE (R545): the oldest grain that waits for the buffer is written into its plane, or into HBM for a deep
tributary; it waits while a request of higher priority waits for its bank (R33), release reads among them (R35). -/
def doReleaseBufferWrite (t : Nat) (s : State) : State :=
  let r := s.trib t
  match r.wq with
  | [] => s
  | g :: gs =>
    let s1 := s.setTrib t { r with wq := gs }
    match r.adm with
    | none => s1.vtGrainEnd t g.instant g.idx 2 0
    | some a =>
      let rel := g.instant + s1.budgetOf t a g.instant
      if s1.neverReleased t a g.instant then s1.countNever t g.instant
      else if a.deep.isNone && s.bankBusy (if s.fget (TribCfg.src t) = 2 then 4 else 2) (s.placeLoc t a g.copy rel g.idx) then s
      else s1.holdGrain t a g rel

def execReleaseBufferWrite (t : TribN) (s : State) : Out := .next (doReleaseBufferWrite t s)

/-! ## Reads -/

/-- What a copy offers at a read (R199): the grain after the class B read, with its cause: 0 usable, 1 absent or late (still in HBM, or
marked so), 2 early, 3 poisoned, 4 received blank or errored. -/
def State.offer (s : State) (t rel idx copy : Nat) (d : Dest) : Nat × Option BufGrain × State :=
  match (s.trib t).held.find? fun h => s.takesPoint t rel h.rel && h.idx == idx && h.copy == copy && h.left.contains d with
  | none => (1, none, s)
  | some h =>
    if h.early then (2, some h, s)
    else if h.inHbm || h.late != 0 then (1, some h, s)
    else
      let (unit, kind) := destConsumer d
      let (h', s1) := (s.takePosition (s.blockLoc t h).toNat).readGrain t h unit kind
      let r := s1.trib t
      let s2 := s1.setTrib t { r with held := r.held.map fun x => if x = h then h' else x }
      (if h'.poison then 3 else if h'.blank then 4 else 0, some h', s2)

/-- The grain of a merged unit (R245, R246), under the command its multiframe was decided with: the decided copy's, else the other's
where it is good by now; per grain in a multiframe without a good copy, where a grain that both copies lack or received errored is a merged
blank. -/
def State.offerMerged (s : State) (t rel idx : Nat) (d : Dest) : Nat × Option BufGrain × State :=
  let at' (k : Nat) : Option BufGrain :=
    (s.trib t).held.find? fun h => s.takesPoint t rel h.rel && h.idx == idx && h.copy == k
  let seq := match at' 0, at' 1 with
    | some h, _ => h.mf
    | none, some h => h.mf
    | none, none =>
      let l := match (s.trib t).adm with | some a => a.l | none => 0
      gridIndex (s.fget (LaneKlfCfg.rxRate (s.fget (ProtMrgCfg.laneA t)))) (rel - l + s.tribAge t) % 2 ^ 32
  let (dec, cmd, s1) := s.decideMf t seq
  if dec < 2 then
    let (c, g, s2) := s1.offer t rel idx dec d
    if (c = 0 ∨ c = 4) ∧ copyUsable cmd dec then (c, g, s2)
    else if s2.copyGood t seq (1 - dec) cmd && copyUsable cmd (1 - dec) then
      let (c', g', s3) := s2.offer t rel idx (1 - dec) d
      if c' = 0 ∨ c' = 4 then (c', g', s3.bump .prot t 8 1) else (c, g, s3)
    else (c, g, s2)
  else
    let k := preferred cmd
    let (c, g, s2) := if copyUsable cmd k then s1.offer t rel idx k d else (1, none, s1)
    if c = 0 then (c, g, s2)
    else
      let (c', g', s3) := if copyUsable cmd (1 - k) then s2.offer t rel idx (1 - k) d else (1, none, s2)
      if c' = 0 then (c', g', s3)
      else if g.isNone && g'.isNone then (1, none, s3)
      else
        let first := match (s3.trib t).adm.bind fun a => a.dests.head? with | some e => e.dest = d | none => false
        (4, none, (s3.bump .prot t 12 1).bump .trib t 2 (if first && (c == 4 || c' == 4) then 1 else 0))

/-- The bits of grain idx of a unit that belong to the codes of which p holds, and the blank codes there. -/
def codeBits (fmt idx : Nat) (p : Nat → Bool) : Nat × Nat :=
  let w := codeWidth fmt
  let ks := (List.range (unitCodes fmt)).filter p
  let mask := (ks.map fun k => (2 ^ w - 1) * 2 ^ (w * k)).sum
  let blank := (ks.map fun k => blankCode w * 2 ^ (w * k)).sum
  (mask / 2 ^ (64 * idx) % 2 ^ 64, blank / 2 ^ (64 * idx) % 2 ^ 64)

/-- Grain idx of a unit with the codes of which p holds replaced by blank codes. -/
def blankCodes (fmt idx : Nat) (p : Nat → Bool) (g : BitVec 64) : BitVec 64 :=
  let (mask, blank) := codeBits fmt idx p
  BitVec.ofNat 64 (g.toNat - (g.toNat &&& mask) + (blank &&& mask))

/-- Instant j of the unit at `instant` lies in an enabled window of a kind with t in scope (R176). -/
def State.instantIn (s : State) (kind t instant j : Nat) : Bool := s.inWindow kind t (instant + to16 (j * s.period t))

/-- A grain with its instants inside a blank window replaced by blank codes, and how many instants that begin in it are
(R176, R179). -/
def State.windowBlank (s : State) (t instant idx : Nat) (p : BitVec 64) : BitVec 64 × Nat :=
  let fmt := s.tfmt t
  let inside := s.instantIn 0 t instant
  let w := codeWidth fmt * (if isComplex fmt then 2 else 1)
  (blankCodes fmt idx (fun k => inside (codeInstant fmt k)) p,
    ((List.range (unitInstants fmt)).filter fun j => decide (w * j / 64 = idx) && inside j).length)

/-- A grain of the unit at `instant` as the capture gates leave it, and whether they pass any instant of the unit (R179). -/
def State.gateGrain (s : State) (t instant idx : Nat) (p : BitVec 64) : BitVec 64 × Bool :=
  let fmt := s.tfmt t
  let inside := s.instantIn 1 t instant
  (blankCodes fmt idx (fun k => !inside (codeInstant fmt k)) p, (List.range (unitInstants fmt)).any inside)

/-- The grains of the unit at rel, a bit each, that t cannot deliver now. -/
def State.unreadyMask (s : State) (t rel : Nat) : Nat :=
  ((List.range (unitGrains (s.tfmt t))).filter fun i =>
    match (s.trib t).held.find? fun h => s.takesPoint t rel h.rel && h.idx == i with
    | none => true
    | some h => h.early || h.poison || h.blank || h.inHbm || h.late != 0).map (2 ^ ·) |>.sum

/-- The grains of the unit at rel, a bit each, that are or will be substituted in another member of t's bundle (R187). -/
def State.bundleMask (s : State) (t rel : Nat) : Nat :=
  (s.bundleMembers t).foldl (fun m u =>
    if u = t then m
    else
      let r := s.trib u
      let unread := match r.adm with
        | some a => a.dests.any fun e => decide (e.start ≤ rel ∧ e.nextFrom ≤ rel)
        | none => false
      m ||| SMap.getD r.substAt rel 0 ||| (if unread then s.unreadyMask u rel else 0)) 0

/-- The destinations of an admission with one of them replaced. -/
def Adm.setDest (a : Adm) (d : Dest) (e : DestSt) : Adm := { a with dests := a.dests.map fun x => if x.dest = d then e else x }

/-- The multiframe, packet or captured unit that carries the unit at rel to a destination. -/
def State.carrierOf (s : State) (t : Nat) (e : DestSt) (rel : Nat) : Nat :=
  carrierKey e.dest (match e.dest with
    | .klf n => windowIndex (s.fget (LaneKlfCfg.txRate n)) rel
    | .cascade n => windowIndex (s.fget (LaneKlfCfg.txRate (96 + n))) rel
    | .eth _ => e.built + ((s.trib t).egress.filter fun x => x.dest = e.dest).length / max 1 (s.fget (TribEthCfg.gpp t))
    | .capture _ => rel)

/-- The grain as delivered: blank where a cause substitutes it (1 to 3), with the codes blank that it shares with a grain of its unit that
is not delivered (R148), or that another member of its bundle has substituted (R187). -/
def substitute (fmt idx cause cut spread : Nat) (p : BitVec 64) : BitVec 64 :=
  if 1 ≤ cause ∧ cause ≤ 3 then blankGrain fmt idx
  else blankCodes fmt idx (fun k => codeTouches fmt k (fun i => (i != idx && cut.testBit i) || spread.testBit i)
    || (cut.testBit idx && codeTouches fmt k fun i => i + 1 == idx)) p

/-- The unit-level counts when the last grain of a unit has been read (R199): the first cause found is counted. Bit 7 of the causes stands
for a grain known to be late. -/
def State.countUnit (s : State) (t rel causes : Nat) : State :=
  let r := s.trib t
  if causes.testBit 1 && r.absent.any (fun x => x.1 == rel) then
    (s.setTrib t { r with missing := SMap.ins r.missing rel (SMap.getD r.missing rel 0 + 1) }).bump .trib t 18 1
  else if causes.testBit 1 || causes.testBit 7 || causes.testBit 2 then s
  else s.bump .trib t 21 (if causes.testBit 3 then 1 else 0)

/-- The overrange codes of a grain read: those counted, none where it is blank, and an open number of them where some codes were blanked. -/
def State.readOvr (s : State) (fmt idx : Nat) (before after : BitVec 64) (n : Nat) : Nat × State :=
  if n = 0 || before == after then (n, s)
  else if after == blankGrain fmt idx then (0, s)
  else let (x, s1) := s.free 8; (x % (n + 1), s1)

/-- The input queue of cascade port q, of 32 blocks, is full (R22, R36). -/
def State.casQueueFull (s : State) (q : Nat) : Bool :=
  decide (32 ≤ (s.tribs.map fun e => (e.2.egress.filter fun x => match x.dest with
    | .cascade n => n / 2 == q
    | _ => false).length).sum)

/-- The egress boundary of a lane, of 32 blocks, shows no room (R22), by a synchroniser lag of 0 to 3. DESIGN CHOICE: log entry 203. -/
def State.egressFull (s : State) (d : Dest) : Bool × State :=
  match d with
  | .klf _ =>
    let used := (s.tribs.map fun e => (e.2.egress.filter fun x => x.dest = d).length).sum
    if used + 4 ≤ 32 then (false, s) else let (lag, s1) := s.free 2; (decide (32 < used + 1 + lag), s1)
  | _ => (false, s)

/-- A unit of t at rel is dropped in front of capture ring r: the buffer in which t captures closes behind the units before it (R361).
DESIGN CHOICE: log entry 215. -/
def State.cutCapture (s : State) (t r rel : Nat) : State :=
  let p := s.tribOwner t
  let g := s.ring p r
  s.setRing p r { g with cuts := g.cuts ++ (if g.cuts.contains (t, rel) then [] else [(t, rel)]) }

/-- Grains of a capture ring are dropped: counted, and reported in the next record (R362, R378). -/
def State.dropCapture (s : State) (p r n : Nat) : State :=
  let g := s.ring p r
  ((s.setRing p r { g with dropped := g.dropped + n }).bump .host (p * 64 + r) 8 n).perfHit p 0x0C r n

/-- Capture staging has no room for grain idx of a unit of t, or had none for the grain before it: a ring holds 64 us of its admitted
rate, and no less than one unit (R364). DESIGN CHOICE: log entry 215. -/
def State.stagingFull (s : State) (t r rel idx : Nat) : Bool :=
  let p := s.tribOwner t
  let gs := (s.tribsOf p).flatMap fun u => ((s.trib u).egress.filter fun x => x.dest == .capture r).map fun x => (u, x)
  let unit := unitGrains (s.tfmt t)
  if idx = 0 then decide (max unit (stagingBytes (s.captureRate (fun d => d = .capture r) (some p) 4096) / 8) < gs.length + unit)
  else !gs.any fun e => e.1 == t && e.2.rel == rel && e.2.idx + 1 == idx

/-- A grain read waits for its egress; a cascade port whose input queue is full loses it, and the loss is counted against the port (R36).
A capture ring whose staging is full drops it, counted (R364). -/
def State.toEgress (s : State) (t : Nat) (eg : EgGrain) : State :=
  let keep (s : State) : State := let r := s.trib t; s.setTrib t { r with egress := r.egress ++ [eg] }
  match eg.dest with
  | .cascade n =>
    if s.casQueueFull (n / 2) then
      let c := SMap.getD s.cas.ports (n / 2) {}
      { s with cas := { s.cas with ports := SMap.putD s.cas.ports (n / 2) {} { c with lost := c.lost + 1 } } }
    else keep s
  | .capture r =>
    if s.stagingFull t r eg.rel eg.idx then
      ((s.vtGrainEnd t eg.instant eg.idx 2 eg.cause).dropCapture (s.tribOwner t) r 1).cutCapture t r eg.rel
    else keep s
  | _ => keep s

/-- Grain idx of the unit at rel is read by destination d: its place is freed by the last reader (R202), the destination moves
on, and the grain, substituted as its cause demands, waits for the egress. -/
def State.finishRead (s : State) (t : Nat) (e : DestSt) (rel idx cause : Nat) (h : Option BufGrain) : State :=
  let d := e.dest
  let fmt := s.tfmt t
  let a? := (s.trib t).adm
  let l := match a? with | some a => s.budgetOf t a (rel - a.l) | none => 0
  let inst := match h with | some g => g.instant | none => rel - l
  let spread := if a?.any Adm.bundleBlank then s.bundleMask t rel else 0
  let ahead := decide (idx + 1 < unitGrains fmt) && (s.unreadyMask t rel).testBit (idx + 1)
  let cut := e.cut ||| (if ahead then 2 ^ (idx + 1) else 0)
  let whole := match cause, h with
    | 0, some g => g.payload
    | 4, some g => g.payload
    | _, _ => blankGrain fmt idx
  let base := substitute fmt idx cause cut spread whole
  let hit := cause == 0 && base != substitute fmt idx cause cut 0 whole
  let cause1 := if hit then 6 else cause
  let (p, nWin) := s.windowBlank t inst idx base
  let cause2 := if cause1 = 0 && nWin != 0 then 5 else cause1
  let known := cause1 = 1 && h.isSome
  let last := idx + 1 = unitGrains fmt
  let causes := e.causes ||| (if known then 2 ^ 7 else 2 ^ cause1)
  let e' : DestSt := { e with nextGrain := if last then 0 else idx + 1, nextFrom := if last then rel + 1 else rel
                              causes := if last then 0 else causes
                              cut := if last then 0 else if 1 ≤ cause ∧ cause ≤ 3 then cut ||| 2 ^ idx else cut }
  let k := s.carrierOf t e rel
  let (ovr, s0) := s.readOvr fmt idx whole p ((h.map BufGrain.ovr).getD 0)
  let r := s0.trib t
  let drop (g : BufGrain) : BufGrain :=
    if s.takesPoint t rel g.rel && g.idx == idx then
      { g with left := g.left.filter fun x => x != d, late := if known && some g == h then 2 else g.late }
    else g
  let gone := if cause1 = 1 && !known then
      match r.absent.find? fun x => x.1 == rel && x.2.1 == idx with
      | some (_, _, ks) => (rel, idx, k :: ks) :: r.absent.filter fun x => !(x.1 == rel && x.2.1 == idx)
      | none => (rel, idx, [k]) :: r.absent
    else r.absent
  let (gated, pass) := if isCaptureDest d then s.gateGrain t inst idx p else (0, false)
  let eg : EgGrain := { dest := d, rel := rel, instant := inst, idx := idx, payload := p, cause := cause2, ovr := ovr
                        flagged := fmt % 8 == 0 && rangeFlag p, gated := gated, pass := pass }
  let subst := if substituted cause1 then SMap.ins (r.substAt.filter fun x => decide (s.now ≤ x.1 + tMs)) rel
    (SMap.getD r.substAt rel 0 ||| 2 ^ idx) else r.substAt
  let r' := { r with adm := a?.map (·.setDest d e'), held := (r.held.map drop).filter fun g => !g.left.isEmpty
                     absent := gone.filter fun x => decide (s.now ≤ x.1 + 40 * tMs)
                     missing := r.missing.filter fun x => decide (s.now ≤ x.1 + 40 * tMs), substAt := subst }
  let s1 := ((s0.setTrib t r').toEgress t eg).onlyIf last fun s => s.countUnit t rel causes
  let s2 := (s1.bump .trib t 19 (if cause1 = 0 then nWin else 0)).bump .trib t 16 (if known && (h.map BufGrain.late).getD 0 < 2 then 1 else 0)
  let s3 := (s2.onlyIf (cause1 = 2) fun s => s.txDefect t 4 k).onlyIf known fun s => s.txDefect t 3 k
  let s4 := s3.perfHit (s3.tribOwner t) 0x02 (s3.tribLocal t) 1
  let s5 := s4.onlyIf (isCaptureDest d && idx == 0) fun s => s.txStarts t k
  let lowest := match a?.bind (fun a => a.dests.head?) with | some x => x.dest = d | none => false
  s5.onlyIf lowest fun s => ((s.vtGrain t inst idx 4 true).vtGrain t inst idx 7 true)

/-- Units that are due but that the lane's multiframe cannot carry are passed over. -/
def State.skipUnit (s : State) (t : Nat) (e : DestSt) (rel : Nat) : State :=
  let r := s.trib t
  let d := e.dest
  let drop (g : BufGrain) : BufGrain :=
    if s.takesPoint t rel g.rel then { g with left := g.left.filter fun x => x != d } else g
  s.setTrib t { r with adm := r.adm.map (·.setDest d { e with nextFrom := rel + 1, nextGrain := 0, causes := 0, cut := 0 })
                       held := (r.held.map drop).filter fun g => !g.left.isEmpty }

/-- A held unit off the unit grid moves the grid: to its sample grid point, or re-based where it takes none, which is counted
(R183). A lane takes the change at its next multiframe, a packet or capture ring at once. -/
def State.noteRebase (s : State) (t r0 : Nat) (e : DestSt) (point : Nat) : State :=
  let r := s.trib t
  let ahead := (r.held.filter fun h => !h.early && h.left.contains e.dest && decide (e.nextFrom ≤ h.rel)).map BufGrain.rel
  match ahead with
  | [] => s
  | x :: xs =>
    let m := xs.foldl min x
    let k := s.gridFrom t r0 (m - to16 (s.period t) / 2)
    if s.takesPoint t (s.gridPoint t r0 k) m || r.rebase.isSome || decide (point + to16 (s.unitDur t) ≤ m) then s
    else
      let (p, takes) := s.samplePoint t r0 m
      let dest := if takes then p else m
      let s1 := s.bump .trib t 22 (if takes then 0 else 1)
      let later : State := s1.forEach (s1.gridShare t) fun s u => s.setTrib u { s.trib u with rebase := some dest }
      match e.dest with
      | .klf _ => later
      | .cascade _ => later
      | _ => s1.setGrid t dest

/-- The next grain of a destination of an admitted tributary is read if it is due (R196); it waits while its lane's egress boundary is
full. The state and the release time read. -/
def State.readOne (s : State) (t : Nat) (e : DestSt) : Option Nat × State :=
  match s.nextRead t e with
  | none => (none, s)
  | some (r0, rel, readAt, s0) =>
    let d := e.dest
    let idx := e.nextGrain
    match readAt with
    | none => (none, if rel ≤ s.now then s0.skipUnit t e rel else s)
    | some at' =>
      if s.now < at' then (none, s)
      else if s0.inGap t rel then (none, s0.skipUnit t e rel)
      else
        match s0.egressFull d with
        | (true, s1) => (none, { s with fresh := s1.fresh })
        | (false, s1) =>
          let s2 := if idx = 0 then s1.noteRebase t r0 e rel else s1
          let (cause, h, s3) := if s2.merged t then s2.offerMerged t rel idx d else s2.offer t rel idx 0 d
          (some rel, (s3.finishRead t e rel idx cause h).releaseOld t)

/-- The reads of the other members of t's bundle whose units have the same release time, where due, in the same cycle (R187). -/
def State.readMembers (s : State) (t rel : Nat) : State :=
  if !s.fbit (TribCfg.inBundle t) then s
  else
    s.forEach (s.bundleMembers t) fun s u =>
      if u = t then s
      else
        match (s.trib u).adm with
        | none => s
        | some a => a.dests.foldl (fun s e => match s.nextRead u e with
          | some (_, x, _, _) => if x = rel then (s.readOne u e).2 else s
          | none => s) s

/-- RELEASE_READ (R196): the next grain due for a destination of an admitted tributary is read, and with it those of its bundle. -/
def doReleaseRead (t : Nat) (d : Dest) (s : State) : State :=
  match (s.trib t).adm.bind fun a => a.dests.find? fun e => e.dest = d with
  | none => s
  | some e =>
    match s.readOne t e with
    | (none, s1) => s1
    | (some rel, s1) => s1.readMembers t rel

def execReleaseRead (t : TribN) (d : Dest) (s : State) : Out := .next (doReleaseRead t d s)

/-! ## Deep prefetch (R203 to R206, R430) -/

/-- The held grains of a codeword that still lie in HBM, changed by f, which may draw free values. DEDUCED: log entry 189. -/
def State.mapCodeword (s : State) (t cw : Nat) (f : BufGrain → State → BufGrain × State) : State :=
  let (l, s1) := (s.trib t).held.foldl (fun (acc : List BufGrain × State) h =>
    if h.inHbm && h.codeword == cw then let (h', s1) := f h acc.2; (acc.1 ++ [h'], s1) else (acc.1 ++ [h], acc.2)) ([], s)
  let r := s1.trib t
  s1.setTrib t { r with held := l, hbmErr := SMap.del r.hbmErr cw }

/-- A codeword decoded, with the dies that the controller flags for it (R430, R431): whether it is good, and the state with the
outcome counted. With two dies in error, none flagged and none marked, a wrong acceptance on a third die is open. DEDUCED: log entry 107.
DEDUCED: log entry 189. -/
def State.decodeCw (s : State) (t st cw flags unit kind : Nat) : Bool × State :=
  let r := s.trib t
  let err := SMap.getD r.hbmErr cw 0 ||| flags
  let dead := s.deadDies st
  let bad := ((List.range 12).filter fun i => err.testBit i && !dead.testBit i)
  let fixed (s : State) : State := s.mapCodeword t cw fun h s => (h, s)
  let unc (s : State) : Bool × State :=
    (false, (s.mapCodeword t cw fun h s => ({ h with poison := true }, s)).foundUncorrectable (s.tribOwner t) 2 st
      (if bad.length = 1 then bad.headD 15 else 15) (BitVec.ofNat 32 cw) unit kind)
  match bad with
  | [] => if dead = 0 then (true, s) else (true, ((fixed s).bump .trib t 23 1).bump .mem 0 15 1)
  | [p] => if dead = 0 then (true, ((fixed s).bump .mem 0 2 1).countDie st p) else unc s
  | _ =>
    if dead ≠ 0 ∨ bad.any (fun i => flags.testBit i) then unc s
    else
      let (wrong, s1) := s.freeB
      if wrong then
        let (p, s2) := s1.free 8
        let others := (List.range 12).filter fun i => !bad.contains i
        let s3 := s2.mapCodeword t cw fun h s => let (v, s1) := s.free 64; ({ h with payload := BitVec.ofNat 64 v }, s1)
        (true, (s3.bump .mem 0 2 1).countDie st ((others[p % max 1 others.length]?).getD 0))
      else unc s1

/-- The grains of a deep unit enter staging, each codeword decoded once: poisoned where it is uncorrectable (R429); a merged unit's
copy is selected here and the other copy's is dropped where the selected one is good (R240, R245). -/
def State.stageUnit (s : State) (t st rel : Nat) : State :=
  let merged := s.merged t
  let mine (h : BufGrain) : Bool := h.inHbm && h.late == 0 && s.takesPoint t rel h.rel
  let seq := match (s.trib t).held.filter mine with | h :: _ => h.mf | [] => 0
  let (dec, _, s0) := if merged then s.decideMf t seq else (0, 0, s)
  let cws := ((s0.trib t).held.filter fun h => mine h && !h.early).map BufGrain.codeword
  let s1 := cws.eraseDups.foldl (fun s cw => (s.decodeCw t st cw 0 0 0).2) s0
  let gs := (s1.trib t).held.filter mine
  let s2 := (s.stagingLocs t rel).foldl (fun s loc => s.takePosition loc) s1
  let r := s2.trib t
  let kept := r.held.filter fun h => !(mine h && merged && decide (dec < 2) && h.copy != dec
    && gs.any (fun x => x.copy == dec && x.idx == h.idx && !x.poison))
  s2.setTrib t { r with held := kept.map fun h => if mine h then { h with inHbm := false } else h, prefTo := max r.prefTo (rel + 1) }

/-- DEEP_PREFETCH (R203): the earliest unit still in HBM is read back 16 us before its first read, once no request of higher priority waits
for its banks (R33); nothing comes back from a lost stack (R206). DEDUCED: log entry 107. -/
def doDeepPrefetch (t : Nat) (s : State) : State :=
  match s.prefetchDue t with
  | none => s
  | some (st, rel) => if (s.stagingLocs t rel).any (s.bankBusy 3) then s else s.stageUnit t st rel

def execDeepPrefetch (t : TribN) (s : State) : Out := .next (doDeepPrefetch t s)

end Sys2Proof.Machine
end

