-- ==== Sys2Proof/Machine/Ethernet.lean ====
section
/-! DEFINITION. Ethernet ports: received frames (R120, R165, R166), ESMC and PTP (R276, R278, R299 to R301), packets built (R163, R164)
and alignment (R121). -/

namespace Sys2Proof.Machine

/-! ## Received frames -/

/-- The frame check sequence that a frame's bytes without it call for (R119). -/
def fcs (bs : List Byte) : Nat := crcOut 32 true true (crcFeed 32 0x04C11DB7 true 0xFFFFFFFF bs)

/-- A port's PTP and ESMC frames of a direction (0 received, 1 sent) in the second that runs: whether one more passes the limit of
512, and those dropped since the last that passed (R301). DEDUCED: log entry 67. -/
def State.frameLimit (s : State) (port dir : Nat) : Bool × Nat × State :=
  let k := 2 * port + dir
  let (start, n, lost) := SMap.getD s.tim.frames k (0, 0, 0)
  let put (v : Nat × Nat × Nat) : State := { s with tim := { s.tim with frames := SMap.putD s.tim.frames k (0, 0, 0) v } }
  if 156250000 ≤ s.since start ∨ n = 0 then (true, lost, put (s.ticks, 1, 0))
  else if n < 512 then (true, lost, put (start, n + 1, 0))
  else (false, 0, put (start, n, min 255 (lost + 1)))

/-- A FRAME event with its continuation entries (R369, R370), while partition 0 accepts FRAMES. DEDUCED: log entry 67. -/
def State.frameEvent (s : State) (port : Nat) (bs : List Byte) (arrival : Nat) (esmc : Bool) : State :=
  if !s.feature 0 5 then s
  else
    match s.frameLimit port 0 with
    | (false, _, s1) => s1
    | (true, lost, s1) =>
      let cut := bs.take 448
      let d0 := bs.length % 65536 + (if 448 < bs.length then 2 ^ 16 else 0) + (if esmc then 2 ^ 17 else 0) + lost * 2 ^ 24
      let more := (List.range ((cut.length + 27) / 28)).map fun i =>
        padEntry ([0x8A, 0, BitVec.ofNat 8 (i + 1), 0] ++ (cut.drop (28 * i)).take 28)
      s1.raiseMany 0 0x0A arrival (eventEntry 0x0A port d0 arrival 0 :: more)

/-- A frame is a PTP message (R299): over UDP to port 319 or 320, or Ethertype 0x88F7. PRESUMED: log entry 69. -/
def isPtp (bs : List Byte) : Bool :=
  let e := etherOff bs
  match ipHead bs (beAt bs e 2) (e + 2) with
  | some (_, n) => let d := beAt bs (e + 2 + n + 2) 2; d == 319 || d == 320
  | none => beAt bs e 2 == 0x88F7

/-- A frame is an ESMC frame (R278). PRESUMED: log entry 69. -/
def isEsmc (bs : List Byte) : Bool := beAt bs 12 2 == 0x8809 && beAt bs 14 1 == 0x0A

/-- The SSM code of the QL TLV of an ESMC PDU, and whether the PDU is an information PDU. The layout is that of ITU-T G.8264. PRESUMED: log entry 69. -/
def esmcQl (bs : List Byte) : Option (Nat × Bool) :=
  if beAt bs 24 1 = 1 ∧ beAt bs 25 2 = 4 then some (beAt bs 27 1 % 16, !(beAt bs 20 1).testBit 3) else none

/-- An SSM code as a level: codes 2, 4, 8, B and F map, every other counts as DNU. PRESUMED: log entry 69. -/
def ssmCode (q : Nat) : Nat := if q = 2 ∨ q = 4 ∨ q = 8 ∨ q = 11 then q else 15

/-- The line monitors that take ESMC on a port: those of its group, where the port contains the group's current clock lane. -/
def State.esmcMonitors (s : State) (port : Nat) : List Nat :=
  let g := port / 4
  let clk := 4 * g + s.fget (GrpStat.clkLaneAct g)
  match s.portLanes port with
  | some k => if port ≤ clk ∧ clk < port + k then s.monitorsOf g else []
  | none => []

/-- A received ESMC frame sets the level of its port. -/
def State.esmcFrame (s : State) (port : Nat) (bs : List Byte) : State :=
  match esmcQl bs with
  | none => s
  | some (q, info) =>
    let last := if info then s.ticks else (SMap.getD s.tim.esmc port (0, 15)).1
    let s1 := { s with tim := { s.tim with esmc := SMap.ins s.tim.esmc port (last, ssmCode q) } }
    s1.forEach (s1.esmcMonitors port) fun s n => s.receiveQl n (ssmCode q)

/-- ESMC_QL_TIMEOUT (R278): 5 s without an information PDU. -/
def doEsmcQlTimeout (port : Nat) (s : State) : State :=
  let stale := match SMap.find s.tim.esmc port with | none => true | some (t, _) => decide (781250000 ≤ s.since t)
  if stale then s.forEach (s.esmcMonitors port) fun s n => s.failQl n else s

def execEsmcQlTimeout (port : Lane) (s : State) : Out := .next (doEsmcQlTimeout port s)

/-! ## Packets received (R165, R166) -/

/-- The tributary that a received packet is offered to. -/
def State.ethMatch (s : State) (port : Nat) (bs : List Byte) (h : VrtHead) : Option Nat :=
  let key := (port, beAt bs (h.udp + 2) 2, beAt bs (h.vrt + 4) 4)
  (List.range 4096).find? fun t => s.fbit (TribCfg.en t) && s.fget (TribCfg.src t) == 1 && s.tmplMatch t == some key

/-- The value congruent to x modulo 2^32 nearest y. -/
def nearest32 (x y : Nat) : Nat :=
  let d := (x + 2 ^ 32 - y % 2 ^ 32) % 2 ^ 32
  if d < 2 ^ 31 then y + d else y + d - 2 ^ 32

/-- The stated instant of a packet's first instant (R166). -/
def State.packetTime (s : State) (bs : List Byte) (h : VrtHead) : Nat :=
  let o := h.vrt + 8 + (if h.classId then 8 else 0)
  let sec := nearest32 ((beAt bs o 4 + (if h.tsi = 2 then 315964819 else 0)) % 2 ^ 32) (s.now / tSec)
  let ps := beAt bs (o + 4) 8
  sec * tSec + ps / 1000 * 65536 + ps % 1000 * 65536 / 1000

/-- A packet is discarded and counted, with SEQ. DEDUCED: log entry 71. -/
def State.packetBad (s : State) (t : Nat) : State := ((s.rxDefects t 1).bump .trib t 12 1).bump .trib t 4 1

/-- The codes of a unit whose instants are already written made blank; none of it is left where all are (R166). -/
def keepUnwritten (fmt : Nat) (written : Nat → Bool) (gs : List (BitVec 64)) : List (BitVec 64) :=
  if (List.range (unitInstants fmt)).all written then []
  else gs.zipIdx.map fun e => blankCodes fmt e.2 (fun k => written (codeInstant fmt k)) e.1

/-- ETH_PACKET_RX (R166): the units of an offered packet that arrived at the stated time are placed at their stated instants; instants
half a sample period or more before the end of the packet before it are already written. DEDUCED: log entry 66. DEDUCED: log entry 71. -/
def State.packetRx (s : State) (t : Nat) (bs : List Byte) (h : VrtHead) (arrival : Nat) : State :=
  let w := beAt bs h.vrt 4
  let size := 4 * (w % 65536)
  let tail := if h.trailer then 4 else 0
  let n := size - (h.len - h.vrt) - tail
  let fmt := s.tfmt t
  let g := unitGrains fmt
  if !h.timed || decide (bs.length < h.vrt + size) || decide (size < h.len - h.vrt + tail) || n % (8 * g) != 0 then s.packetBad t
  else
    let grains := (List.range (n / 8)).map fun i => BitVec.ofNat 64 (beAt bs (h.len + 8 * i) 8)
    let units := n / (8 * g)
    let ts := s.packetTime bs h
    let apart (x y : Nat) : Bool := decide (x ≤ y ∧ s.period t ≤ 2 * (y - x) * 65536)
    let count := w / 65536 % 16
    let r := s.trib t
    let dur (k : Nat) : Nat := to16 (k * s.unitDur t)
    let (seq, fin) := match r.rxPacket with
      | none => (false, 0)
      | some (fin, next) => (count != next || apart fin ts || apart ts fin, if apart ts fin then fin else 0)
    let word := if h.trailer then beAt bs (h.len + n) 4 else 0
    let on (e i : Nat) : Bool := word.testBit e && word.testBit i
    let upd := word.testBit 30 && !word.testBit 18
    let orng := on 25 13 || (fmt % 8 == 0 && grains.any rangeFlag)
    let age := s.tribAge t
    let new := (List.range units).flatMap fun u =>
      let unit := (grains.drop (g * u)).take g
      let written (j : Nat) : Bool := fin != 0 && apart (ts + dur u + to16 (j * s.period t)) fin
      let kept := if written 0 then keepUnwritten fmt written unit else unit
      kept.zipIdx.map fun e => ({ instant := ts + dur u - age, idx := e.2, payload := e.1, arrival := arrival } : InGrain)
    let s1 := s.setTrib t { r with fab := r.fab ++ new, rxPacket := some (ts + dur units, (count + 1) % 16) }
    let s2 := new.foldl (fun s e => s.vtArrive t (s.fget (TribEthCfg.port t)) e.instant e.idx (some arrival)) s1
    let s3 := (List.range units).foldl (fun s u => s.noteLag t (ts + dur u - age) arrival) s2
    let s4 := s3.onlyIf (on 25 13 && fmt % 8 != 0 && units != 0) fun s => s.noteOvr t (ts - age) (ts + dur (units - 1) - age) 0
    let b (c : Bool) : Nat := if c then 1 else 0
    let s5 := s4.rxDefects t (b seq + 4 * b orng + 32 * b upd)
    ((((s5.bump .trib t 4 (b seq)).bump .trib t 6 (b orng)).bump .trib t 7 (b upd)).bump .trib t 11 1).bump .trib t 1 grains.length

/-- ETH_FRAME_RX (R120, R165, R301): a frame, FCS included, that arrived at the stated time, with uncorrectable content or not. DEDUCED: log entry 66.
DESIGN CHOICE: log entry 193. DESIGN CHOICE: log entry 195. -/
def doEthFrameRx (port : Nat) (frame : List Byte) (arrival : Nat) (fecBad : Bool) (s : State) : State :=
  let n := frame.length
  let bs := frame.take (n - 4)
  if !s.portCarries port then s
  else if fecBad || decide (n < 4) || fcs bs != ofLe (frame.drop (n - 4)) then s.bump .lane port 36 1
  else if n < 64 ∨ s.fget (LaneEthCfg.maxFrame port) < n then s.bump .lane port 37 1
  else if beAt bs 12 2 = 0x8808 then s.bump .lane port 38 1
  else
    let s1 := s.bump .lane port 35 1
    let ptp := isPtp bs
    let esmc := isEsmc bs
    let s2 := s1.onlyIf esmc (·.esmcFrame port bs)
    let s3 := s2.onlyIf (ptp || esmc) (·.frameEvent port bs arrival esmc)
    match parseVrt bs with
    | some h =>
      match if checksumsOk bs h then s3.ethMatch port bs h else none with
      | some t => s3.packetRx t bs h arrival
      | none => if ptp then s3 else s3.fsat (LaneEthUnm.count port) 1
    | none => if ptp then s3 else s3.fsat (LaneEthUnm.count port) 1

def execEthFrameRx (port : Lane) (bytes : List Byte) (arrival : Nat) (fecBad : Bool) (s : State) : Out :=
  .next (doEthFrameRx port bytes arrival fecBad s)

/-! ## Packets sent (R163, R164) -/

/-- Bytes i on of a frame replaced by a number, highest byte first. -/
def putBe (bs : List Byte) (i n v : Nat) : List Byte := bs.take i ++ (leBytes n v).reverse ++ bs.drop (i + n)

/-- The grains of a packet: gpp, in whole units. DESIGN CHOICE: log entry 214. -/
def State.packetSize (s : State) (t : Nat) : Nat :=
  let g := unitGrains (s.tfmt t)
  max g (s.fget (TribEthCfg.gpp t) / g * g)

/-- The grains of the next packet: up to its size from the front, cut where the release times leave the grid. DEDUCED: log entry 70. -/
def State.packetGrains (s : State) (t : Nat) (es : List EgGrain) : List EgGrain :=
  let u := to16 (s.unitDur t)
  let half := to16 (s.period t) / 2
  let rec run : Nat → Option Nat → List EgGrain → List EgGrain
    | 0, _, _ => []
    | _, _, [] => []
    | n + 1, last, e :: es =>
      match last with
      | some r => if e.rel = r ∨ (e.rel < r + u + half ∧ r + u < e.rel + half) then e :: run n (some e.rel) es else []
      | none => e :: run n (some e.rel) es
  run (s.packetSize t) none es

/-- The packet that a tributary has whole for a port, once the release time of its last unit has passed: its grains, and how many wait. -/
def State.duePacket (s : State) (t port : Nat) : Option (List EgGrain × Nat) :=
  let mine := (s.trib t).egress.filter fun e => e.dest = Dest.eth port
  let gs := s.packetGrains t mine
  if gs.isEmpty || !(gs.length = s.packetSize t || decide (gs.length < mine.length)) || gs.any fun e => decide (s.now < e.rel) then none
  else some (gs, mine.length)

/-- The release time of the last unit of a packet. -/
def lastRel (gs : List EgGrain) : Nat := (gs.map EgGrain.rel).foldl max 0

/-- Another tributary's packet leaves a port before t's: packets go in order of the release time of their last unit, ties in ascending
tributary order (R186). -/
def State.packetBefore (s : State) (t port : Nat) (gs : List EgGrain) : Bool :=
  s.tribs.any fun x => x.1 != t && (match s.duePacket x.1 port with
    | some (us, _) => decide (lastRel us < lastRel gs) || (lastRel us == lastRel gs && decide (x.1 < t))
    | none => false)

/-- The over-range indicator of a packet follows ORNG for its grains (R164): a range flag, a code that a slicer counted, or a span stated
upstream; a span that lies only partly in the packet leaves it open. DESIGN CHOICE: log entry 25. -/
def State.packetOvr (s : State) (t : Nat) (gs : List EgGrain) : Bool × State :=
  if s.tfmt t % 8 = 0 then (gs.any EgGrain.flagged, s)
  else
    let a := (gs.map EgGrain.instant).foldl min ((gs.map EgGrain.instant).headD 0)
    let b := (gs.map EgGrain.instant).foldl max 0
    let near := (s.trib t).ovr.filter fun x => decide (a ≤ x.2.1 ∧ x.1 ≤ b)
    if gs.any fun e => e.ovr != 0 then (true, s)
    else if near.isEmpty then (false, s)
    else if (near.any fun x => decide (a ≤ x.1 ∧ x.2.1 ≤ b)) && !gs.any (fun e => substituted e.cause) then (true, s)
    else s.freeB

/-- The frame of a packet without FCS: template, lengths, checksums, timestamps and trailer (R163, R164). -/
def State.packetFrame (s : State) (t : Nat) (tm : List Byte) (h : VrtHead) (gs : List EgGrain) (ovr : Bool) : List Byte :=
  let payload := gs.flatMap fun e => (payloadBytes e.payload).reverse
  let valid := !gs.any fun e => e.payload == blankGrain (s.tfmt t) e.idx
  let loss := (s.fget (TribDef.defs t)).testBit 5
  let bit (b : Bool) (i : Nat) : Nat := if b then 2 ^ i else 0
  let trailer := if h.trailer then (leBytes 4 (2 ^ 30 + 2 ^ 25 + 2 ^ 24 + bit valid 18 + bit ovr 13 + bit loss 12)).reverse else []
  let body := payload ++ trailer
  let size := h.len - h.vrt + body.length
  let first := (gs.headD { dest := .eth 0, rel := 0, instant := 0, idx := 0, payload := 0, cause := 0 })
  let time := if s.fbit (TribEthCfg.tsMode t) then first.rel else first.instant
  let sec := if h.tsi = 2 then time / tSec + 2 ^ 32 - 315964819 else time / tSec
  let o := h.vrt + 8 + (if h.classId then 8 else 0)
  let w := beAt tm h.vrt 4 / 2 ^ 20 * 2 ^ 20 + (s.trib t).packetNo % 16 * 65536 + size / 4 % 65536
  let f1 := putBe (putBe (putBe tm h.vrt 4 w) o 4 sec) (o + 4) 8 (time % tSec * 1000 / 65536)
  let len := 8 + size
  let f2 := putBe f1 (h.udp + 4) 2 len
  let f3 := if h.v6 then putBe f2 (h.ip + 4) 2 len
    else
      let a := putBe (putBe f2 (h.ip + 2) 2 (20 + len)) (h.ip + 10) 2 0
      putBe a (h.ip + 10) 2 (65535 - onesSum ((a.drop h.ip).take 20))
  let all := f3 ++ body
  if h.v6 || beAt tm (h.udp + 6) 2 != 0 then
    let z := putBe all (h.udp + 6) 2 0
    let c := 65535 - onesSum (pseudoHeader z h len ++ z.drop h.udp)
    putBe all (h.udp + 6) 2 (if c = 0 then 65535 else c)
  else all

/-- A frame leaves by a port: padded to 60 bytes, with its FCS. -/
def State.sendFrame (s : State) (port : Nat) (bs : List Byte) : State :=
  let f := bs ++ List.replicate (60 - bs.length) 0
  (s.emit (.frame port (f ++ leBytes 4 (fcs f)) s.now)).bump .lane port 39 1

/-- Destination d of an admission has had one more packet built. -/
def State.packetDone (s : State) (t : Nat) (d : Dest) : State :=
  let r := s.trib t
  let one (a : Adm) : Adm := { a with dests := a.dests.map fun e => if e.dest = d then { e with built := e.built + 1 } else e }
  s.setTrib t { r with adm := r.adm.map one, packetNo := r.packetNo + 1 }

/-- The packets built so far for a destination. -/
def State.packetsBuilt (s : State) (t : Nat) (d : Dest) : Nat :=
  (((s.trib t).adm.bind fun a => a.dests.find? fun e => e.dest = d).map DestSt.built).getD 0

/-- A packet that cannot leave, its port being disabled, is gone (R118). -/
def State.packetLost (s : State) (t : Nat) (gs : List EgGrain) : State :=
  gs.foldl (fun s e => s.vtGrainEnd t e.instant e.idx 2 e.cause) s

/-- ETH_PACKET_BUILD (R163, R164): once the release time of its last unit has passed, and no other packet leaves the port before it, the
next packet of a tributary for a port is built and sent. A poisoned template word discards it, with its units counted (R435).
DEDUCED: log entry 70. -/
def doEthPacketBuild (t port : Nat) (s : State) : State :=
  let d := Dest.eth port
  match s.duePacket t port with
  | none => s
  | some (gs, _) =>
    if s.packetBefore t port gs then s
    else
      let r := s.trib t
      let rest := (r.egress.filter fun e => e.dest = d).drop gs.length
      let s1 := s.setTrib t { r with egress := r.egress.filter (fun e => e.dest != d) ++ rest }
      if !s1.portEnabled port then s1.packetLost t gs
      else
        let n := s1.fget (TribEthCfg.hdrLen t)
        match s1.treadN (s1.tribOwner t) (tmplBase t) n t 7 with
        | (none, s2) => (s2.bump .trib t 21 (gs.length / unitGrains (s.tfmt t))).packetLost t gs
        | (some v, s2) =>
          let tm := leBytes n v
          match parseTemplate tm with
          | none => s2.packetLost t gs
          | some h =>
            let (ovr, s3) := s2.packetOvr t gs
            let bytes := s3.packetFrame t tm h gs ovr
            let s4 := (s3.txStarts t (carrierKey d (s3.packetsBuilt t d))).packetDone t d
            let blanks := (gs.filter fun e => e.payload == blankGrain (s4.tfmt t) e.idx).length
            let s5 := ((s4.bump .trib t 9 gs.length).bump .trib t 10 blanks).bump .trib t 13 1
            let s6 := gs.foldl (fun s e => ((s.vtGrain t e.instant e.idx 5 true).vtGrain t e.instant e.idx 6 true).vtGrainEnd t e.instant e.idx
              (if e.cause = 0 ∨ e.cause = 5 then 0 else 1) e.cause) s5
            s6.sendFrame port bytes

def execEthPacketBuild (t : TribN) (port : Lane) (s : State) : Out := .next (doEthPacketBuild t port s)

/-! ## Alignment (R121) -/

/-- The FEC window of an Ethernet port starts anew; without alignment-marker lock SF and SD are absent (R102, R121). -/
def State.ethWindow (s : State) (port : Nat) : State :=
  let l := s.lane port
  let s1 := s.setLane port { l with rx := { l.rx with winErr := 0, winUnc := 0, winFrom := s.ticks } }
  if s1.fbit (LaneEthStat.amLockAll port) then s1 else (s1.setDef port dSf false false).setDef port dSd false false

/-- ETH_ALIGNMENT_CHANGE (R121): marker lock, PCS alignment, and the local and remote fault of an enabled port. -/
def doEthAlignmentChange (port : Nat) (am aligned lf rf : Bool) (s : State) : State :=
  if !s.portEnabled port then s
  else
    let was := s.fbit (LaneEthStat.lf port)
    let amWas := s.fbit (LaneEthStat.amLockAll port)
    let s1 := (((s.fsetB (LaneEthStat.amLockAll port) am).fsetB (LaneEthStat.alignStatus port) aligned).fsetB (LaneEthStat.lf port) lf).fsetB
      (LaneEthStat.rf port) rf
    let s2 := (s1.ethDefects port).onlyIf (am != amWas) fun s => s.ethWindow port
    let s3 := s2.bump .lane port 40 (if lf && !was then 1 else 0)
    s3.onlyIf (s3.fbit (LaneEthCfg.rfOnLf port) && lf != was) (·.emit (.remoteFault port lf))

def execEthAlignmentChange (port : Lane) (amLock aligned localFault remoteFault : Bool) (s : State) : Out :=
  .next (doEthAlignmentChange port amLock aligned localFault remoteFault s)

end Sys2Proof.Machine
end

