-- ==== Sys2Proof/Machine/CoreOps.lean ====
section
/-! DEFINITION. Sepia cores as the rest of the device sees them: semaphores (R415 to R418), reset and power of a core (R400, R414). -/

namespace Sys2Proof.Machine

/-! ## Registers of a core -/

/-- Register x[i]; x0 reads 0 (R382). -/
def CoreSt.reg (q : CoreSt) (i : Nat) : Word := if i = 0 then 0 else SMap.getD q.x i 0

/-- A write of x[i]; one to x0 is discarded. -/
def CoreSt.setReg (q : CoreSt) (i : Nat) (v : Word) : CoreSt := if i = 0 then q else { q with x := SMap.putD q.x i 0 v }

/-- SEP_STAT.state of a core. -/
def State.coreState (s : State) (c : Nat) : Nat := s.fget (SepStat.state c)
def State.setCoreState (s : State) (c v : Nat) : State := s.fset (SepStat.state c) v

/-! ## Semaphores -/

/-- The semaphores a holder holds. -/
def State.semsHeld (s : State) (h : Nat) : List Nat := (List.range 64).filter fun i => (s.sem i).holder == some h

/-- A holder may use a semaphore: every core may, a host side where the map grants it (R415). -/
def State.semPermitted (s : State) (h i : Nat) : Bool := decide (h < 32) || s.semOwner? i == some (h - 32)

/-- A free semaphore passes to the next waiting core: its SLOCK ends with result 0, or 1 where ABANDONED was set (R417). -/
def State.semGrant (s : State) (i : Nat) : State :=
  let m := s.sem i
  match m.holder, m.waiters with
  | none, h :: hs =>
    let s1 := s.setSem i { holder := some h, abandoned := false, waiters := hs }
    let q := s1.core h
    match q.wait with
    | .lock j rd =>
      if j = i then
        (s1.setCore h { q.setReg rd (if m.abandoned then 1 else 0) with wait := .none, pc := q.pc + 4 }).setCoreState h 1
      else s1
    | _ => s1
  | _, _ => s

/-- A request without waiting: the result of R417 and the state after it. -/
def State.semTry (s : State) (h i : Nat) : Nat × State :=
  let m := s.sem i
  if !s.semPermitted h i then (3, s)
  else if (s.semsHeld h).any fun j => decide (i ≤ j) then (2, s)
  else
    match m.holder with
    | some _ => (4, s)
    | none => (if m.abandoned then 1 else 0, s.setSem i { m with holder := some h, abandoned := false })

/-- A release: the result of R417, with the grant to the next waiter in the same handshake. DEDUCED: log entry 151. -/
def State.semFree (s : State) (h i : Nat) : Nat × State :=
  let m := s.sem i
  if m.holder = some h ∧ s.semPermitted h i then (0, (s.setSem i { m with holder := none }).semGrant i) else (3, s)

/-- A holder loses what it holds, each freed with ABANDONED, and its waiting request is withdrawn (R418). -/
def State.semAbandon (s : State) (h : Nat) : State :=
  s.forEach (List.range 64) fun s i =>
    let m := s.sem i
    let ws := m.waiters.filter (· != h)
    if m.holder = some h then (s.setSem i { holder := none, abandoned := true, waiters := ws }).semGrant i
    else s.setSem i { m with waiters := ws }

/-! ## Reset and power -/

/-- The address where a core starts (R382, R485). -/
def startPc (c : Nat) : Word := if c = 0 then 0x80000 else 0

/-- The reader of an overhead FIFO goes back to what was not released (R414). -/
def State.fifoReread (s : State) (g : Nat) : State :=
  let q := s.group g
  s.setGroup g { q with rd := q.rel, mark := q.rel }

/-- The overhead FIFO of group g is emptied and its pointers return to 0; a load stalled on it ends with BUS (R414). -/
def State.fifoStop (s : State) (g : Nat) : State :=
  let s1 := s.fifoEmpty g
  let q := s1.core (g + 1)
  match q.wait with
  | .fifo _ => (s1.setCore (g + 1) { q with wait := .none, trapPend := some (4, q.pc, 0x20000) }).setCoreState (g + 1) 1
  | _ => s1

/-- A core reset (R400): stores and an open sequence discarded, semaphores abandoned, registers and CSRs reset, memories kept; tags of its
instructions end. The core is then in reset. -/
def State.coreReset (s : State) (c : Nat) : State :=
  let s1 := ((s.setCore c { pc := startPc c }).setCoreState c 0).semAbandon c
  let s2 := if 1 ≤ c ∧ c ≤ 24 then s1.fifoReread (c - 1) else s1
  ((s2.fsetB (SepStat.inAtom c) false).vtAbort 0 true c).alarm

/-- The memories of core c become unwritten. -/
def State.coreMemLost (s : State) (c : Nat) : State := s.tfill (sepBase c) 0xC000

/-- The power domain of core c goes off (R400, R491): as a reset, but its buffered stores still drain, and its memories are unwritten
when it returns. -/
def State.coreOff (s : State) (c : Nat) : State :=
  let w := (s.core c).wbuf
  let s1 := ((s.coreReset c).coreMemLost c).setDom (117 + c) false
  (s1.setCore c { s1.core c with wbuf := w }).setCoreState c 6

/-- Core c runs: an integration of lane defects that it carries starts again from 0 (R110). -/
def State.coreRun (s : State) (c : Nat) : State :=
  (s.setCoreState c 1).onlyIf (decide (1 ≤ c ∧ c ≤ 26)) fun s => s.countsRestart (c - 1)

/-- A core leaves reset: it runs, or halts at once where a halt is requested. DEDUCED: log entry 155. -/
def State.coreStart (s : State) (c : Nat) : State :=
  let s1 := s.setCore c { s.core c with pc := startPc c }
  if s1.fbit (SepDbgCtl.haltReq c) then (s1.setCoreState c 4).fset (SepDpc.dpc c) (startPc c).toNat else s1.coreRun c

/-- The power domain of core c is on and ready: its memories unwritten where it was off (R400), in reset, or running where SEP_CTL.en is 1. DEDUCED: log entry 122. DEDUCED: log entry 123. -/
def State.coreOn (s : State) (c : Nat) : State :=
  let s0 := s.onlyIf (s.coreState c == 6) fun s => s.coreMemLost c
  let s1 := (s0.setDom (117 + c) true).setCoreState c 0
  if s1.fbit (SepCtl.en c) then s1.coreStart c else s1

/-- CORE_ENABLE (R381): SEP_CTL.en goes to 1. DEDUCED: log entry 155. -/
def doCoreEnable (c : Nat) (s : State) : State :=
  if s.fbit (SepCtl.en c) then s
  else
    let s1 := s.fsetB (SepCtl.en c) true
    if s1.coreState c = 6 then s1 else s1.coreStart c

def execCoreEnable (c : CoreN) (s : State) : Out := .next (doCoreEnable c s)

/-- CORE_RESET (R400): SEP_CTL.en goes to 0. -/
def doCoreReset (c : Nat) (s : State) : State :=
  let s1 := s.fsetB (SepCtl.en c) false
  if s1.coreState c = 6 then s1 else s1.coreReset c

def execCoreReset (c : CoreN) (s : State) : Out := .next (doCoreReset c s)

/-- SEM_ACQUIRE_READ (R480): a host read of SEM_ACQ_i; under peek it makes no request and returns 7. -/
def doSemAcquireRead (p i : Nat) (s : State) : State :=
  if s.peeks (32 + p) then s.emit (.readData (32 + p) 7)
  else
    let (r, s1) := s.semTry (32 + p) i
    s1.emit (.readData (32 + p) (BitVec.ofNat 32 r))

def execSemAcquireRead (p : Part) (i : SemN) (s : State) : Out := .next (doSemAcquireRead p i s)

/-- SEM_RELEASE_WRITE (R480): a host write of any value to SEM_REL_i. -/
def doSemReleaseWrite (p i : Nat) (s : State) : State :=
  let (r, s1) := s.semFree (32 + p) i
  s1.fset (SemRelRes.result p) r

def execSemReleaseWrite (p : Part) (i : SemN) (value : Word) (s : State) : Out :=
  let _ := value
  .next (doSemReleaseWrite p i s)

/-- SEMAPHORE_GRANT (R417): a released semaphore is granted to the next waiter. -/
def execSemaphoreGrant (i : SemN) (s : State) : Out := .next (s.semGrant i)

end Sys2Proof.Machine
end

