-- ==== Sys2Proof/Machine/Domains.lean ====
section
/-! DEFINITION. What a power domain loses and zeroes when it is switched (R43, R427, R440, R491), and the domains that the device
switches by itself (R40, R42, R492, R493). -/

namespace Sys2Proof.Machine

/-! ## Laps of the scrubber (R440) -/

/-- The lap of a class: 0 T, 1 B, 2 D. -/
def State.scrub (s : State) (cls : Nat) : ScrubSt :=
  if cls = 0 then s.mem.scrubT else if cls = 1 then s.mem.scrubB else s.mem.scrubD

def State.setScrub (s : State) (cls : Nat) (x : ScrubSt) : State :=
  { s with mem := if cls = 0 then { s.mem with scrubT := x } else if cls = 1 then { s.mem with scrubB := x }
                  else { s.mem with scrubD := x } }

/-- The lap target of a class in us, from MEM_SCRUB_TGT. -/
def State.scrubTarget (s : State) (cls : Nat) : Nat :=
  if cls = 0 then s.fget MemScrubTgt.tMs * 1000 else if cls = 1 then s.fget MemScrubTgt.bMs * 1000
  else s.fget MemScrubTgt.dS * 1000000

/-- A new lap of a class starts (R440). DEDUCED: log entry 103. -/
def State.scrubRestart (s : State) (cls : Nat) : State :=
  s.setScrub cls { next := 0, startedAt := s.ticks, targetUs := s.scrubTarget cls }

/-! ## What a switched domain loses (R43, R491) -/

/-- Every domain of a list is off. -/
def State.allOff (s : State) (ds : List Nat) : Bool := ds.all fun d => !s.domOn d

/-- The class T memory of a domain, where it has one that a unit switches. -/
def holdsTables (d : Nat) : Bool :=
  decide (d = 11 ∨ d = 12 ∨ (47 ≤ d ∧ d < 53) ∨ (77 ≤ d ∧ d < 149))

/-- The calendar banks of lane n are unwritten. -/
def State.calLost (s : State) (n : Nat) : State := (s.tfill (calBase n 0 0) 0x14000).fset (LaneCalStat.committed n) 0

/-- The coefficient banks of cluster c are unwritten. -/
def State.coefLost (s : State) (c : Nat) : State :=
  (s.tfill (0x600000 + c * 0x2000) 0x2000).forEach (List.range 16) fun s i => s.fset (SlcStat.committed (16 * c + i)) 0

/-- The written templates, by number. -/
def State.templatesWritten (s : State) : List Nat :=
  ((s.tbl.filter fun c => decide (0x700000 ≤ c.1 ∧ c.1 < 0x780000)).map fun c => (c.1 - 0x700000) / 0x80).eraseDups

/-- A packet engine has gone off: every template is unwritten where it was the last, else those it held, which the spec does not
name. DESIGN CHOICE: log entry 120. -/
def State.templatesLost (s : State) : State :=
  if s.allOff ((List.range 6).map (47 + ·)) then s.tfill 0x700000 0x80000
  else s.forEach s.templatesWritten fun s t =>
    let (lost, s1) := s.freeB
    s1.onlyIf lost fun s => s.tfill (0x700000 + t * 0x80) 0x80

/-- Laps of the classes with memory in a domain that is switched end, and new ones start (R440). DEDUCED: log entry 103. -/
def State.scrubSwitched (s : State) (d : Nat) : State :=
  let t := s.onlyIf (holdsTables d) fun s => s.scrubRestart 0
  let b := t.onlyIf (decide (17 ≤ d ∧ d ≤ 40)) fun s => s.scrubRestart 1
  b.onlyIf (d == 45 || d == 46) fun s => s.scrubRestart 2

/-- A domain goes off, with what it holds. DEDUCED: log entry 114. -/
def State.domainOff (s : State) (d : Nat) : State :=
  if !s.domOn d then s
  else
    let s1 := (s.setDom d false).scrubSwitched d
    let s2 := { s1 with mem := { s1.mem with filling := s1.mem.filling.filter (· != d) } }
    if d = 11 ∨ d = 12 then (s2.calLost (96 + 2 * (d - 11))).calLost (97 + 2 * (d - 11))
    else if 47 ≤ d ∧ d < 53 then s2.templatesLost
    else if 77 ≤ d ∧ d < 101 then
      (s2.forEach (List.range 4) fun s i => s.calLost (4 * (d - 77) + i)).fifoStop (d - 77)
    else if 101 ≤ d ∧ d < 117 then s2.coefLost (d - 101)
    else if 117 ≤ d then s2.coreOff (d - 117)
    else s2

/-- The class T memories of a domain become unwritten (R43). -/
def State.memLost (s : State) (d : Nat) : State :=
  if d = 11 ∨ d = 12 then (s.calLost (96 + 2 * (d - 11))).calLost (97 + 2 * (d - 11))
  else if 77 ≤ d ∧ d < 101 then s.forEach (List.range 4) fun s i => s.calLost (4 * (d - 77) + i)
  else if 101 ≤ d ∧ d < 117 then s.coefLost (d - 101)
  else if 117 ≤ d then s.coreMemLost (d - 117)
  else s

/-- A domain comes on: its class T memory is filled with poison (R427), so that what was written to it while it was off is gone. -/
def State.domainOn (s : State) (d : Nat) : State :=
  if s.domOn d then s
  else
    let s1 := (s.setDom d true).scrubSwitched d
    let s2 := s1.memLost d
    if holdsTables d then { s2 with mem := { s2.mem with filling := s2.mem.filling ++ [d] } } else s2

/-- The quadrants that serve lane groups. DESIGN CHOICE: log entry 16. -/
def quadrantOf (g : Nat) : Nat := g / 6

/-- What depends on fabric quadrant q is on: a lane group's PCS, a packet engine of its groups, or another domain routed to it.
DESIGN CHOICE: log entry 16. -/
def State.quadrantUsed (s : State) (q : Nat) : Bool :=
  ((List.range 6).any fun i => s.domOn (77 + 6 * q + i))
  || ((List.range 6).any fun e => s.domOn (47 + e) && (quadrantOf (4 * e) == q || quadrantOf (4 * e + 3) == q))
  || (([7, 8, 11, 12] ++ (List.range 16).map (101 + ·)).any fun d => s.domOn d && Config.routed d q)

/-- A fabric quadrant goes off once nothing that depends on it is on. DEDUCED: log entry 118. -/
def State.quadrantIdle (s : State) (q : Nat) : State := if s.quadrantUsed q then s else s.domainOff (13 + q)

/-- Group g wants its packet engine: it is enabled in Ethernet or auto mode. -/
def State.wantsEngine (s : State) (g : Nat) : Bool := s.fbit (GrpCfg.en g) && s.fget (GrpCfg.mode g) != 0

/-- Packet engine e comes on after the quadrants that serve its groups. -/
def State.engineOn (s : State) (e : Nat) : State :=
  ((s.domainOn (13 + quadrantOf (4 * e))).domainOn (13 + quadrantOf (4 * e + 3))).domainOn (47 + e)

/-- Some admitted tributary is received or sent on an Ethernet port of packet engine e. -/
def State.engineTraffic (s : State) (e : Nat) : Bool :=
  s.tribs.any fun x =>
    (x.2.adms.any fun a => a.dests.any fun d => match d.dest with
      | .eth n => n / 16 == e
      | _ => false)
    || (!x.2.adms.isEmpty && s.fget (TribCfg.src x.1) == 1 && s.fget (TribEthCfg.port x.1) / 16 == e)

/-- Packet engine e goes off when no group of its four wants it and it holds no admitted traffic (R42, R492). DEDUCED: log entry 119. -/
def State.engineIdle (s : State) (e : Nat) : State :=
  if ((List.range 4).any fun i => s.wantsEngine (4 * e + i)) || s.engineTraffic e then s
  else ((s.domainOff (47 + e)).quadrantIdle (quadrantOf (4 * e))).quadrantIdle (quadrantOf (4 * e + 3))

/-- Some admitted tributary passes the host DMA engine: a capture destination, or a playback source. -/
def State.hostTraffic (s : State) : Bool :=
  s.tribs.any fun e =>
    (e.2.adms.any fun a => a.dests.any fun x => match x.dest with
      | .capture _ => true
      | _ => false)
    || (!e.2.adms.isEmpty && s.fget (TribCfg.src e.1) == 2)

/-- Domain 8 goes off while every function is in D3hot and no admitted tributary passes the host DMA engine (R42, R493). -/
def State.hostIdle (s : State) : State :=
  if ((List.range 16).all fun q => (s.part q).d3hot) && !s.hostTraffic then s.domainOff 8 else s

/-- Admitted traffic has ended: the packet engines, fabric quadrants and domain 8 that only it kept on go off (R42, R492). -/
def State.idleDomains (s : State) : State :=
  ((s.forEach (List.range 6) fun s e => s.onlyIf (s.domOn (47 + e)) fun s => s.engineIdle e).forEach (List.range 4) fun s q =>
    s.quadrantIdle q).hostIdle

end Sys2Proof.Machine
end

