-- ==== Sys2Proof/Machine/Trib.lean ====
section
/-! DEFINITION. TRIB_ENABLE and TRIB_DISABLE (R126, R127, R163, R165, R191). -/

namespace Sys2Proof.Machine

/-- The members of a bundle in t's partition that are enabled, t aside. -/
def State.otherMembers (s : State) (t : Nat) : List Nat := (s.bundleMembers t).filter (· != t)

/-- cfg_err of tributary t's configuration, the lowest that applies (R127): template, bundle, match clash, period. DEDUCED: log entry 185. -/
def State.tribCfgErr (s : State) (t : Nat) (tmpl : Option (List Byte)) : Nat :=
  let useTmpl := s.fget (TribCfg.src t) == 1 || s.fget (TribEthCfg.hdrLen t) != 0
  let tmplOk := match tmpl with | some bs => (parseTemplate bs).isSome | none => false
  let same (u : Nat) : Bool := s.tfmt u == s.tfmt t && s.period u == s.period t && s.fget (TribCfg.src u) == s.fget (TribCfg.src t)
  let others := s.otherMembers t
  let key (u : Nat) : Option (Nat × Nat × Nat) := s.tmplMatch u
  let clash := s.fget (TribCfg.src t) == 1 && (List.range 4096).any fun u =>
    u != t && s.fbit (TribCfg.en u) && s.fget (TribCfg.src u) == 1 && (key u).isSome && key u == key t
  if useTmpl && !tmplOk then 1
  else if s.fbit (TribCfg.inBundle t) && (decide (16 ≤ others.length) || !others.all same) then 2
  else if clash then 3
  else if s.period t = 0 then 4
  else 0

/-- TRIB_ENABLE (R127, R163): the template is read and parsed, of a tributary that no Ethernet port feeds where hdr_len gives it one; an
inconsistent configuration sets cfg_err and leaves en at 0. DESIGN CHOICE: log entry 213. -/
def doTribEnable (t : Nat) (s : State) : State :=
  if s.fbit (TribCfg.en t) then s
  else
    let useTmpl := s.fget (TribCfg.src t) == 1 || s.fget (TribEthCfg.hdrLen t) != 0
    let n := s.fget (TribEthCfg.hdrLen t)
    let (v, s1) := if useTmpl then s.treadN (s.tribOwner t) (tmplBase t) n (s.tribLocal t) 7 else (none, s)
    let err := s1.tribCfgErr t (v.map (leBytes n))
    let s2 := s1.fset (TribStat.cfgErr t) err
    if err = 0 then
      let r := s2.trib t
      (s2.fsetB (TribCfg.en t) true).setTrib t { r with lag := none, lastUnitAt := none, packetNo := 0, rxPacket := none, ovr := [] }
    else s2

def execTribEnable (t : TribN) (s : State) : Out := .next (doTribEnable t s)

/-- TRIB_DISABLE (R191): the admission ends at once, every unreleased unit and the reception state are discarded, and tags in
flight end (R513). The ring that feeds a playback tributary stays its ring (R366). -/
def doTribDisable (t : Nat) (s : State) : State :=
  if !s.fbit (TribCfg.en t) then s
  else
    let s1 := ((s.fsetB (TribCfg.en t) false).endAdmission t).idleDomains
    let r := s1.trib t
    let s2 := (s1.setTrib t { defWin := r.defWin, playRing := r.playRing, playEnd := r.playEnd, stray := r.stray }).syncAnchor t
    (s2.fset (TribDef.defs t) 0).vtAbort (s2.tribOwner t) false (s2.tribLocal t)

def execTribDisable (t : TribN) (s : State) : Out := .next (doTribDisable t s)

end Sys2Proof.Machine
end

