-- ==== Sys2Proof/Machine/Admission.lean ====
section
/-! DEFINITION. Admission and withdrawal (R188 to R191, R355, R357), zeroing (R437, R438). -/

namespace Sys2Proof.Machine

/-! ## The request -/

/-- Destination j of an ADMIT descriptor (R355): absent, malformed (none inside), or a destination. -/
def destField (d : List Byte) (j : Nat) : Option (Option Dest) :=
  let v := leAt d 20 12 / 2 ^ (12 * j) % 4096
  let kind := v / 512
  let n := v % 128
  if v / 128 % 4 ≠ 0 then some none
  else
    match kind with
    | 0 => if n = 0 then none else some none
    | 1 => some (if n < 96 then some (.klf n) else none)
    | 2 => some (if n < 96 then some (.eth n) else none)
    | 3 => some (if n < 64 then some (.capture n) else none)
    | 4 => some (if n < 4 then some (.cascade n) else none)
    | _ => some none

/-- The destinations of a descriptor with their places. -/
def destList (d : List Byte) : List (Nat × Dest) :=
  (List.range 8).filterMap fun j => match destField d j with | some (some x) => some (j, x) | _ => none

/-- The target of ADMIT or WITHDRAW: device tributaries, none where it lies outside the partition. -/
def State.admTarget (s : State) (p : Nat) (d : List Byte) : Option (List Nat) :=
  let v := leAt d 4 2
  if v.testBit 15 then
    some ((List.range 4096).filter fun t => s.fbit (TribCfg.en t) && s.fbit (TribCfg.inBundle t)
      && s.fget (TribCfg.bundle t) == v % 256 && s.tribOwner? t == some p)
  else (s.tribDevice p (v % 4096)).map fun t => [t]

/-- The target field sets reserved bits. -/
def badTarget (d : List Byte) : Bool := leAt d 4 2 / 4096 % 8 != 0 || (leAt d 4 2 ≥ 32768 && leAt d 4 2 % 4096 ≥ 256)

/-- The zeroing jobs of a partition, in order, whose sizes reach a need. DEDUCED: log entry 188. -/
def waitsFor (size : ZeroJob → Nat) : List ZeroJob → Nat → List ZeroJob
  | _, 0 => []
  | [], _ => []
  | j :: js, n + 1 => if size j = 0 then waitsFor size js (n + 1) else j :: waitsFor size js (n + 1 - size j)

/-- A tributary that passed terms 1 to 7 is decided: its admission to come, with the zeroing it waits for, and when that ends.
DESIGN CHOICE: log entry 32. DESIGN CHOICE: log entry 35. -/
def State.decideOne (s : State) (p t : Nat) (ds : List Dest) (v : Verdict) : Nat × State :=
  let r := s.trib t
  let held := match v.stack with | some st => r.granulesHeld st | none => 0
  let need := v.pages - r.pagesHeld - s.freePages p
  let needG := v.granules - held - (match v.stack with | some st => s.freeGranules p st | none => 0)
  let js := s.mem.zero.filter fun j => j.part == p
  let takenG := match v.stack with | some st => s.takenGranules p st | none => 0
  let w1 := if need = 0 then [] else waitsFor ZeroJob.pages js (need + s.takenPages p)
  let w2 := if needG = 0 then [] else waitsFor (fun j => if some j.stack = v.stack then j.granules else 0) js (needG + takenG)
  let done := ((w1 ++ w2).map ZeroJob.endAt).foldl max s.now
  let (page, s1) := s.free 14
  let (cw, s2) := s1.free 26
  let deep := v.stack.isSome
  let (dsts, s3) := ds.foldl (fun (a : List DestSt × State) d =>
      let (q, s') := match d with | .eth _ => a.2.free 40 | _ => (0, a.2)
      let e := s.egressTerms t d
      (a.1 ++ [{ dest := d, eAdv := e.1, eLag := e.2, q := q }], s')) ([], s2)
  let adm : Adm :=
    { part := p, l := s.reqL t, dMin := s.reqDMin t, dMax := s.reqDMax t, deep := v.stack, pages := v.pages, granules := v.granules
      tMin := tenths ((ds.map fun d => s.transit t deep d).foldl max 0), rate := s.grainRate t
      writes := if s.merged t && !deep then 2 else 1, planes := if s.merged t then 2 else 1, actTime := done
      waits := (w1 ++ w2).map ZeroJob.seq, fromZero := need, fromZeroG := needG, dests := dsts
      bundleBlank := s.fbit (TribLatHi.bundleBlank t), basePage := page % 12288, baseCw := cw }
  (done, s3.setTrib t { s3.trib t with pend := some adm })

/-- The activation time of the admissions decided for a request: act_time, or for 0 the earliest at which all of them can be zeroed, one
time for a bundle (R187, R188). -/
def State.setActTime (s : State) (ts : List Nat) (act done : Nat) : State :=
  s.forEach ts fun s t =>
    let r := s.trib t
    s.setTrib t { r with pend := r.pend.map fun a => { a with actTime := if act = 0 then done else act, asap := act == 0 } }

/-- The members of a bundle agree as R187 requires. -/
def State.membersAgree (s : State) : List Nat → Bool
  | [] => true
  | t :: us => us.all fun u => s.reqL u == s.reqL t && s.reqDMin u == s.reqDMin t && s.reqDMax u == s.reqDMax t
      && s.fbit (TribLatHi.bundleBlank u) == s.fbit (TribLatHi.bundleBlank t)

/-- The evaluation of a request for one tributary, or for a bundle's members in turn: result, failing destination, smallest L
and the state with every admission decided; a failure changes nothing (R188, R190). The members' terms 1 to 7 and their agreement (term 8)
come before the zeroing time (term 9). In NIGHT the result is 1 (R494). DESIGN CHOICE: log entry 35. -/
def State.evalRequest (s : State) (p act : Nat) (bundle : Bool) (ds : List Dest) (ts : List Nat) : Nat × Nat × Nat × State :=
  if ts.isEmpty || s.fget GlbPhase.phase == 3 then (1, 0, 0, s)
  else if ts.any fun t => (s.trib t).pend.isSome || (s.trib t).withdrawAt.isSome then (10, 0, 0, s)
  else
    let (res, fd, small, done, s1) := ts.foldl (fun (a : Nat × Nat × Nat × Nat × State) t =>
        if a.1 ≠ 0 then a
        else
          let (v, s1) := a.2.2.2.2.evalTrib p t ds
          let small := max a.2.2.1 v.smallest
          if v.result ≠ 0 then (if bundle then 8 else v.result, v.failDest, small, 0, s)
          else
            let (done, s2) := s1.decideOne p t ds v
            (0, 0, small, max a.2.2.2.1 done, s2)) (0, 0, 0, s.now, s)
    if res ≠ 0 then (res, fd, small, s)
    else if bundle && !s.membersAgree ts then (8, 0, small, s)
    else if act ≠ 0 ∧ act < done then (9, 0, small, s)
    else (0, 0, small, s1.setActTime ts act done)

/-- A time in ns, rounded up and saturating, in 3 bytes. -/
def nsField (t : Nat) : List Byte := leBytes 3 (min 16777215 ((t + 65535) / 65536))

/-- The three entries of recorded terms of an ADMIT completion (R357). DESIGN CHOICE: log entry 34. -/
def State.termEntries (s : State) (js : List (Nat × Dest)) (ts : List Nat) (ok : Bool) : List (List Byte) :=
  let rec' (d : Dest) : List DestSt := ts.filterMap fun t => ((s.trib t).pend.bind fun a => a.dests.find? fun e => e.dest = d)
  let field (j : Nat) : List Byte :=
    match js.find? fun e => e.1 == j with
    | some (_, d) =>
      if ok then
        let es := rec' d
        nsField ((es.map DestSt.eAdv).foldl max 0) ++ nsField ((es.map DestSt.eLag).foldl max 0) ++ nsField ((es.map DestSt.q).foldl max 0)
      else List.replicate 9 0
    | none => List.replicate 9 0
  (List.range 3).map fun k =>
    padEntry ([0x81, 0, BitVec.ofNat 8 (k + 1), 0] ++ ((List.range 3).map fun i => if 3 * k + i < 8 then field (3 * k + i) else []).flatten)

/-- An ADMIT descriptor is malformed: reserved bits, a reserved target, a time or a destination that is none (R188, R354). -/
def badAdmit (d : List Byte) : Bool :=
  badFlags d || badTarget d || leAt d 6 2 != 0 || malformed (leAt d 8 12) || (List.range 8).any fun j => destField d j == some none

/-- ADMIT (R188): the command at the head of a ring is evaluated and completed with four entries. DESIGN CHOICE: log entry 32. -/
def doAdmit (p r : Nat) (s : State) : State :=
  match s.headCmd p r (· == 1) with
  | none => s
  | some d =>
    let blank := (List.range 3).map fun k => padEntry [0x81, 0, BitVec.ofNat 8 (k + 1), 0]
    if badAdmit d then s.complete p r 1 0 [] blank
    else
      match s.admTarget p d with
      | none => s.complete p r 2 0 [] blank
      | some ts =>
        let act := timeOf (leAt d 8 12)
        let js := destList d
        let (res, fd, small, s1) := s.evalRequest p act ((leAt d 4 2).testBit 15) (js.map Prod.snd) ts
        let at' := if res = 0 then ((ts.filterMap fun t => (s1.trib t).pend).map Adm.actTime).foldl max 0 else 0
        let idx := if res = 0 then 0 else ((js[fd]?).map Prod.fst).getD 0
        let data := [BitVec.ofNat 8 idx] ++ leBytes 6 (min (2 ^ 48 - 1) small) ++ [0] ++ leBytes 12 (timeWord at')
        (s1.syncLoads p).complete p r 0 res data (s1.termEntries js ts (res = 0))

def execAdmit (p : Part) (r : RingN) (s : State) : Out := .next (doAdmit p r s)

/-! ## Taking effect -/

/-- The destinations of a new admission: one that was served goes on where it was; a new one starts at the activation. -/
def mergeDests (old new : List DestSt) (tau : Nat) : List DestSt :=
  new.map fun e => match old.find? fun o => o.dest = e.dest with
    | some o =>
      { e with start := o.start, nextFrom := o.nextFrom, nextGrain := o.nextGrain, causes := o.causes, cut := o.cut, built := o.built }
    | none => { e with start := tau, nextFrom := tau }

/-- A grain held over a change of admission at tau waits for the destinations that are kept, and from the activation on for new ones; an
instant with s + L0 >= tau takes L1 (R191). -/
def regradeGrain (old new : List DestSt) (l0 l1 tau : Nat) (g : BufGrain) : BufGrain :=
  let moves := tau ≤ g.instant + l0
  let rel := if moves then g.instant + l1 else g.rel
  let kept := g.left.filter fun d => new.any fun e => e.dest = d
  let added := if tau ≤ rel then (new.map DestSt.dest).filter fun d => !(old.any fun e => e.dest = d) else []
  { g with rel := rel, left := kept ++ added, old := true }

/-- The grains held at a change of budget from L0 to L1 at tau: those whose instants a decrease leaves out are gone, the others take their
place under the new admission. -/
def regrade (old new : List DestSt) (l0 l1 tau : Nat) (held : List BufGrain) : List BufGrain :=
  ((held.filter fun g => !decide (tau ≤ g.instant + l0 ∧ g.instant + l1 < tau)).map (regradeGrain old new l0 l1 tau)).filter fun g =>
    !g.left.isEmpty

/-- ADMISSION_TAKES_EFFECT (R191): at its activation, and not before what it takes has been zeroed, the decided admission
replaces the one in force. The egress grid is fixed anew by the first unit released under it (R183), and what the grains held are
released at follows the change of budget. DEDUCED: log entry 212. -/
def doAdmissionTakesEffect (t : Nat) (s : State) : State :=
  let r := s.trib t
  match r.pend with
  | none => s
  | some a =>
    if s.now < a.actTime || a.waits.any (fun q => s.mem.zero.any fun j => j.seq == q) then s
    else
      let tau := max a.actTime (if a.voidRow = 2 then s.now else a.actTime)
      let oldDests := match r.adm with | some o => o.dests | none => []
      let ds := mergeDests oldDests a.dests tau
      let new : Adm := { a with dests := ds, waits := [], fromZero := 0, fromZeroG := 0 }
      let l0 := match r.adm with | some o => o.l | none => a.l
      let out := ((r.held.filter fun g => decide (tau ≤ g.instant + l0 ∧ g.instant + a.l < tau)).map BufGrain.instant).eraseDups
      let (oldL, oldPages, oldG, oldSt) := match r.adm with
        | none => (none, 0, 0, none)
        | some o =>
          (some (o.l, tau), o.pages + r.oldPages - a.pages,
            if o.deep = a.deep then o.granules + r.oldGranules - a.granules else o.granules, o.deep)
      let was := r.voidRow
      let s1 := s.setTrib t { r with adm := some new, pend := none, oldL := oldL, oldPages := oldPages, oldGranules := oldG
                                     oldStack := oldSt, voidRow := 0, grid := none, rebase := none, never := []
                                     held := regrade oldDests a.dests l0 a.l tau r.held }
      let p := s1.tribOwner t
      let s2 := (((s1.forEach out fun s i => s.countNever t i).syncAdmitted t).fsetB (TribLatHi.void t) false).onlyIf (was ≠ 0 && a.voidRow = 0) fun s =>
        s.raise p 3 (s.tribLocal t) was 0
      let s3 := if a.voidRow = 0 then s2 else s2.voidTrib t a.voidRow
      (s3.releaseOld t).syncLoads p

def execAdmissionTakesEffect (t : TribN) (s : State) : Out := .next (doAdmissionTakesEffect t s)

/-- WITHDRAW (R191): the withdrawal of each target is scheduled at act_time. -/
def doWithdraw (p r : Nat) (s : State) : State :=
  match s.headCmd p r (· == 2) with
  | none => s
  | some d =>
    if badFlags d || badTarget d || leAt d 6 2 != 0 || malformed (leAt d 8 12) || usedFrom d 20 then s.complete p r 1 0 [] []
    else
      match s.admTarget p d with
      | none => s.complete p r 2 0 [] []
      | some ts =>
        let at' := timeOf (leAt d 8 12)
        (s.forEach ts fun s t =>
          let r := s.trib t
          if r.adm.isSome || r.pend.isSome then s.setTrib t { r with withdrawAt := some at' } else s).complete p r 0 0 [] []

def execWithdraw (p : Part) (r : RingN) (s : State) : Out := .next (doWithdraw p r s)

/-- WITHDRAW_TAKES_EFFECT (R191): at act_time the admission ends; the transmit slots carry fill (R157) and the allocation goes to
zeroing. -/
def doWithdrawTakesEffect (t : Nat) (s : State) : State :=
  match (s.trib t).withdrawAt with
  | none => s
  | some at' => if s.now < at' then s else (s.endAdmission t).idleDomains

def execWithdrawTakesEffect (t : TribN) (s : State) : Out := .next (doWithdrawTakesEffect t s)

/-! ## Zeroing -/

/-- What a finished region gives is no longer awaited by the admissions to come that wait for it. DEDUCED: log entry 111. -/
def State.zeroed (s : State) (j : ZeroJob) : State :=
  s.forEach (s.tribs.map Prod.fst) fun s t =>
    let r := s.trib t
    match r.pend with
    | some a =>
      if a.waits.contains j.seq then
        s.setTrib t { r with pend := some { a with fromZero := a.fromZero - j.pages
                                                   fromZeroG := if a.deep = some j.stack then a.fromZeroG - j.granules else a.fromZeroG } }
      else s
    | none => s

/-- ZEROING_DONE (R437): a region's zeroing ends, and its pages or granules enter the free pool. The end of a reset partition's
zeroing clears HOST_STAT.zeroing and is reported to partition 0 (R376). -/
def doZeroingDone (seq : Nat) (s : State) : State :=
  match s.mem.zero.find? fun j => j.seq == seq with
  | none => s
  | some j =>
    if s.now < j.endAt then s
    else
      let js := s.mem.zero.filter fun j => j.seq != seq
      let s0 := ({ s with mem := { s.mem with zero := js } }).bump .mem 0 10 j.pages
      let s1 := ((s0.bump .mem 0 11 ((j.granules + 3) / 4)).zeroed j).syncZero.syncLoads j.part
      if (s1.part j.part).resetZero && !js.any (fun x => x.part == j.part) then
        let q := s1.part j.part
        ((s1.setPart j.part { q with resetZero := false }).fsetB (HostStat.zeroing j.part) false).raise 0 0x0F j.part 2 0
      else s1

def execZeroingDone (seq : Nat) (s : State) : Out := .next (doZeroingDone seq s)

end Sys2Proof.Machine
end

