-- ==== Sys2Proof/Machine/WinOps.lean ====
section
/-! DEFINITION. Windows and scheduled actions (R176 to R182), and the steps and sets of device time (R171, R172). -/

namespace Sys2Proof.Machine

/-! ## Occurrences -/

/-- Occurrences of a window: none where unlimited. DEDUCED: log entry 33. -/
def State.winTotal (s : State) (w : Nat) : Option Nat :=
  if s.winPeriod w = 0 then some 1 else if s.fget (WinCount.count w) = 0 then none else some (s.fget (WinCount.count w))

/-- Occurrences whose end has passed. -/
def State.winPassed (s : State) (w : Nat) : Nat :=
  let e := s.winEnd w
  if s.now < e then 0
  else
    let n := if s.winPeriod w = 0 then 1 else (s.now - e) / s.winPeriod w + 1
    match s.winTotal w with | some t => min t n | none => n

/-- The start of occurrence k. -/
def State.occStart (s : State) (w k : Nat) : Nat := s.winStart w + k * s.winPeriod w

/-- WIN_CFG.state and WIN_COUNT.left of a window, with n occurrences gone. DEDUCED: log entry 33. -/
def State.syncWin (s : State) (w n : Nat) : State :=
  let left := match s.winTotal w with | some t => t - n | none => 0xFFFF
  let st := if !s.fbit (WinCfg.en w) then 0
    else if left = 0 then 3
    else if s.fget (WinCfg.kind w) != 2 && s.winContains w s.now then 2 else 1
  (s.fset (WinCfg.state w) st).fset (WinCount.left w) left

/-- The start, end and period of a window do not allow it to be enabled (R178). -/
def State.winBad (s : State) (w : Nat) : Bool :=
  malformed (s.winTime (WinStart.start w)) || malformed (s.winTime (WinEnd.endT w)) || decide (s.winEnd w ≤ s.winStart w)
    || (s.winPeriod w != 0 && decide (s.winPeriod w < s.winEnd w - s.winStart w))

/-- WINDOW_ENABLE (R178): a malformed time, an empty window or a period shorter than the window is refused and logged as a
reserved encoding; occurrences already ended are skipped. -/
def doWindowEnable (m w : Nat) (s : State) : State :=
  s.access m (WinCfg.reg w) true fun s =>
    if s.fbit (WinCfg.en w) then s
    else if s.winBad w then s.busErr m 3 true 0 (s.viewOff m (WinCfg.reg w))
    else
      let n := s.winPassed w
      ((s.fsetB (WinCfg.en w) true).setWin w { nextOcc := n, placed := n }).syncWin w n

def execWindowEnable (m : Master) (w : WinN) (s : State) : Out := .next (doWindowEnable m w s)

/-- WINDOW_OCCURRENCE_EDGE (R178): the state and the occurrences left of a blank or capture-gate window follow device time. -/
def doWindowOccurrenceEdge (w : Nat) (s : State) : State :=
  if !s.fbit (WinCfg.en w) || s.fget (WinCfg.kind w) == 2 then s else s.syncWin w (s.winPassed w)

def execWindowOccurrenceEdge (w : WinN) (s : State) : Out := .next (doWindowOccurrenceEdge w s)

/-! ## Scheduled actions (R180 to R182) -/

/-- The occurrence of action `code` in window w that is due: the next not yet fired, its start reached. -/
def State.actionDue (s : State) (w code : Nat) : Option Nat :=
  let k := (s.winSt w).nextOcc
  let more := match s.winTotal w with | some t => decide (k < t) | none => true
  if s.fbit (WinCfg.en w) && s.fget (WinCfg.kind w) == 2 && s.fget (WinCfg.action w) == code && more
      && decide (s.occStart w k ≤ s.now) then some k
  else none

/-- Occurrence k is behind. -/
def State.passOcc (s : State) (w k : Nat) : State :=
  let x := s.winSt w
  (s.setWin w { x with nextOcc := k + 1, placed := max x.placed (k + 1) }).syncWin w (k + 1)

/-- An action is reported as missed, with its intended start, and counted in TIME_ACT_MISS. -/
def State.actionMissed (s : State) (w k : Nat) : State :=
  let p := s.winOwner w
  (s.fset (TimeActMiss.count p) (s.fget (TimeActMiss.count p) + 1)).raiseAt p 5 (s.winLocal w) (s.fget (WinCfg.action w) + 2 ^ 8) 0
    (s.occStart w k)

/-- The firing of an action is reported; one whose start a forward time change skipped is marked late. -/
def State.actionFired (s : State) (w k : Nat) : State :=
  let late := decide (s.sys.lateFrom < s.occStart w k ∧ s.occStart w k < s.sys.lateTo)
  s.raiseAt (s.winOwner w) 5 (s.winLocal w) (s.fget (WinCfg.action w) + (if late then 2 ^ 9 else 0)) 0 s.now

/-- An action whose occurrence is due: missed while domain 3 is off or where `able` fails, else done and reported. -/
def State.fireAction (s : State) (w code : Nat) (able : State → Bool) (act : State → Nat → State) : State :=
  match s.actionDue w code with
  | none => s
  | some k => ((if s.domOn 3 && able s then (act s k).actionFired w k else s.actionMissed w k)).passOcc w k

/-- EVENT (R181): the event carries the window's target in data1. -/
def doEvent (w : Nat) (s : State) : State :=
  match s.actionDue w 6 with
  | none => s
  | some k =>
    let late := decide (s.sys.lateFrom < s.occStart w k ∧ s.occStart w k < s.sys.lateTo)
    (if s.domOn 3 then s.raiseAt (s.winOwner w) 5 (s.winLocal w) (6 + (if late then 2 ^ 9 else 0)) (s.fget (WinCfg.target w)) s.now
      else s.actionMissed w k).passOcc w k

/-- The grid index of the first multiframe of lane n with MF_TIME at or after a time. -/
def State.firstMfAt (s : State) (n time : Nat) : Nat :=
  let f := mfFifths (s.fget (LaneKlfCfg.txRate n))
  let k := (5 * time + f - 1) / f
  if time ≤ gridTime (s.fget (LaneKlfCfg.txRate n)) (k - 1) then k - 1 else k

/-- The lane of a CAL_SWAP action, if the window's owner has it. -/
def State.swapLane (s : State) (w : Nat) : Option Nat :=
  let n := s.fget (WinCfg.target w)
  if n < 96 ∧ s.laneOwner n = s.winOwner w then some n else none

/-- CAL_SWAP_PLACE (R181, R182): 16 multiframes before the first one at or after the start, the swap request is written into the
transmit page; with fewer than 9 multiframes left the action is missed. -/
def doCalSwapPlace (w : Nat) (s : State) : State :=
  let x := s.winSt w
  let k := x.placed
  let more := match s.winTotal w with | some t => decide (k < t) | none => true
  if !s.fbit (WinCfg.en w) || s.fget (WinCfg.kind w) != 2 || s.fget (WinCfg.action w) != 1 || !more then s
  else
    match s.swapLane w with
    | none => s
    | some n =>
      let start := s.occStart w k
      let f := s.firstMfAt n start
      if s.now < gridTime (s.fget (LaneKlfCfg.txRate n)) (f - 16) then s
      else
        let l := s.lane n
        let s1 := s.setWin w { x with placed := k + 1 }
        if !l.tx.running || decide (f + 1 < l.tx.grid + 9) || !s.domOn 3 then
          (s1.setWin w { x with placed := k + 1, missedOcc := some k }).actionMissed w k
        else
          let mf := (l.tx.seq + (f - l.tx.grid)) % 2 ^ 32
          let s2 := (s1.setLane n { l with tx := { l.tx with placedBy := some w } }).fsetB ⟨LaneKlfTxoh.reg n 5, 17, 17⟩ true
          s2.forEach (List.range 4) fun s i =>
            let b := 23 + i
            s.fset ⟨LaneKlfTxoh.reg n (b / 4), 8 * (b % 4) + 7, 8 * (b % 4)⟩ (mf / 2 ^ (8 * (3 - i)))

def execCalSwapPlace (w : WinN) (s : State) : Out := .next (doCalSwapPlace w s)

/-- CAL_SWAP (R181): at its start the action is reported as fired, unless its request was missed or refused. DESIGN CHOICE: log entry 4. -/
def doCalSwap (w : Nat) (s : State) : State :=
  match s.actionDue w 1 with
  | none => s
  | some k =>
    let x := s.winSt w
    (if x.missedOcc = some k then s
      else if x.placed ≤ k || !s.domOn 3 || (s.swapLane w).isNone then s.actionMissed w k
      else s.actionFired w k).passOcc w k

/-! ## Steps and sets of device time (R171, R172) -/

/-- Any tributary of any partition is admitted, from the decision of its ADMIT on. -/
def State.anyAdmitted (s : State) : Bool := s.tribs.any fun e => e.2.adm.isSome || e.2.pend.isSome

/-- The operand of TIME_WR: 96 bits. -/
def State.timeOperand (s : State) : Nat :=
  s.fget (TimeWr.value 0) + s.fget (TimeWr.value 1) * 2 ^ 32 + s.fget (TimeWr.value 2) * 2 ^ 64

/-- A step or set is refused, or held pending with its operand until its instant of effect. -/
def State.timeOp (s : State) (op : Nat) (force bad : Bool) (at' : Nat) : State :=
  let s1 := (s.fset TimeWrCtl.op op).fsetB TimeWrCtl.force force
  if s1.fbit TimeWrStat.busy then s1.fset TimeWrStat.result 3
  else if bad then s1.fset TimeWrStat.result 2
  else if !force && s1.anyAdmitted then s1.fset TimeWrStat.result 1
  else
    let x := { s1.sys with timeOpAt := at', timeForce := force, timeOpSet := op == 2, timeOpVal := s.timeOperand }
    ({ s1 with sys := x }).fsetB TimeWrStat.busy true

/-- TIME_STEP (R171): bits [63:0] are a signed count below 2^47 in magnitude; the step takes effect at the next tick. -/
def doTimeStep (force : Bool) (s : State) : State :=
  let v := toSigned 64 (s.timeOperand % 2 ^ 64)
  s.timeOp 1 force (decide (2 ^ 47 ≤ v.natAbs)) (s.ticks + 1)

def execTimeStep (force : Bool) (s : State) : Out := .next (doTimeStep force s)

/-- TIME_SET (R171): a device time of whole seconds, taken at the instant of the next whole second. -/
def doTimeSet (force : Bool) (s : State) : State :=
  s.timeOp 2 force (s.timeOperand % 2 ^ 48 != 0) ((s.now / tSec + 1) * tSec)

def execTimeSet (force : Bool) (s : State) : Out := .next (doTimeSet force s)

/-- What every step or set does at its instant (R172): each enabled KLF lane and cascade port restarts its framing. -/
def State.restartAll (s : State) : State :=
  s.forEach (List.range 100) fun s n => if s.laneEnabled n && !s.laneEth n then s.restartFraming n else s

/-- The outputs do not move with a change of device time: its amount joins REFSEL_OUT_MIS, in ns, saturating (R295). DEDUCED: log entry 50. -/
def State.misalign (s : State) (delta : Int) : State :=
  s.forEach (List.range 10) fun s o =>
    if s.fbit (RefselOutCfg.en o) then
      let x := s.outp o
      let m := x.mis + delta
      let (ns, s1) := s.round m 65536
      ((s1.setOutp o { x with mis := m, reachAt := x.reachAt.map fun t => ((t : Int) + delta).toNat }).fset (RefselOutMis.mis o) (ofSigned 32 (max (-2147483648) (min 2147483647 ns)))).fsetB
        (RefselOutStat.misaligned o) true
    else s

/-- The windows follow a change of device time: states, and swap requests, which went with the framing, are to be placed again
(R172, R181). -/
def State.windowsFollow (s : State) : State :=
  s.forEach (List.range 256) fun s w =>
    if !s.fbit (WinCfg.en w) then s
    else if s.fget (WinCfg.kind w) != 2 then s.syncWin w (s.winPassed w)
    else
      let x := s.winSt w
      s.setWin w { x with placed := if x.missedOcc = some x.nextOcc then x.nextOcc + 1 else x.nextOcc }

/-- What follows a change of the clock: framing restarts, the outputs are misaligned, the windows follow (R172), and the samples of
R109 go on by the new time. DEDUCED: log entry 50. -/
def State.clockTo (s : State) (clock : Nat) : State :=
  let old := s.now
  let delta : Int := ((clock / 5 : Nat) : Int) - old
  let s1 := { s with clock := clock, sys := { s.sys with lateFrom := old, lateTo := clock / 5 } }
  ((s1.restartAll.misalign delta).windowsFollow).forEach (List.range 26) fun s g =>
    s.setGroup g { s.group g with sampledAt := min (s.group g).sampledAt s.sampleNo }

/-- The set of seconds that a worker makes of itself at its whole second (R323), unless a tributary was admitted meanwhile. -/
def State.autoSetEffect (s : State) : State :=
  match s.cas.autoSet with
  | none => s
  | some (t, sec) =>
    if s.now < t then s
    else
      let s1 := { s with cas := { s.cas with autoSet := none } }
      if s1.anyAdmitted then s1 else s1.clockTo (sec * tSec * 5 + (s1.clock - 5 * t))

/-- The pending step or set takes effect, or is refused where an admission has been decided meanwhile (R172). -/
def State.timeOpEffect (s0 : State) : State :=
  let s := s0.autoSetEffect
  if !s.fbit TimeWrStat.busy then s
  else
    let set' := s.sys.timeOpSet
    if (if set' then s.now else s.ticks) < s.sys.timeOpAt then s
    else
      let s0 := s.fsetB TimeWrStat.busy false
      if !s.sys.timeForce && s.anyAdmitted then s0.fset TimeWrStat.result 1
      else
        let clock := if set' then timeOf s.sys.timeOpVal * 5 + (s.clock - 5 * s.sys.timeOpAt)
          else ((s.clock : Int) + 5 * toSigned 64 (s.sys.timeOpVal % 2 ^ 64)).toNat
        let s1 := (s0.fset TimeWrStat.result 0).clockTo clock
        s1.onlyIf s.sys.timeForce fun s => s.forEach (s.tribs.map Prod.fst) fun s t => (s.voidPending t 1).voidTrib t 1

end Sys2Proof.Machine
end

