-- ==== Sys2Proof/Machine/Timing.lean ====
section
/-! DEFINITION. The commands of the timing block: activity, qualification, selection, lock, history and holdover, the DCO, the
timing outputs and the time-of-day messages (R274 to R298). -/

namespace Sys2Proof.Machine

/-! ## Activity and qualification (R274 to R276) -/

/-- REF_ACTIVITY_FAULT (R274): a REF input had two windows without an edge. DESIGN CHOICE: log entry 192. -/
def doRefActivityFault (n : Nat) (s : State) : State :=
  if n ≤ 3 && s.fbit (RefselInCfg.en n) && !s.fbit (RefselInStat.actFault n) then s.activityFault n else s

def execRefActivityFault (n : InputN) (s : State) : Out := .next (doRefActivityFault n s)

/-- ACTIVITY_FAULT_CLEAR (R274): a REF input's window ends with an edge in it. -/
def doActivityFaultClear (n : Nat) (s : State) : State :=
  if n ≤ 3 && s.fbit (RefselInStat.actFault n) then s.activityOk n else s

def execActivityFaultClear (n : InputN) (s : State) : Out := .next (doActivityFaultClear n s)

/-- A frequency measurement of input n, in 0.001 ppm, corrected by the learned offset, is ready for core 27 (R275, R401). Mode B only reports it. DESIGN CHOICE: log entry 39. -/
def State.measure (s0 : State) (n : Nat) (x : Int) : State :=
  let s := s0.coreEvent 27 4
  let beyond := decide (10 * s.fget (RefselInLim.reject n) < x.natAbs)
  let within := decide (x.natAbs ≤ 10 * s.fget (RefselInLim.accept n))
  let s1 := (s.fset (RefselInOff.offset n) (ofSigned 32 x)).fsetB (RefselInStat.freqFault n) beyond
  let i := s1.inp n
  let again (s : State) : State :=
    if s.fbit (RefselInStat.qualified n) then s.setInp n { s.inp n with beyond := 0 }
    else (s.setInp n { s.inp n with soakFrom := some s.ticks, beyond := 0 }).fsetB (RefselInStat.soaking n) true
  if s1.modeB n || s1.fbit (RefselInStat.actFault n) then s1
  else if beyond then
    if s1.fbit (RefselInStat.qualified n) then
      if s1.fget (RefselInSoak.dqSoak n) ≤ i.beyond + 1 then s1.disqualify n else s1.setInp n { i with beyond := i.beyond + 1 }
    else s1.stopSoak n
  else if within then (s1.setInp n { i with beyond := 0 }).startSoak n
  else again s1

/-- FREQ_MONITOR_MEASURE (R275): the measurement of an enabled REF, line or cascade input. DESIGN CHOICE: log entry 39. -/
def doFreqMonitorMeasure (n : Nat) (x : Int) (s : State) : State :=
  if n = 4 ∨ n = 5 ∨ n = 15 then s else if s.fbit (RefselInCfg.en n) then s.measure n x else s

def execFreqMonitorMeasure (n : InputN) (milliPpm : Int) (s : State) : Out := .next (doFreqMonitorMeasure n milliPpm s)

/-- PPS_EDGE (R274, R275): an edge within 1 us of 1 s after the last accepted edge is good and clears the fault; an edge with no
accepted edge before it is accepted; any other edge is not. Each accepted edge is measured over the last 16. DEDUCED: log entry 40. -/
def doPpsEdge (n : Nat) (x : Int) (s : State) : State :=
  if n ≠ 4 ∧ n ≠ 5 then s
  else
    let i := s.inp n
    let (x', s1) := s.stamp
    let s0 := { s1 with tim := if n = 4 then { s1.tim with ppsIn0 := some x' } else { s1.tim with ppsIn1 := some x' } }
    if !s.fbit (RefselInCfg.en n) then s0
    else match i.lastEdge with
    | none => s0.setInp n { i with lastEdge := some x' }
    | some e =>
      if e + tSec ≤ x' + tUs ∧ x' ≤ e + tSec + tUs then
        let s1 := s0.setInp n { i with lastEdge := some x' }
        (s1.onlyIf (s1.fbit (RefselInStat.actFault n)) (·.activityOk n)).measure n x
      else s0

def execPpsEdge (n : InputN) (milliPpm : Int) (s : State) : Out := .next (doPpsEdge n milliPpm s)

/-- PPS_ACTIVITY_FAULT (R274): no edge came within 1 us of 1 s after the last accepted one. -/
def doPpsActivityFault (n : Nat) (s : State) : State :=
  let late := match (s.inp n).lastEdge with | none => true | some e => decide (e + tSec + tUs < s.now)
  if (n = 4 ∨ n = 5) && s.fbit (RefselInCfg.en n) && !s.fbit (RefselInStat.actFault n) && late then
    (s.setInp n { s.inp n with lastEdge := none }).activityFault n
  else s

def execPpsActivityFault (n : InputN) (s : State) : Out := .next (doPpsActivityFault n s)

/-- HOST_WATCHDOG_EXPIRY (R274, R290): wdog_ms passed without a write of REFSEL_DCO_WR_HI. -/
def doHostWatchdogExpiry (s : State) : State :=
  if s.tim.wdogAt + s.fget RefselHost.wdogMs * 156250 ≤ s.ticks && !s.fbit (RefselInStat.actFault 15) then s.activityFault 15 else s

def execHostWatchdogExpiry (s : State) : Out := .next (doHostWatchdogExpiry s)

/-- QUALIFY_SOAK_END (R275, R276): an input clean for q_soak seconds is qualified; input 14 never but on a worker (R306). -/
def doQualifySoakEnd (n : Nat) (s : State) : State :=
  match (s.inp n).soakFrom with
  | none => s
  | some f =>
    if s.since f < tenthTicks (10 * s.fget (RefselInSoak.qSoak n)) || s.fbit (RefselInStat.actFault n)
        || (s.modeB n && !s.qlOk n)
        || (n == 14 && s.casRole != 2) then s
    else ((s.stopSoak n).fsetB (RefselInStat.qualified n) true).syncCand n

def execQualifySoakEnd (n : InputN) (s : State) : Out := .next (doQualifySoakEnd n s)

/-! ## Selection (R279, R280) -/

/-- Input a ranks above input b. -/
def State.ranksAbove (s : State) (a b : Nat) : Bool :=
  let q (n : Nat) : Nat := if s.fbit RefselCfg.qlSelect then qlRank (s.inQl n) else 0
  let p (n : Nat) : Nat := s.fget (RefselInCfg.prio n)
  decide (q a < q b) || (q a == q b && (decide (p a < p b) || (p a == p b && decide (a < b))))

/-- The best of the candidates that satisfy a condition. -/
def State.best (s : State) (ok : Nat → Bool) : Option Nat :=
  (List.range 16).foldl (fun b n =>
    if s.fbit (RefselInStat.candidate n) && ok n then
      match b with
      | none => some n
      | some m => if s.ranksAbove n m then some n else b
    else b) none

/-- The candidate that ranks above the selected input is noted, with the time since when it does. -/
def State.trackAbove (s : State) : State :=
  let sel := s.fget RefselStat.sel
  let b := if s.fbit RefselStat.selValid then s.best fun n => n != sel && s.ranksAbove n sel else none
  let a := match b, s.tim.above with
    | none, _ => none
    | some n, some (m, t) => some (if n = m then (m, t) else (n, s.ticks))
    | some n, none => some (n, s.ticks)
  { s with tim := { s.tim with above := a } }

/-- The revert of R280, once wait-to-restore has run. DEDUCED: log entry 45. -/
def State.revert (s : State) : State :=
  match s.tim.above with
  | none => s
  | some (n, t) =>
    if s.fbit RefselCfg.revert && !s.fbit RefselCfg.forceEn && !s.fbit RefselCfg.forceFr && s.fbit RefselStat.selValid
        && s.fbit (RefselInStat.candidate n) && s.ranksAbove n (s.fget RefselStat.sel)
        && decide (tenthTicks (10 * s.fget RefselCfg.wtr) ≤ s.since t) then
      let s1 := s.select n
      { s1 with tim := { s1.tim with above := none } }
    else s

/-- force_fr: nothing is selected, the state is FREE_RUN with d := 0, and the history is invalid (R280, R285, R286). -/
def State.forceFr (s : State) : State :=
  let n := s.fget RefselStat.sel
  let s1 := ((s.fsetB (RefselInStat.selected n) false).fsetB RefselStat.selValid false).fsetB RefselStat.slewing false
  let s2 := if s1.fget RefselStat.state = 0 then s1 else (s1.setTiming 0).stageDco 0
  { s2.fsetB RefselStat.histValid false with tim := { s2.tim with hist := [], predict := false, above := none } }

/-- force_en: force_in alone may be selected, while it is qualified (R280). -/
def State.forceIn (s : State) : State :=
  let n := s.fget RefselCfg.forceIn
  let here := s.fbit RefselStat.selValid && s.fget RefselStat.sel == n
  if s.fbit (RefselInStat.qualified n) then (if here then s else s.select n)
  else if s.fbit RefselStat.selValid then s.deselect else s

/-- The selection events of one ranking, in the order of R280, before a revert. -/
def State.applySelection (s : State) : State :=
  if s.fbit RefselCfg.forceFr then s.forceFr
  else if s.fbit RefselCfg.forceEn then s.forceIn
  else
    let s1 := if s.fbit RefselStat.selValid && !s.fbit (RefselInStat.candidate (s.fget RefselStat.sel)) then s.lossOfSelected else s
    if s1.fbit RefselStat.selValid then s1
    else match s1.best fun _ => true with
      | none => s1
      | some n => s1.select n

/-- RANK_CANDIDATES (R279, R280): every 100 ms, while core 27 runs. DEDUCED: log entry 45. -/
def doRankCandidates (s : State) : State :=
  if !s.coreRuns 27 || s.since s.tim.nextAt < tenthTicks 1 then s
  else
    let s1 := (s.forEach (List.range 16) State.syncCand).applySelection
    let s2 := s1.trackAbove.revert
    let sel := s2.fget RefselStat.sel
    let s3 := match s2.best fun n => !(s2.fbit RefselStat.selValid && n == sel) with
      | none => s2.fsetB RefselStat.nextValid false
      | some n => (s2.fset RefselStat.next n).fsetB RefselStat.nextValid true
    { s3 with tim := { s3.tim with nextAt := s3.ticks } }

def execRankCandidates (s : State) : Out := .next (doRankCandidates s)

/-- WAIT_TO_RESTORE_EXPIRY (R280): a candidate that has ranked above the selected input for wtr seconds is selected; while core 27 does
not run the selection stays (R39). -/
def doWaitToRestoreExpiry (s : State) : State := if s.coreRuns 27 then s.revert else s

def execWaitToRestoreExpiry (s : State) : Out := .next (doWaitToRestoreExpiry s)

/-- FORCE_FREE_RUN (R285): a write that sets force_fr. DEDUCED: log entry 44. -/
def doForceFreeRun (m : Nat) (s : State) : State :=
  s.writeThen m RefselCfg.reg ((s.rget RefselCfg.reg).toNat ||| 2 ^ 14) State.forceFr

def execForceFreeRun (m : Master) (s : State) : Out := .next (doForceFreeRun m s)

/-- FORCE_INPUT (R280): a write that sets force_en and force_in; force_fr comes before it. DEDUCED: log entry 44. -/
def doForceInput (m n : Nat) (s : State) : State :=
  let w := RefselCfg.forceIn.put (RefselCfg.forceEn.put (s.rget RefselCfg.reg) 1) n
  s.writeThen m RefselCfg.reg w.toNat State.applySelection

def execForceInput (m : Master) (n : InputN) (s : State) : Out := .next (doForceInput m n s)

/-- BUILD_OUT_REMOVED (R282): the slew of the build-out ends, not before slew_ppb allows it. DESIGN CHOICE: log entry 219. -/
def doBuildOutRemoved (s : State) : State :=
  let left := 5000000000 * s.tim.buildOut.natAbs
  if s.fbit RefselStat.slewing && decide (left ≤ s.since s.tim.slewFrom * 2097152 * s.fget RefselSlew.slewPpb) then
    ({ s with tim := { s.tim with buildOut := 0 } }.fsetB RefselStat.slewing false).syncQl
  else s

def execBuildOutRemoved (s : State) : Out := .next (doBuildOutRemoved s)

/-! ## Lock (R284) -/

/-- DPLL_LOCK (R284): a phase error, in 2^-8 ns, that has stayed within the threshold for lock_s seconds gives LOCKED. -/
def doDpllLock (pherr : Int) (s : State) : State :=
  if s.fget RefselStat.state = 1 ∧ s.fget RefselStat.sel ≠ 15 ∧ pherr.natAbs ≤ 256 * s.fget RefselLock.thrNs
      ∧ tenthTicks (10 * s.fget RefselLock.lockS) ≤ s.since s.tim.since then
    (s.fset RefselPherr.pherr (ofSigned 32 pherr)).setTiming 2
  else s

def execDpllLock (pherr : Int) (s : State) : Out := .next (doDpllLock pherr s)

/-- DPLL_LOCK_LOST (R284): beyond 4 times the threshold the state returns to ACQUIRING, where the phase is measured anew as the
build-out (R281). -/
def doDpllLockLost (pherr : Int) (s : State) : State :=
  let n := s.fget RefselStat.sel
  if s.fget RefselStat.state = 2 ∧ n ≠ 15 ∧ 1024 * s.fget RefselLock.thrNs < pherr.natAbs then
    (s.buildOut n).setTiming 1
  else s

def execDpllLockLost (pherr : Int) (s : State) : Out := .next (doDpllLockLost pherr s)

/-! ## The DCO (R289 to R291) -/

/-- A worker without a selected input is locked in frequency by the lanes of its upstream port (R311). DEDUCED: log entry 220. -/
def State.cascadeDrives (s : State) : Bool :=
  s.casRole == 2 && s.fbit CasStat.upValid && !s.fbit RefselStat.selValid && !s.fbit RefselCfg.forceFr

/-- The DCO word is driven by the loop: an input other than 15 is selected, or the neighbour's rate locks a worker in frequency.
DESIGN CHOICE: log entry 42. DESIGN CHOICE: log entry 72. -/
def State.loopDrives (s : State) : Bool :=
  (s.fget RefselStat.state == 1 || s.fget RefselStat.state == 2) && s.fget RefselStat.sel != 15 || s.cascadeDrives

/-- A write of REFSEL_DCO_WR_HI applies its operation while input 15 is selected, and always restarts the watchdog (R290). -/
def State.dcoWrite (s : State) (m : Nat) (add : Bool) (hi : Nat) : State :=
  s.writeThen m RefselDcoWrHi.reg ((if add then 2 ^ 31 else 0) + hi) fun s =>
    let s1 := { s with tim := { s.tim with wdogAt := s.ticks } }
    let s2 := s1.onlyIf (s1.fbit (RefselInStat.actFault 15)) (·.activityOk 15)
    let v := toSigned 40 (hi * 2 ^ 32 + s2.fget RefselDcoWrLo.wordLo)
    if s2.fbit RefselStat.selValid && s2.fget RefselStat.sel == 15 then
      if !add then s2.stageDco v
      else
        let sum := (match s2.tim.dNext with | some (x, _) => x | none => s2.tim.d) + v
        let sat := max (-2 ^ 39) (min (2 ^ 39 - 1) sum)
        (s2.onlyIf (sat != sum) fun s => s.stick RefselStky.stky 64).stageDco sat
    else s2.stick RefselStky.stky 32

/-- DCO_SET (R290). -/
def doDcoSet (m hi : Nat) (s : State) : State := s.dcoWrite m false hi

def execDcoSet (m : Master) (hi : Byte) (s : State) : Out := .next (doDcoSet m hi.toNat s)

/-- DCO_ADD (R290). DEDUCED: log entry 43. -/
def doDcoAdd (m hi : Nat) (s : State) : State := s.dcoWrite m true hi

def execDcoAdd (m : Master) (hi : Byte) (s : State) : Out := .next (doDcoAdd m hi.toNat s)

/-- A destination on the line: a KLF lane or a cascade lane. -/
def onLine : Dest → Bool
  | .klf _ | .cascade _ => true
  | _ => false

/-- The transmit/system domain is steered beyond 100 ppm: every admission with a KLF or cascade destination is void (R193, R291). -/
def State.judgeSteer (s : State) : State :=
  if s.tim.d.natAbs + s.fget RefselOsc.tolPpm * 1000000000 ≤ 100000000000 then s
  else
    let line (a : Option Adm) : Bool := match a with | some a => a.dests.any fun x => onLine x.dest | none => false
    s.forEach (s.tribs.map Prod.fst) fun s t =>
      let s1 := if line (s.trib t).pend then s.voidPending t 3 else s
      if line (s1.trib t).adm then s1.voidTrib t 3 else s1

/-- DCO word d is in force from time t on; while LOCKED the word before it enters the 1 s average. -/
def State.putDco (s : State) (d : Int) (t : Nat) : State :=
  let x := s.tim
  let acc := if s.fget RefselStat.state = 2 then x.acc + x.d * (s.ticks - x.accAt : Nat) else x.acc
  ({ s with tim := { x with d := d, dAt := t, dNext := none, acc := acc, accAt := s.ticks } }).judgeSteer

/-- DCO_APPLY (R289, R291): the staged word takes effect at its whole microsecond; with none staged the loop, where it drives the
DCO, sets a word of its own within its limit. DESIGN CHOICE: log entry 42. -/
def doDcoApply (s : State) : State :=
  match s.tim.dNext with
  | some (d, t) => if s.now < t then s else s.putDco d t
  | none =>
    if s.loopDrives then
      let (v, s1) := s.free 40
      s1.putDco (toSigned 40 v % (2 * s.dcoLimit + 1) - s.dcoLimit) (s.now / tUs * tUs)
    else s

def execDcoApply (s : State) : Out := .next (doDcoApply s)

/-! ## History and holdover (R286 to R288) -/

/-- A quotient of integers. -/
structure Ratio where
  num : Int
  den : Nat
  deriving DecidableEq, Repr

def Ratio.ofInt (n : Int) : Ratio := ⟨n, 1⟩
def Ratio.add (a b : Ratio) : Ratio := ⟨a.num * b.den + b.num * a.den, a.den * b.den⟩
def Ratio.sub (a b : Ratio) : Ratio := ⟨a.num * b.den - b.num * a.den, a.den * b.den⟩
def Ratio.mul (a b : Ratio) : Ratio := ⟨a.num * b.num, a.den * b.den⟩
def Ratio.le (a b : Ratio) : Bool := decide (a.num * b.den ≤ b.num * a.den)

/-- The mean of a list of integers. -/
def meanOf (l : List Int) : Ratio := ⟨l.sum, max 1 l.length⟩

/-- The last hist_s seconds of the history. -/
def State.histUsed (s : State) : List (Int × Int × Nat) := s.tim.hist.take (s.fget RefselHist.histS)

/-- The temperature of REFSEL_HO_CFG.temp_src in 1/6400 degree C; none without a source. DESIGN CHOICE: log entry 47. -/
def State.oscTemp (s : State) : Option Int :=
  match s.fget RefselHoCfg.tempSrc with
  | 1 => some (toSigned 16 (s.fget PwrTherm.tj) * 64)
  | 2 => some (toSigned 16 (s.fget MgmtSensVal.temp) * 25)
  | _ => none

/-- The largest distance of a 1 s average from d_hist, in REFSEL_HO_SIGMA. DEDUCED: log entry 46. -/
def State.syncSigma (s : State) : State :=
  let ds := s.histUsed.map Prod.fst
  let n := max 1 ds.length
  let m := ds.sum
  let far := (ds.map fun d => (d * n - m).natAbs).foldl max 0
  let (v, s1) := s.round far n
  s1.fset RefselHoSigma.sigma (min v.toNat (2 ^ 32 - 1))

/-- HISTORY_SAMPLE (R286): each second of LOCKED time its average DCO word enters the history. -/
def doHistorySample (s : State) : State :=
  let x := s.tim
  if s.fget RefselStat.state ≠ 2 ∨ s.since x.sampleAt < tenthTicks 10 then s
  else
    let total := x.acc + x.d * (s.ticks - x.accAt : Nat)
    let (avg, s1) := s.round total (max 1 (s.ticks - x.sampleAt))
    let keep := s.fget RefselHist.histS + 60
    let h := ((avg, s.oscTemp.getD 0, s.now / tSec) :: x.hist).take keep
    let s2 := { s1 with tim := { x with hist := h, sampleAt := s.ticks, acc := 0, accAt := s.ticks } }
    (s2.onlyIf (decide (s.fget RefselHist.histS ≤ h.length)) fun s => s.fsetB RefselStat.histValid true).syncSigma

def execHistorySample (s : State) : Out := .next (doHistorySample s)

/-- HISTORY_RESET (R286): a write to REFSEL_HIST makes the history invalid. -/
def doHistoryReset (m : Nat) (value : Word) (s : State) : State :=
  s.writeThen m RefselHist.reg value.toNat fun s =>
    { s.fsetB RefselStat.histValid false with tim := { s.tim with hist := [] } }

def execHistoryReset (m : Master) (value : Word) (s : State) : Out := .next (doHistoryReset m value s)

/-- The used points of the temperature table: temperature in 1/6400 degree C, offset in 10^-15. -/
def State.tempPoints (s : State) : List (Int × Int) :=
  ((List.range 8).filter fun i => s.fget (RefselTemp.temp i) != 0x8000).map fun i =>
    (toSigned 16 (s.fget (RefselTemp.temp i)) * 64, toSigned 16 (s.fget (RefselTemp.off i)) * 100000)

/-- The temperatures of a table rise strictly. -/
def risingTemps : List (Int × Int) → Bool
  | a :: b :: l => decide (a.1 < b.1) && risingTemps (b :: l)
  | _ => true

/-- P at a temperature: linear between the points, held at the ends beyond them. DESIGN CHOICE: log entry 47. -/
def tempOffset (t : Ratio) : List (Int × Int) → Ratio
  | [] => .ofInt 0
  | [a] => .ofInt a.2
  | a :: b :: l =>
    if t.le (.ofInt a.1) then .ofInt a.2
    else if t.le (.ofInt b.1) then
      (Ratio.ofInt a.2).add ⟨(b.2 - a.2) * (t.num - a.1 * t.den), t.den * (b.1 - a.1).natAbs⟩
    else tempOffset t (b :: l)

/-- 2^96 times the natural logarithm of num / den, for num at least den, to within a few units: the exponent of 2, and the series of
the inverse hyperbolic tangent for the rest. DESIGN CHOICE: log entry 48. -/
def lnFix (num den : Nat) : Nat :=
  let atanh2 (y : Nat) : Nat :=
    2 * ((List.range 40).foldl (fun (a : Nat × Nat) j => (a.1 * y / 2 ^ 96 * y / 2 ^ 96, a.2 + a.1 / (2 * j + 1))) (y, 0)).2
  let k := Nat.log2 (num / max 1 den)
  let d := den * 2 ^ k
  k * atanh2 (2 ^ 96 / 3) + atanh2 ((num - d) * 2 ^ 96 / max 1 (num + d))

/-- A at an age in seconds (R287), in 10^-15. Where 1 + c * age is not positive its logarithm has no value: a free one. DESIGN CHOICE: log entry 48. -/
def State.ageing (s : State) (age : Ratio) : Ratio × State :=
  let lin : Ratio := (Ratio.mul ⟨toSigned 32 (s.fget RefselAgeA.a), 100000⟩ age)
  let b := toSigned 32 (s.fget RefselAgeB.b)
  let den : Nat := 2 ^ 32 * age.den
  let num : Int := den + (s.fget RefselAgeC.c : Int) * age.num
  if b = 0 then (lin, s)
  else if num ≤ 0 then let (v, s1) := s.free 64; (lin.add (.ofInt (toSigned 64 v)), s1)
  else if den ≤ num.toNat then (lin.add ⟨b * (lnFix num.toNat den : Nat), 2 ^ 96⟩, s)
  else (lin.add ⟨-(b * (lnFix den num.toNat : Nat)), 2 ^ 96⟩, s)

/-- The holdover prediction of d (R287), limited as R291 says. -/
def State.predictDco (s : State) : State :=
  let h := s.histUsed
  let pts := s.tempPoints
  let good := decide (2 ≤ pts.length) && risingTemps pts
  let (base, s1) : Ratio × State := if h.isEmpty then let (v, s1) := s.free 40; (.ofInt (toSigned 40 v), s1)
    else (meanOf (h.map Prod.fst), s)
  let pOff : Ratio := match s.oscTemp with
    | some t => if good then (tempOffset (.ofInt t) pts).sub (tempOffset (meanOf (h.map (·.2.1))) pts) else .ofInt 0
    | none => .ofInt 0
  let sec : Int := (s.now / tSec : Nat)
  let age : Int := (sec - s.fget RefselAgeEpoch.epoch) % 2 ^ 32
  let mid := (meanOf (h.map fun e => (e.2.2 : Int))).sub ⟨1, 2⟩
  let ageHist := (Ratio.ofInt (age - sec)).add mid
  let (a1, s2) := s1.ageing (.ofInt age)
  let (a0, s3) := s2.ageing ageHist
  let d := (base.sub pOff).sub (a1.sub a0)
  let (v, s4) := s3.round d.num d.den
  (s4.onlyIf (s.oscTemp.isSome && !good) fun s => s.stick RefselStky.stky 16).stageDco (s4.clampDco v)

/-- TE(t) of R288 after n tenths of a second in HOLDOVER, in ns. DEDUCED: log entry 46. -/
def State.timeError (s : State) (n : Nat) : Ratio :=
  ⟨(s.tim.e0 * 20000000000000 + 256 * 2000000 * s.fget RefselHoSigma.sigma * n + 256 * s.fget RefselHoRate.r * n * n : Nat),
    256 * 20000000000000⟩

/-- A candidate waits that the next ranking will select. -/
def State.selectionWaits (s : State) : Bool :=
  s.coreRuns 27 && !s.fbit RefselCfg.forceFr
    && (if s.fbit RefselCfg.forceEn then s.fbit (RefselInStat.qualified (s.fget RefselCfg.forceIn)) else (s.best fun _ => true).isSome)

/-- HOLDOVER_UPDATE (R287, R288, R292): every 100 ms d is predicted anew, and in HOLDOVER the error estimate and the time are judged;
a candidate that qualified meanwhile wins over the entry to LOST (R285). DESIGN CHOICE: log entry 41. -/
def doHoldoverUpdate (s : State) : State :=
  let st := s.fget RefselStat.state
  if !(st == 3 || st == 4) || !s.tim.predict || s.since s.tim.hoLast < tenthTicks 1 then s
  else
    let s1 := ({ s with tim := { s.tim with hoLast := s.tim.hoLast + tenthTicks 1 } }).syncSigma.predictDco
    if st = 4 then s1
    else
      let n := s.since s.tim.hoFrom / tenthTicks 1
      let te := s1.timeError n
      let (ns, s2) := s1.round te.num te.den
      let s3 := ((s2.fset RefselHoTe.te (min ns.toNat (2 ^ 32 - 1))).fset RefselHoTime.tW (n / 10)).syncQl
      let spent := !te.le (.ofInt (s3.fget RefselHoBudget.budget)) || decide (36000 * s3.fget RefselHoCfg.maxH < n)
      if spent && !s3.selectionWaits then s3.setTiming 4 else s3

def execHoldoverUpdate (s : State) : Out := .next (doHoldoverUpdate s)

/-! ## Timing outputs (R294, R295) -/

/-- The frequency of an output in 2^-16 Hz. DESIGN CHOICE: log entry 20. -/
def State.outFreq (s : State) (o : Nat) : Nat := if 8 ≤ o then 65536 else s.fwide (RefselOutFreqLo.freqLo o) (RefselOutFreqHi.freqHi o)

/-- An alignment with instant ta begins: the new grid is reached at its first point, not before k = 0, at least 1.5 periods and 1 us
after `fired`. DEDUCED: log entry 49. -/
def State.align (s : State) (o ta fired : Nat) : State :=
  let x := s.outp o
  let f := max 1 (s.outFreq o)
  let num := 65536 * tSec
  let delay := toSigned 32 (s.fget (RefselOutDelay.delay o))
  let org : Int := ta + delay
  let gap := max ((3 * num + 2 * f - 1) / (2 * f)) tUs
  let k := (((fired + gap : Nat) - org).toNat * f + num - 1) / num
  let reach := (org + ((k * num + f - 1) / f : Nat)).toNat
  (s.setOutp o { x with reachAt := some reach, nextTa := ta, nextDelay := delay }).fsetB (RefselOutStat.pending o) true

/-- OUTPUT_ENABLE (R294): the grid is fixed at the first whole second at least 1 s after the write that sets en. DEDUCED: log entry 49.
DEDUCED: log entry 173. -/
def doOutputEnable (m o : Nat) (s : State) : State :=
  if 9 < o || s.fbit (RefselOutCfg.en o) then s
  else s.writeThen m (RefselOutCfg.reg o) 1 fun s =>
    let ta := (s.now + 2 * tSec - 1) / tSec * tSec
    s.align o ta s.now

def execOutputEnable (m : Master) (o : OutN) (s : State) : Out := .next (doOutputEnable m o s)

/-- The device holds the timing role: it is unpaired, active or yielding (R254). -/
def State.timingRole (s : State) : Bool :=
  s.fget ProtPairStat.role == 0 || s.fget ProtPairStat.role == 4 || s.fget ProtPairStat.role == 5

/-- PULSE_ALIGN (R181, R294): an enabled output realigns to the action's start; a standby reports the action as missed. -/
def doPulseAlign (w : Nat) (s : State) : State :=
  let o := s.fget (WinCfg.target w)
  s.fireAction w 2 (fun s => decide (o ≤ 9) && s.fbit (RefselOutCfg.en o) && s.timingRole && s.winOwner w == 0)
    fun s k => s.align o (s.occStart w k) s.now

/-- OUTPUT_ALIGNED (R294, R295): the output reaches its new grid. -/
def doOutputAligned (o : Nat) (s : State) : State :=
  let x := s.outp o
  match x.reachAt with
  | none => s
  | some t =>
    if s.now < t then s
    else
      let s1 := s.setOutp o { x with reachAt := none, ta := x.nextTa, delay := x.nextDelay, mis := 0 }
      (((s1.fsetB (RefselOutStat.aligned o) true).fsetB (RefselOutStat.pending o) false).fsetB (RefselOutStat.misaligned o) false).fset
        (RefselOutMis.mis o) 0

def execOutputAligned (o : OutN) (s : State) : Out := .next (doOutputAligned o s)

/-! ## Time-of-day messages (R297, R298) -/

/-- The last rising edge of PPS_OUT0 at or before a time. -/
def State.ppsEdge (s : State) (t : Nat) : Option Nat :=
  let x := s.outp 8
  let org := x.ta + x.delay + x.mis
  if s.fbit (RefselOutCfg.en 8) && s.fbit (RefselOutStat.aligned 8) && decide (org ≤ t) then
    some (t - ((t : Int) - org).toNat % tSec)
  else none

/-- The seconds of an edge, rounded to nearest. DEDUCED: log entry 51. -/
def edgeSeconds (t : Nat) : Nat := (t + tSec / 2) / tSec

/-- The first 14 bytes of a ToD message for an edge. DEDUCED: log entry 51. -/
def State.todBody (s : State) (edge : Nat) : List Byte :=
  let b8 := s.fget RefselStat.state + (if s.fbit RefselStat.timeTrace then 8 else 0) + 16 * s.fget RefselStat.qlOut
  let b9 := s.fget MgmtTodUtc.flags + (if s.fbit (RefselOutStat.misaligned 8) then 8 else 0)
  [0xC5, 0x01] ++ (leBytes 6 (edgeSeconds edge)).reverse ++ [BitVec.ofNat 8 b8, BitVec.ofNat 8 b9]
    ++ (leBytes 2 (s.fget MgmtTodUtc.utcOff)).reverse ++ [0, 0]

/-- A body with its CRC, most significant byte first. -/
def withCrc16 (bs : List Byte) : List Byte := bs ++ (leBytes 2 (crc16 bs)).reverse

/-- TOD_TX_MESSAGE (R297): 1 ms after an edge of PPS_OUT0 its message is sent, where the device drives TOD_TX. -/
def doTodTxMessage (s : State) : State :=
  match s.ppsEdge (s.now - tMs) with
  | none => s
  | some e =>
    if !s.fbit MgmtTodCfg.txEn || s.tim.todSent == some e then s
    else
      let s1 := { s with tim := { s.tim with todSent := some e } }
      if (s.outp 10).driven then s1.emit (.tod (withCrc16 (s.todBody e))) else s1

def execTodTxMessage (s : State) : Out := .next (doTodTxMessage s)

/-- The rate of TOD_RX in Bd. -/
def todBaud (b : Nat) : Nat :=
  match b with
  | 0 => 9600 | 1 => 19200 | 2 => 38400 | 3 => 57600 | 4 => 115200 | 5 => 230400 | 6 => 460800 | _ => 921600

/-- TOD_RX_MESSAGE (R298): a message that has just arrived whole names the PPS_IN0 edge that came less than 1 s before its start
bit. -/
def doTodRxMessage (bs : List Byte) (s : State) : State :=
  if !s.fbit MgmtTodCfg.rxEn || bs.length != 16 then s
  else if withCrc16 (bs.take 14) != bs then s.fsetB MgmtTodStat.crcErr true
  else if bs.take 2 != [0xC5, 0x01] then s
  else
    let sec := ofBe ((bs.drop 2).take 6)
    let b8 := leAt bs 8 1
    let start := s.now - 160 * tSec / todBaud (s.fget MgmtTodCfg.baud)
    let differs := match s.tim.ppsIn0 with
      | some e => if e ≤ start ∧ start < e + tSec then sec != edgeSeconds e else s.fbit MgmtTodStat.secErr
      | none => s.fbit MgmtTodStat.secErr
    let s1 := ((s.fset MgmtTodRx0.secLo sec).fset MgmtTodRx1.secHi (sec / 2 ^ 32)).fset MgmtTodRx1.b8 b8
    let s2 := ((s1.fsetB MgmtTodStat.secErr differs).fsetB MgmtTodStat.rxValid true).fsetB MgmtTodStat.rxStale false
    ({ s2 with tim := { s2.tim with todAt := some s.ticks } }).receiveQl 4 (b8 / 16)

def execTodRxMessage (bytes : List Byte) (s : State) : Out := .next (doTodRxMessage bytes s)

/-- TOD_RX_STALE (R276, R305): 2 s without a good message. -/
def doTodRxStale (s : State) : State :=
  let stale := match s.tim.todAt with | none => true | some t => decide (tenthTicks 20 ≤ s.since t)
  if stale then ((s.fsetB MgmtTodStat.rxValid false).fsetB MgmtTodStat.rxStale true).failQl 4 else s

def execTodRxStale (s : State) : Out := .next (doTodRxStale s)

end Sys2Proof.Machine
end

