-- ==== Sys2Proof/Machine/Pair.lean ====
section
/-! DEFINITION. Device pairs (R254 to R268): heartbeats, the claim wire, roles, handovers, role outputs and contention; and the
protection commands of a command ring (R249, R250). -/

namespace Sys2Proof.Machine

/-! ## Pair state -/

/-- The device's timing_ok (R255). -/
def State.timingOk (s : State) : Bool := s.fget RefselStat.state == 2 || s.fget RefselStat.state == 3

/-- The device's healthy: DAY, with no lane, memory or PCI Express source in the alarm summary. DEDUCED: log entry 58. -/
def State.healthy (s : State) : Bool := s.fget GlbPhase.phase == 1 && s.alarmSources &&& 0x441 == 0

/-- A claim starts: QUALIFY (R259, R260). -/
def State.startClaim (s : State) (kind : Nat) : State :=
  ({ s with pair := { s.pair with claim := kind, qualFrom := s.ticks, probeAt := none } }).setRole 2

/-- The device becomes ACTIVE. -/
def State.becomeActive (s : State) : State := ({ s with pair := { s.pair with gave := none, failAt := none } }).setRole 4

/-- Contention on role outputs (R266): side B releases everything and is STANDBY; side A keeps driving. DEDUCED: log entry 54. -/
def State.contention (s : State) (bits : Nat) : State :=
  let s1 := (s.stick ProtOutCont.cont bits).fsetB ProtPairStat.outCont true
  let s2 := if s1.fbit ProtPairStat.side && s1.role != 0 then s1.standDown else s1
  s2.pairEvent 4

/-- claim_fault is set (R261). DEDUCED: log entry 53. -/
def State.claimFault (s : State) : State :=
  if s.fbit ProtPairStat.claimFault then s else (s.fsetB ProtPairStat.claimFault true).pairEvent 2

/-- A unit of a capture ring that follows the role, with release time rel, is written by this device (R254): in a handover the units
before H by the old active device, and from H on by the new one, which may still qualify (R263, R264). -/
def State.roleWrites (s : State) (rel : Nat) : Bool :=
  match s.role with
  | 0 => true
  | 4 => !(s.pair.claim == 1) || (match s.pair.hoAt with | some h => decide (h ≤ rel) | none => true)
  | 5 => match s.pair.hoAt with | some h => decide (rel < h) | none => true
  | r =>
    let from' := if r = 1 then s.pair.armed else if s.pair.claim = 1 then s.pair.hoAt else none
    (match s.pair.gave with | some h => decide (rel < h) | none => false)
      || (match from' with | some h => decide (h ≤ rel) | none => false)

/-! ## Heartbeats (R255 to R258) -/

/-- The role field of a frame. -/
def hbRole (role : Nat) : Nat := match role with | 4 => 1 | 3 => 2 | 5 => 3 | _ => 0

/-- Bits [79:0] of the device's frame. -/
def State.hbFrame (s : State) (seq : Nat) : Nat :=
  let bit (b : Bool) (i : Nat) : Nat := if b then 2 ^ i else 0
  let ho := match s.pair.hoAt with | some h => if s.role = 5 then h / tSec % 65536 else 0 | none => 0
  0xB4 + bit (s.fbit ProtPairStat.side) 8 + hbRole s.role * 2 ^ 9 + bit (s.fbit ProtPairStat.wireDrive) 11
    + bit (!s.fbit ProtPairStat.wireIn) 12 + bit s.timingOk 13 + bit s.healthy 14 + seq % 65536 * 2 ^ 16
    + s.fget CasEpoch.epoch * 2 ^ 32 + ho * 2 ^ 64

/-- The CRC of a frame (R255). -/
def hbCrc (f : Nat) : Nat := crc16 (leBytes 10 f)

/-- HEARTBEAT_SEND (R255): every 100 us core 28 sends the frame on PAIR_HB; cores 25 and 26 send it on the ring. -/
def doHeartbeatSend (s : State) : State :=
  let early := match s.pair.sentAt with | some t => decide (s.since t < 15625) | none => false
  if s.role == 0 || early then s
  else
    let f := s.hbFrame s.pair.hbSeq
    let word (i : Nat) : Word := BitVec.ofNat 32 ((f + hbCrc f * 2 ^ 80) / 2 ^ (32 * i))
    let s1 := { s with pair := { s.pair with hbSeq := (s.pair.hbSeq + 1) % 65536, sentAt := some s.ticks } }
    let s2 := s1.onlyIf (s1.coreRuns 28) (·.emit (.heartbeat [word 0, word 1, word 2]))
    s2.forEach [0, 1] fun s p => s.onlyIf (s.fbit CasCfg.en && s.coreRuns (25 + p)) fun s =>
      s.casSend p 7 false (s.fget CasCfg.peerNode) [f % 2 ^ 32, f / 2 ^ 32 % 2 ^ 32, f / 2 ^ 64]

def execHeartbeatSend (s : State) : Out := .next (doHeartbeatSend s)

/-- A good frame restores its path with the third in a row (R256); a gap of two intervals breaks the row. -/
def State.pathGood (s : State) (cas : Bool) : State :=
  let x := s.pair
  if cas then
    let n := if s.recent x.lastCas 31250 then x.goodCas + 1 else 1
    ({ s with pair := { x with goodCas := n, lastCas := some s.ticks } }).onlyIf (decide (3 ≤ n)) (·.fsetB ProtPairStat.hbCasOk true)
  else
    let n := if s.recent x.lastPin 31250 then x.goodPin + 1 else 1
    ({ s with pair := { x with goodPin := n, lastPin := some s.ticks } }).onlyIf (decide (3 ≤ n)) (·.fsetB ProtPairStat.hbPinOk true)

/-- What a good peer frame does to the role (R260 to R263, R266). -/
def State.peerSays (s : State) (f : Nat) : State :=
  let role := f / 2 ^ 9 % 4
  let own := s.role
  if own = 2 ∧ (role = 1 ∨ role = 2) then s.setRole 1
  else if own = 1 ∧ role = 3 then
    let sec := s.now / tSec
    let d := (f / 2 ^ 64 % 65536 + 65536 - sec % 65536) % 65536
    let t := if d < 32768 then sec + d else sec + d - 65536
    { s with pair := { s.pair with armed := some (t * tSec + tSec / 2) } }
  else if own = 4 ∧ role = 1 then
    s.contention (((List.range 11).filter fun o => (s.outp o).driven).map (2 ^ ·)).sum
  else s.relOnFault

/-- A frame of the own side (R256, R258). -/
def State.ownSideFrame (s : State) (cas : Bool) (role : Nat) : State :=
  let x := s.pair
  let x1 : PairSt := { x with ownSide := some s.ticks, goodPin := if cas then x.goodPin else 0, goodCas := if cas then 0 else x.goodCas }
  let s1 := { s.fsetB ProtPairStat.hbSelf true with pair := x1 }
  let s2 := match s1.role with
    | 2 => s1.setRole 1
    | 3 => (s1.driveWire false).setRole 1
    | 4 | 5 => if role = 1 then s1.standDown else s1
    | _ => s1
  s2.alarm

/-- HEARTBEAT_RX (R256, R258): a frame is received whole and judged. On the ring the cell's own check has replaced bits [95:80]. DEDUCED: log entry 52.
DESIGN CHOICE: log entry 195. -/
def doHeartbeatRx (cas : Bool) (frame : BitVec 96) (s : State) : State :=
  let f := frame.toNat % 2 ^ 80
  let ok := f % 256 = 0xB4 ∧ (cas ∨ frame.toNat / 2 ^ 80 = hbCrc f)
  let s0 := s.onlyIf (s.coreRuns 28) (·.coreEvent 28 5)
  if cas && !s.fbit ProtPairCfg.hbCas then s
  else if !ok then
    { s0 with pair := { s0.pair with goodPin := if cas then s0.pair.goodPin else 0, goodCas := if cas then 0 else s0.pair.goodCas } }
  else if f.testBit 8 = s.fbit ProtPairStat.side then s0.ownSideFrame cas (f / 2 ^ 9 % 4)
  else
    let role := f / 2 ^ 9 % 4
    let x := s0.pair
    let shown := role = 1 ∨ role = 2 ∨ f.testBit 11
    let x1 : PairSt := { x with lastGood := some s.ticks, lastActive := if shown then s.ticks else x.lastActive
                                lastHolds := if f.testBit 11 then some s.ticks else x.lastHolds
                                lastFit := if role = 0 ∧ f.testBit 13 ∧ f.testBit 14 then some s.ticks else x.lastFit }
    let s1 := ({ s0 with pair := x1 }).pathGood cas
    let s2 := s1.fset ProtPairStat.peerRole role
    let s3 := ((s2.fset (ProtPairHb.frame 0) f).fset (ProtPairHb.frame 1) (f / 2 ^ 32)).fset (ProtPairHb.frame 2) (f / 2 ^ 64)
    (s3.peerSays f).syncPair

def execHeartbeatRx (cascade : Bool) (frame : BitVec 96) (s : State) : Out := .next (doHeartbeatRx cascade frame s)

/-- HEARTBEAT_PATH_LOSS (R256, R257): hb_miss intervals of 100 us without a good frame; an unmonitored ring path counts as lost. DEDUCED: log entry 52. -/
def doHeartbeatPathLoss (cas : Bool) (s : State) : State :=
  let gone := !s.recent (if cas then s.pair.lastCas else s.pair.lastPin) (15625 * s.fget ProtPairCfg.hbMiss)
  if cas then
    if gone || !s.fbit ProtPairCfg.hbCas then
      ({ s.fsetB ProtPairStat.hbCasOk false with pair := { s.pair with goodCas := 0 } }).syncPair
    else s.syncPair
  else if gone then ({ s.fsetB ProtPairStat.hbPinOk false with pair := { s.pair with goodPin := 0 } }).syncPair
  else s.syncPair

def execHeartbeatPathLoss (cascade : Bool) (s : State) : Out := .next (doHeartbeatPathLoss cascade s)

/-- SAME_SIDE_EXPIRY (R258): 10 ms without an own-side frame. -/
def doSameSideExpiry (s : State) : State :=
  if s.recent s.pair.ownSide ms10 then s else ({ s with pair := { s.pair with ownSide := none } }).alarm

def execSameSideExpiry (s : State) : Out := .next (doSameSideExpiry s)

/-! ## Claims (R259 to R261) -/

/-- CLAIM_VACANCY (R259): a standby claims after 1 ms of vacancy where it is fit, else after 1 s. -/
def doClaimVacancy (s : State) : State :=
  let wait := if s.timingOk && s.healthy then ms1 else sec1
  if s.role = 1 ∧ s.fbit ProtPairCfg.autoClaim ∧ s.pair.ownSide = none ∧ !s.recent s.pair.releasedAt ms10
      ∧ wait ≤ s.since s.pair.lastActive then s.startClaim 0
  else s

def execClaimVacancy (s : State) : Out := .next (doClaimVacancy s)

/-- CLAIM_QUALIFIED (R260): the wire has read high for 100 us, or 2 us for a handover; the device drives it. A handover makes it
ACTIVE at once. -/
def doClaimQualified (s : State) : State :=
  let need := if s.pair.claim = 1 then 313 else 15625
  if s.role = 2 ∧ s.fbit ProtPairStat.wireIn ∧ need ≤ s.since (max s.pair.qualFrom s.pair.wireAt) then
    let s0 := s.driveWire true
    let s1 := { s0 with pair := { s0.pair with claimAt := s.ticks } }.setRole 3
    if s.pair.claim = 1 then s1.becomeActive else s1
  else s

def execClaimQualified (s : State) : Out := .next (doClaimQualified s)

/-- The release of side B's probe ends: 2 us after it began the wire, which read high, is driven low again (R260). -/
def State.endProbe (s : State) : State :=
  match s.pair.probeAt with
  | none => s
  | some t =>
    if s.role ≠ 3 ∨ s.pair.claim ≠ 2 ∨ s.since t < 313 then s
    else
      let s1 := s.driveWire true
      { s1 with pair := { s1.pair with probeAt := none } }

/-- CLAIM_PROBE (R260): side B releases the wire 10 us after driving it, for 2 us. -/
def doClaimProbe (s : State) : State :=
  if s.role = 3 ∧ s.fbit ProtPairStat.side ∧ s.pair.claim = 0 ∧ s.pair.probeAt = none ∧ 1563 ≤ s.since s.pair.claimAt then
    let s1 := s.driveWire false
    { s1 with pair := { s1.pair with probeAt := some s.ticks, releasedAt := s.pair.releasedAt } }
  else s.endProbe

def execClaimProbe (s : State) : Out := .next (doClaimProbe s)

/-- CLAIM_PROBE_SAMPLE (R260): 1.5 us into the release side B samples the wire: low, it backs off; high, it drives again at the end of the
release. -/
def doClaimProbeSample (low : Bool) (s : State) : State :=
  match s.pair.probeAt with
  | none => s
  | some t =>
    if s.role ≠ 3 ∨ s.pair.claim ≠ 0 ∨ s.since t < 235 then s
    else
      if low then
        let s1 := { s with pair := { s.pair with probeAt := none } }
        let s2 := { s1.fsetB ProtPairStat.backoff true with pair := { s1.pair with releasedAt := some s.ticks } }
        (s2.fset ProtPairStat.role 1).pairEvent 1
      else ({ s with pair := { s.pair with claim := 2 } }).endProbe

def execClaimProbeSample (low : Bool) (s : State) : Out := .next (doClaimProbeSample low s)

/-- CLAIM_ACTIVE (R260): 20 us after the drive without back-off. -/
def doClaimActive (s : State) : State :=
  let s1 := s.endProbe
  if s1.role = 3 ∧ 3125 ≤ s1.since s1.pair.claimAt ∧ (s1.fbit ProtPairStat.side = false ∨ s1.pair.claim = 2) then s1.becomeActive else s1

def execClaimActive (s : State) : Out := .next (doClaimActive s)

/-- The wire reads low undriven while the good peer frames of the last 1 ms, of which there are some, show holds = 0. -/
def State.heldByNone (s : State) : Bool :=
  !s.fbit ProtPairStat.wireDrive && !s.fbit ProtPairStat.wireIn && s.recent s.pair.lastGood ms1 && !s.recent s.pair.lastHolds ms1

/-- CLAIM_FAULT (R261): the wire has read high for 1 us while driven low, or low while nobody holds it. -/
def doClaimFault (s : State) : State :=
  let against := s.fbit ProtPairStat.wireDrive && s.fbit ProtPairStat.wireIn && decide (157 ≤ s.since (max s.pair.driveAt s.pair.wireAt))
  if s.role ≠ 0 && (against || s.heldByNone) then s.claimFault else s

def execClaimFault (s : State) : Out := .next (doClaimFault s)

/-- CLAIM_WIRE_CHANGE (R260, R261): the wire changes level at the ball; the qualification restarts. -/
def doClaimWireChange (high : Bool) (s : State) : State :=
  let s1 := { s.fsetB ProtPairStat.wireIn high with pair := { s.pair with wireAt := s.ticks } }
  if s1.role ≠ 0 && s1.heldByNone then s1.claimFault else s1

def execClaimWireChange (high : Bool) (s : State) : Out := .next (doClaimWireChange high s)

/-! ## Operations of PROT_PAIR_CTL (R262, R263) -/

def State.pairResult (s : State) (n : Nat) : State := s.fset ProtPairStat.cmdResult n

/-- ENABLE. -/
def doEnable (s : State) : State :=
  let s0 := s.fset ProtPairCtl.op 1
  if s0.role = 0 then (s0.setRole 1).pairResult 0 else s0.pairResult 2

def execEnable (s : State) : Out := .next (doEnable s)

/-- DISABLE: accepted while no good frame has come for 1 s; an active device keeps its outputs. -/
def doDisable (s : State) : State :=
  let s0 := s.fset ProtPairCtl.op 2
  if s0.role ≠ 1 ∧ s0.role ≠ 4 then s0.pairResult 2
  else if s0.recent s0.pair.lastGood sec1 then s0.pairResult 1
  else ((s0.driveWire false).setRole 0).pairResult 0

def execDisable (s : State) : Out := .next (doDisable s)

/-- HANDOVER (R263). DEDUCED: log entry 55. -/
def doHandover (s : State) : State :=
  let s0 := s.fset ProtPairCtl.op 3
  let sec := s.now / tSec
  let t := sec / 2 ^ 32 * 2 ^ 32 + s0.fget ProtPairT.tSec
  let h := t * tSec + tSec / 2
  if s0.role = 5 then s0.pairResult 4
  else if s0.role ≠ 4 then s0.pairResult 2
  else if h < s.now + 100 * tMs ∨ s.now + 60 * tSec < h ∨ !s0.recent s0.pair.lastFit ms1 then s0.pairResult 1
  else (({ s0 with pair := { s0.pair with hoAt := some h } }).setRole 5).pairResult 0

def execHandover (s : State) : Out := .next (doHandover s)

/-- CLAIM (R258, R259). DEDUCED: log entry 55. -/
def doClaim (s : State) : State :=
  let s0 := s.fset ProtPairCtl.op 4
  if s0.role = 2 ∨ s0.role = 3 then s0.pairResult 4
  else if s0.role ≠ 1 then s0.pairResult 2
  else if s0.pair.ownSide ≠ none then s0.pairResult 1
  else (s0.startClaim 0).pairResult 0

def execClaim (s : State) : Out := .next (doClaim s)

/-- STAND_DOWN. -/
def doStandDown (s : State) : State :=
  let s0 := s.fset ProtPairCtl.op 5
  if s0.role = 4 ∨ s0.role = 5 then s0.standDown.pairResult 0 else s0.pairResult 2

def execStandDown (s : State) : Out := .next (doStandDown s)

/-- HANDOVER_INSTANT (R263): at H the yielding device gives its role, and the standby that a yielding frame armed starts its claim.
DESIGN CHOICE: log entry 4. -/
def doHandoverInstant (s : State) : State :=
  if s.role = 5 then
    match s.pair.hoAt with
    | none => s
    | some h =>
      if s.now < h then s
      else ({ s with pair := { s.pair with hoAt := none, gave := some h, failAt := some (h + 10 * tUs) } }).driveWire false |>.setRole 1
  else
    match s.pair.armed with
    | none => s
    | some h =>
      if s.now < h then s
      else
        let s1 := { s with pair := { s.pair with armed := none } }
        if s.role = 1 ∧ s.pair.ownSide = none then ({ s1 with pair := { s1.pair with hoAt := some h } }).startClaim 1 else s1

def execHandoverInstant (s : State) : Out := .next (doHandoverInstant s)

/-- HANDOVER_FAIL (R263): at H + 10 us the wire is still high: result 3, and a claim as by command, which a device that has lately seen its
own side does not start (R258). -/
def doHandoverFail (s : State) : State :=
  match s.pair.failAt with
  | none => s
  | some t =>
    if s.now < t then s
    else
      let s1 := { s with pair := { s.pair with failAt := none } }
      if s1.role = 1 ∧ s1.fbit ProtPairStat.wireIn then (if s1.pair.ownSide = none then s1.startClaim 0 else s1).pairResult 3 else s1

def execHandoverFail (s : State) : Out := .next (doHandoverFail s)

/-! ## Role outputs (R265, R266) -/

/-- Output o is to drive its ball: it is enabled, and the device holds the timing role; after a handover not before H + 3 us. -/
def State.wantsDrive (s : State) (o : Nat) : Bool :=
  let en := if o = 10 then s.fbit MgmtTodCfg.txEn else s.fbit (RefselOutCfg.en o)
  let due := s.role != 4 || s.pair.claim != 1 || (match s.pair.hoAt with | some h => decide (h + 3 * tUs ≤ s.now) | none => true)
  en && s.timingRole && due && !s.inReset && !s.sys.lastGasp

/-- ROLE_OUTPUT_ENABLE (R265, R296): in its low half-period an output is driven or released, as its role decides. -/
def doRoleOutputEnable (o : Nat) (s : State) : State := s.setOutp o { s.outp o with driven := s.wantsDrive o }

def execRoleOutputEnable (o : OutN) (s : State) : Out := .next (doRoleOutputEnable o s)

/-- CONTENTION_DETECT (R266, R535): an edge before enabling or a readback mismatch; a short also sets MGMT_IO_FAULT. DEDUCED: log entry 54. -/
def doContentionDetect (o : Nat) (short : Bool) (s : State) : State :=
  (s.onlyIf short fun s => s.stick MgmtIoFault.out (2 ^ o)).contention (2 ^ o)

def execContentionDetect (o : OutN) (short : Bool) (s : State) : Out := .next (doContentionDetect o short s)

/-! ## Protection commands (R249, R250) -/

/-- The tributaries a PROT command names, in the device's numbers; none where the target lies outside the partition. DESIGN CHOICE: log entry 56. -/
def State.protTargets (s : State) (p : Nat) (d : List Byte) : Option (List Nat) :=
  let v := leAt d 6 2
  let merged (t : Nat) : Bool := s.fget (TribCfg.src t) == 0 && s.fbit (TribCfg.merge t) && s.tribOwner? t == some p
  match leAt d 5 1 with
  | 0 => (s.tribDevice p v).map fun t => [t]
  | 1 => some ((List.range 4096).filter fun t => s.fbit (TribCfg.en t) && s.fbit (TribCfg.inBundle t)
      && s.fget (TribCfg.bundle t) == v && s.tribOwner? t == some p)
  | _ => some ((List.range 4096).filter merged)

/-- A PROT descriptor is malformed: reserved code, scope or bits. DESIGN CHOICE: log entry 56. -/
def badProt (d : List Byte) : Bool :=
  badFlags d || decide (6 < leAt d 4 1) || decide (2 < leAt d 5 1) || usedFrom d 8 || (leAt d 5 1 == 0 && decide (4095 < leAt d 6 2))
    || (leAt d 5 1 == 1 && decide (255 < leAt d 6 2)) || (leAt d 5 1 == 2 && leAt d 6 2 != 0)

/-- PROT (R249): the command at the head of its ring is offered to core 28. -/
def doProt (p r : Nat) (s : State) : State :=
  match s.headCmd p r (· == 3) with
  | none => s
  | some d =>
    if badProt d then s.complete p r 1 0 [] []
    else if !s.feature p 7 then s.complete p r 3 0 [] []
    else
      match s.protTargets p d with
      | none => s.complete p r 2 0 [] []
      | some _ => (s.cmdBusy p r).onlyIf (s.coreRuns 28) (·.coreEvent 28 5)

def execProt (p : Part) (r : RingN) (s : State) : Out := .next (doProt p r s)

/-- The priority of a held command. -/
def protPriority (c : Nat) : Nat := (c + 1) / 2

/-- Core 28's write of a command for one tributary: its result. -/
def State.protOne (s : State) (code t : Nat) : Nat × State :=
  let held := s.fget (ProtMrgCfg.cmd t)
  let lane := if code = 1 then s.fget (ProtMrgCfg.laneA t) else s.fget (ProtMrgCfg.laneB t)
  if s.fget (TribCfg.src t) ≠ 0 ∨ !s.fbit (TribCfg.merge t) then (3, s)
  else if code ≠ 0 ∧ protPriority code < protPriority held then (1, s)
  else if (code = 1 ∨ code = 2) ∧ s.fget (LaneFail.fail lane) ≠ 0 then (2, s)
  else (0, s.fset (ProtMrgCfg.cmd t) code)

/-- The ring's command under way, where it is a PROT command. -/
def State.protUnderWay (s : State) (p r : Nat) : Option (List Byte) :=
  match (s.ring p r).descs with
  | [] => none
  | (_, d) :: _ => if (s.ring p r).headBusy && leAt d 0 1 == 3 then some d else none

/-- PROT_CMD_WRITE (R249, R250): core 28 writes the command within 10 ms, for each member on its own; the completion carries the first
refusal. -/
def doProtCmdWrite (p r : Nat) (s : State) : State :=
  match s.protUnderWay p r with
  | none => s
  | some d =>
    if !s.coreRuns 28 || decide ((s.ring p r).headSince + 10 * tMs ≤ s.now) then s
    else
      match s.protTargets p d with
      | none => s
      | some ts =>
        let (res, s1) := ts.foldl (fun (a : Nat × State) t =>
          let (x, s2) := a.2.protOne (leAt d 4 1) t
          (if a.1 = 0 then x else a.1, s2)) (if ts.isEmpty then 3 else 0, s)
        s1.complete p r 0 res [] []

def execProtCmdWrite (p : Part) (r : RingN) (s : State) : Out := .next (doProtCmdWrite p r s)

/-- PROT_CMD_TIMEOUT (R250): 10 ms after it reached the head of its ring the command completes with result 4. -/
def doProtCmdTimeout (p r : Nat) (s : State) : State :=
  match s.protUnderWay p r with
  | none => s
  | some _ => if s.now < (s.ring p r).headSince + 10 * tMs then s else s.complete p r 0 4 [] []

def execProtCmdTimeout (p : Part) (r : RingN) (s : State) : Out := .next (doProtCmdTimeout p r s)

end Sys2Proof.Machine
end

