-- ==== Sys2Proof/Machine/HostOps.lean ====
section
/-! DEFINITION. What the host commands rest on: interrupts (R351), tags of host reads (R352, R371, R372), stops of rings (R347, R349,
R358), capture records (R361, R362) and playback buffers (R366 to R368). -/

namespace Sys2Proof.Machine

/-! ## Interrupts -/

/-- A word of a function's MSI-X table; vector control resets to masked. PRESUMED: log entry 77. -/
def State.msixWord (s : State) (p i : Nat) : Nat := SMap.getD (s.part p).msix i (if i % 4 = 3 then 1 else 0)

/-- The message of a vector: sent, or pending while it is masked or no request may be issued (R341). PRESUMED: log entry 77. -/
def State.msixMsg (s : State) (p v : Nat) : State :=
  let q := s.part p
  if (s.msixWord p (4 * v + 3)).testBit 0 || !s.masters p then
    if q.msixPending.contains v then s else s.setPart p { q with msixPending := q.msixPending ++ [v] }
  else ((s.setPart p { q with msixPending := q.msixPending.filter (· != v) }).emit (.msi p v)).perfHit p 0x0B v 1

/-- Device-producer ring types: completion, event, telemetry (R345). -/
def deviceProducer (t : Nat) : Bool := t == 1 || t == 4 || t == 5

/-- Every ring of a partition that uses a vector counts as signalled, and the message goes out (R351). DEDUCED: log entry 76. -/
def State.signal (s : State) (p v : Nat) : State :=
  (s.forEach (List.range 64) fun s r =>
    if s.fget (HostRingCfg.vector p r) = v then s.setRing p r { s.ring p r with unsig := 0 } else s).msixMsg p v

/-! ## Stops and operations -/

/-- A ring stops with an error and a RING_ERR event; descriptors that arrived out of order behind a failed one are dropped. DEDUCED: log entry 75. -/
def State.stopRing (s : State) (p r err : Nat) : State :=
  let g := s.ring p r
  (((s.setRing p r { g with early := [] }).fset (HostRingStat.err p r) err).fsetB (HostRingStat.stopped p r) true).raise p 0x0C r err 0

/-- Descriptor reads of a ring in flight. -/
def State.fetching (s : State) (p r : Nat) : Nat :=
  (s.reads.filter fun x => x.part == p && x.ring == r && x.kind == 0 && !x.orphan).length

/-- Operations of a partition: descriptors held, ahead of their turn, and being fetched (R350). -/
def State.opsOf (s : State) (p : Nat) : Nat :=
  ((List.range 64).map fun r => (s.ring p r).heldCount + (s.ring p r).early.length + s.fetching p r).sum

/-- A partition may take one more operation: 128 guaranteed to each, the other 2,048 shared (R350). -/
def State.opFree (s : State) (p : Nat) : Bool :=
  decide (s.opsOf p < 128) || decide (((List.range 16).map fun q => s.opsOf q - 128).sum < 2048)

/-! ## Reads of host memory -/

/-- Tags that a read may use: 0 to 1,023, of which 0 to 63 are for command-ring descriptors only (R352). DESIGN CHOICE: log entry 74. -/
def State.freeTags (s : State) (command : Bool) : List Nat :=
  (List.range 1024).filter fun t =>
    (command || decide (64 ≤ t)) && !(s.reads.any fun x => x.tag == t) && !(s.quarantine.any fun x => x.1 == t)

/-- A read leaves with a free tag, which one being open. At most 64 requests are in flight, 8 of them kept for command-ring
descriptors (R22, R352). None where no tag or slot is free. DESIGN CHOICE: log entry 74. -/
def State.issueRead (s : State) (p r kind addr len buf first : Nat) (command : Bool) : Option State :=
  if (if command then 64 else 56) ≤ s.reads.length then none
  else
    let tags := s.freeTags command
    let (f, s1) := s.free 10
    match tags[f % max 1 tags.length]? with
    | none => none
    | some tag =>
      let x : HostRd := { tag := tag, part := p, ring := r, kind := kind, addr := addr, len := len, issuedAt := s.ticks
                          buf := buf, first := first, cto := s.fget (HostCto.ctoUs p) }
      some (({ s1 with reads := s1.reads ++ [x] }).emit (.hostRead p addr len tag))

/-- A read leaves the list of those in flight. -/
def State.dropRead (s : State) (tag : Nat) : State := { s with reads := s.reads.filter fun x => x.tag != tag }

/-! ## Capture (R360 to R363) -/

/-- A capture buffer closes: its record goes to the completion ring, and the drops since the last record are reported. DEDUCED: log entry 86. -/
def State.closeCap (s : State) (p r status : Nat) (b : CapBuf) (halted : Bool) : State :=
  let g := s.ring p r
  let bit (c : Bool) (i : Nat) : Nat := if c then 2 ^ i else 0
  let e := padEntry ([0x40] ++ leBytes 1 (bit b.substituted 1 + bit b.poisoned 2 + bit halted 3) ++ leBytes 2 b.index ++ leBytes 1 r
    ++ leBytes 1 status ++ leBytes 2 b.trib ++ leBytes 4 b.bytes ++ leBytes 4 (min (2 ^ 32 - 1) g.dropped)
    ++ leBytes 12 (timeWord b.rFirst) ++ leBytes 4 b.units)
  let s1 := (s.setRing p r { g with caps := g.caps.filter fun x => x.index != b.index, dropped := 0 }).syncRing p r
  s1.pushRecords p (s1.fget (HostRingCfg.cpl p r)) [e] false

/-- Fields of a capture descriptor. -/
def capAddr (d : List Byte) : Nat := leAt d 0 8
def capLen (d : List Byte) : Nat := leAt d 8 4

/-- Every held buffer of a capture ring closes with status 4: those in use, then the descriptors not yet taken, whose tributary and
first release time are not stated. DESIGN CHOICE: log entry 85. -/
def State.closeAllCaps (s : State) (p r : Nat) (halted : Bool) : State :=
  let g := s.ring p r
  let s1 := g.caps.foldl (fun s b => s.closeCap p r 4 b halted) (s.setRing p r { g with descs := [] })
  g.descs.foldl (fun s e =>
    let (t, s2) := s.free 12
    let (f, s3) := s2.free 64
    s3.closeCap p r 4 { index := e.1, addr := capAddr e.2, len := capLen e.2, trib := t, rFirst := f } halted) s1

/-- A capture ring stops as CAPTURE_HALT does: units not yet written are discarded, each held buffer is closed with status 4 and
halted, and stopped is set (R358). DEDUCED: log entry 80. -/
def State.haltCapture (s : State) (p r : Nat) : State :=
  let mine (t : Nat) : Bool := s.tribOwner? t == some p
  let s1 := s.forEach (s.tribs.map Prod.fst) fun s t =>
    let q := s.trib t
    if mine t then s.setTrib t { q with egress := q.egress.filter fun e => e.dest != .capture r } else s
  let s2 := s1.closeAllCaps p r true
  (s2.setRing p r { s2.ring p r with halted := true }).fsetB (HostRingStat.stopped p r) true

/-! ## Playback (R366 to R368) -/

/-- Units that a playback buffer holds. -/
def State.playUnits (s : State) (b : PlayBuf) : Nat := b.len / (8 * unitGrains (s.tfmt b.trib))

/-- The lead of a playback ring, P (R345). -/
def State.playLead (s : State) (p r : Nat) : Nat :=
  let us := s.fget (HostRingArg.arg p r) % 65536
  (if us = 0 then 20 else us) * tUs

/-- The sample instant of unit u of a buffer. DEDUCED: log entry 89. -/
def State.playInstant (s : State) (b : PlayBuf) (u : Nat) : Nat := b.instant + to16 (u * s.unitDur b.trib)

/-- The read time of unit u: its release time less E_adv and P; none while the tributary is not admitted. -/
def State.playReadAt (s : State) (p r : Nat) (b : PlayBuf) (u : Nat) : Option Nat :=
  (s.trib b.trib).adm.map fun a =>
    s.playInstant b u + a.l - (a.dests.map DestSt.eAdv).foldl max 0 - s.playLead p r

/-- A fetched playback descriptor becomes a buffer (R366, R367): refused with status 6 where its tributary is no playback tributary
or is fed by another ring, with status 1 where its fields are malformed; else placed against the end of the buffer before it, with the
units that come too early or too late passed over. DEDUCED: log entry 83. DEDUCED: log entry 84. -/
def State.openPlay (s : State) (p r index : Nat) (d : List Byte) : State :=
  let g := s.ring p r
  let lt := leAt d 12 2 % 4096
  let t? := s.tribDevice p lt
  let t := t?.getD 0
  let b0 : PlayBuf := { index := index, addr := leAt d 0 8, len := leAt d 8 4, trib := t, instant := timeOf (leAt d 16 12) }
  let put (b : PlayBuf) (s : State) : State := (s.setRing p r { s.ring p r with plays := g.plays ++ [b] }).syncRing p r
  let q := s.trib t
  let misfit := t?.isNone || s.fget (TribCfg.src t) != 2 || (match q.playRing with | some x => x != r | none => false)
  let gb := 8 * unitGrains (s.tfmt t)
  let bad := b0.addr % 64 != 0 || b0.len % gb != 0 || decide (b0.len < 64) || decide (16777216 < b0.len) || leAt d 12 2 / 4096 != 0
    || leAt d 14 2 != 0 || leAt d 28 4 != 0 || malformed (leAt d 16 12)
  if misfit then put { b0 with status := 6, trib := lt, len := 0 } s
  else if bad then put { b0 with status := 1, trib := lt, len := 0 } s
  else
    let n := s.playUnits b0
    let (b1, early) := match q.playEnd with
      | none => (b0, 0)
      | some e =>
        let near (x : Nat) : Bool := s.takesPoint t e x
        if near b0.instant then ({ b0 with instant := e }, 0)
        else if e < b0.instant then (b0, 0)
        else (b0, ((List.range n).filter fun u => decide (s.playInstant b0 u < e) && !near (s.playInstant b0 u)).length)
    let passed := ((List.range (n - early)).filter fun k => match s.playReadAt p r b1 (early + k) with
      | some x => decide (x < s.now)
      | none => false).length
    let b : PlayBuf := { b1 with nextGrain := early + passed, missed := early + passed, overlap := early != 0, late := passed != 0 }
    let e' := match q.playEnd with
      | some e => max e (s.playInstant b1 n)
      | none => s.playInstant b1 n
    put b (s.setTrib t { q with playRing := some r, playEnd := some e' })

/-- Every held buffer of a playback ring loses its unread units (R349). -/
def State.abandonPlays (s : State) (p r : Nat) : State :=
  let g := s.ring p r
  let cut (b : PlayBuf) : PlayBuf :=
    let n := s.playUnits b
    { b with missed := b.missed + (n - b.nextGrain), nextGrain := max n b.nextGrain, status := if b.status = 0 then 4 else b.status }
  let s1 := s.setRing p r { g with plays := g.plays.map cut }
  s1.forEach (s1.tribs.map Prod.fst) fun s t =>
    if s.tribOwner? t = some p ∧ (s.trib t).playRing = some r then s.setTrib t { s.trib t with playRing := none, playEnd := none } else s

/-- The grain reads of a unit for every destination have passed. -/
def State.readPassed (s : State) (t rel : Nat) : Bool :=
  match (s.trib t).adm with
  | some a => !(a.dests.any fun e => decide (e.nextFrom ≤ rel))
  | none => true

/-- Playback data arrives for units from `first` on: its grains go to the fabric ahead of release, poisoned or not, and units
whose own read has passed are late (R196, R367, R368); that is when they arrive (R174). DEDUCED: log entry 90. -/
def State.playData (s : State) (p r : Nat) (x : HostRd) (data : List Byte) (poison : Bool) : State :=
  let g := s.ring p r
  match g.plays.find? fun b => b.index == x.buf with
  | none => s
  | some b =>
    let gr := unitGrains (s.tfmt b.trib)
    let units := x.len / (8 * gr)
    let l := match (s.trib b.trib).adm with | some a => a.l | none => 0
    let late := ((List.range units).filter fun u => s.readPassed b.trib (s.playInstant b (x.first + u) + l)).length
    let new := (List.range (units * gr)).map fun i =>
      ({ instant := s.playInstant b (x.first + i / gr), idx := i % gr, payload := BitVec.ofNat 64 (leAt data (8 * i) 8)
         arrival := s.now, poison := poison } : InGrain)
    let b' : PlayBuf := { b with done := b.done + units, missed := b.missed + late, late := b.late || late != 0
                                 hostErr := b.hostErr || poison }
    let q := s.trib b.trib
    let s1 := (s.setRing p r { g with plays := g.plays.map fun y => if y.index = b.index then b' else y }).setTrib b.trib
      { q with fab := q.fab ++ new }
    (s1.bump .trib b.trib 1 new.length).forEach (List.range units) fun s u =>
      s.noteLag b.trib (s.playInstant b (x.first + u)) s.now

/-- Playback data that never arrives: its units are late (R371). DEDUCED: log entry 89. -/
def State.playLost (s : State) (p r : Nat) (x : HostRd) : State :=
  let g := s.ring p r
  match g.plays.find? fun b => b.index == x.buf with
  | none => s
  | some b =>
    let units := x.len / (8 * unitGrains (s.tfmt b.trib))
    s.setRing p r { g with plays := g.plays.map fun y =>
      if y.index = b.index then { b with missed := b.missed + units, late := true } else y }

/-! ## Descriptors that arrive -/

/-- A fetched descriptor takes its place: a command or capture buffer waits for its turn, a playback buffer is placed. DEDUCED: log entry 83. -/
def State.holdDesc (s : State) (p r index : Nat) (d : List Byte) : State :=
  let g := s.ring p r
  match s.fget (HostRingCfg.typ p r) with
  | 3 => s.openPlay p r index d
  | _ => (s.setRing p r { g with descs := g.descs ++ [(index, d)], headSince := if g.descs.isEmpty then s.now else g.headSince }).syncRing p r

/-- Descriptors that have arrived in index order are held; dev_idx counts them (R346). DEDUCED: log entry 75. -/
def State.takeEarly (s : State) (p r : Nat) : Nat → State
  | 0 => s
  | n + 1 =>
    let g := s.ring p r
    let i := s.fget (HostRingStat.devIdx p r)
    match g.early.find? fun e => e.1 == i with
    | none => s
    | some (_, d) =>
      let s1 := (s.setRing p r { g with early := g.early.filter fun e => e.1 != i }).fset (HostRingStat.devIdx p r) (i + 1)
      ((s1.holdDesc p r i d).perfHit p 0x09 r 1).takeEarly p r n

/-- A disabled ring closes what arrives late as it closed what it held (R349). -/
def State.closeIfOff (s : State) (p r : Nat) : State :=
  if s.fbit (HostRingCfg.en p r) then s
  else
    match s.fget (HostRingCfg.typ p r) with
    | 2 => s.closeAllCaps p r false
    | 3 => s.abandonPlays p r
    | _ => s

/-! ## What a reset does to the host interface of a partition (R375) -/

/-- Rings of p disabled, descriptors abandoned and unissued writes dropped without records, reads in flight left to be discarded. -/
def State.dropHost (s : State) (p : Nat) : State :=
  let s1 := { s with rings := s.rings.filter fun e => e.1 / 64 != p
                     reads := s.reads.map fun (x : HostRd) => if x.part = p then { x with orphan := true } else x }
  s1.forEach (s1.tribs.map Prod.fst) fun s t =>
    if s.tribOwner? t = some p ∧ ((s.trib t).playRing.isSome ∨ (s.trib t).playEnd.isSome) then
      s.setTrib t { s.trib t with playRing := none, playEnd := none }
    else s

end Sys2Proof.Machine
end

