-- ==== Sys2Proof/Machine/Telemetry.lean ====
section
/-! DEFINITION. Performance counters (R508 to R510, R518) and telemetry records (R516, R517). -/

namespace Sys2Proof.Machine

/-! ## Performance counters -/

/-- PERF_CLEAR (R518): a write of PERF_CTL with clear = 1 zeroes the 16 counters at one instant; clear reads 0. -/
def doPerfClear (m : Nat) (value : Word) (s : State) : State :=
  let p := viewPart m
  s.writeThen m (PerfCtl.reg p) value.toNat fun s =>
    let clear := s.fbit (PerfCtl.clear p)
    (s.fsetB (PerfCtl.clear p) false).onlyIf clear fun s => s.forEach (List.range 16) fun s k => s.ctrZero .perf p k

def execPerfClear (m : Master) (value : Word) (s : State) : Out := .next (doPerfClear m value s)

/-- COUNTER_ENABLE (R509): a write of PERF_CNT_CFG_k; setting en zeroes the counter. -/
def doCounterEnable (m k : Nat) (value : Word) (s : State) : State :=
  let p := viewPart m
  let was := s.fbit (PerfCntCfg.en p k)
  s.writeThen m (PerfCntCfg.reg p k) value.toNat fun s =>
    s.onlyIf (!was && s.fbit (PerfCntCfg.en p k)) fun s => s.ctrZero .perf p k

def execCounterEnable (m : Master) (k : BitVec 4) (value : Word) (s : State) : Out := .next (doCounterEnable m k.toNat value s)

/-- Any resource that arg selects satisfies a test: all of them, or the one it names. -/
def anyOf (arg : Nat) (all : List Nat) (q : Nat → Bool) : Bool := if arg = 0xFFF then all.any q else q arg

/-- A ring is stalled: a device-producer ring without room for what waits, or a host-producer ring at its fetch limit. -/
def State.ringStalled (s : State) (p r : Nat) : Bool :=
  let g := s.ring p r
  let size := s.ringSize p r
  s.fbit (HostRingCfg.en p r) &&
    (match s.fget (HostRingCfg.typ p r) with
     | 1 | 4 | 5 => !g.waiting.isEmpty
        && decide (size ≤ (s.fget (HostRingStat.devIdx p r) + 65536 - s.fget (HostRingHidx.hostIdx p r)) % 65536)
     | _ => decide (16 ≤ g.heldCount + g.early.length + s.fetching p r) || !s.opFree p)

/-- The local lanes of a partition's view: those of its groups. -/
def State.lanesOf (s : State) (p : Nat) : List Nat := (List.range 96).filter fun n => s.laneOwner n == p

/-- The level that an event code of a partition names holds (R510). A bus port's wait and the evaluation of an ADMIT take no time
in the model. DEDUCED: log entry 140. -/
def State.level (s : State) (p code arg : Nat) : Bool :=
  match code with
  | 0x20 => anyOf arg (List.range 64) (s.ringStalled p)
  | 0x22 => anyOf arg (s.lanesOf p) fun n => s.laneOwner n == p && s.fget (LaneDef.defs n) % 32 != 0
  | 0x23 => anyOf arg (List.range (s.mget (BootMapTrib.count p))) fun x => match s.tribDevice p x with
      | some t => s.fbit (TribLatHi.void t)
      | none => false
  | 0x30 => s.fget GlbPhase.phase == 2
  | 0x31 => s.fget RefselStat.state == 3 || s.fget RefselStat.state == 4
  | 0x32 => s.fbit GlbPace.pending
  | _ => false

/-- The level counters of a partition at a tick: 64 for each whose level holds (R509). DEDUCED: log entry 140. -/
def State.levelTick (s : State) (p : Nat) : State :=
  if !s.fbit (PerfCtl.run p) || !s.domOn 6 then s
  else s.forEach (List.range 16) fun s k =>
    s.onlyIf (s.fbit (PerfCntCfg.en p k) && s.fbit (PerfCntCfg.lvl p k)
      && s.level p (s.fget (PerfCntCfg.event p k)) (s.fget (PerfCntCfg.arg p k))) fun s => s.ctrAdd .perf p k 64

/-! ## Telemetry records -/

/-- The counters of a partition, four to an entry. -/
def State.telCounters (s : State) (p : Nat) : List (List Byte) :=
  (List.range 4).map fun j =>
    padEntry ([0x51, 0, BitVec.ofNat 8 j, 0] ++ ((List.range 4).map fun i => leBytes 6 (s.ctr .perf p (4 * j + i))).flatten)

/-- Pace and thermal. -/
def State.telPace (s : State) (r : Nat) : List Byte :=
  padEntry ([0x52, 0, 0, 0] ++ leBytes 2 (s.fget PerfPaceNow.period) ++ leBytes 2 (s.ring 0 r).paceMax ++ leBytes 2 (s.fget PwrTherm.tj)
    ++ leBytes 1 (s.fget RefselStat.state) ++ leBytes 1 (s.fget GlbPhase.phase) ++ leBytes 4 (s.fget IntegDigVal.val)
    ++ leBytes 1 (s.fget GlbPace.mode))

/-- The lane summary: 28 lanes to an entry. -/
def State.telLanes (s : State) (p : Nat) : List (List Byte) :=
  let ls := s.lanesOf p
  (List.range ((ls.length + 27) / 28)).map fun j =>
    let part := (ls.drop (28 * j)).take 28
    padEntry ([0x53, 0] ++ leBytes 1 (part.headD 0) ++ [0] ++ (part.map fun n => leBytes 1 (s.fget (LaneFail.fail n))).flatten)

/-- TELEMETRY_RECORD (R516, R517): at a boundary not yet written a record is written whole, or dropped and counted. DEDUCED: log entry 141. -/
def doTelemetryRecord (p r : Nat) (s : State) : State :=
  let per := s.telPeriod p r * tMs
  let b := s.now / per * per
  let g := s.ring p r
  if !s.ringIs p r 5 || !s.domOn 6 || decide (b ≤ g.telAt) then s
  else
    let c := s.telContent p r
    let body := (if c.testBit 0 then s.telCounters p else []) ++ (if c.testBit 1 && p == 0 then [s.telPace r] else [])
      ++ (if c.testBit 2 then s.telLanes p else [])
    let jumped := decide (g.telAt < s.sys.lateTo ∧ s.sys.lateTo ≤ b ∧ s.sys.lateFrom < s.sys.lateTo)
    let head := padEntry ([0x50, 0] ++ leBytes 2 g.telSeq ++ leBytes 2 (body.length + 1) ++ leBytes 2 g.dropped
      ++ leBytes 1 (if jumped then 1 else 0) ++ [0, 0, 0] ++ leBytes 12 (timeWord b))
    if s.ringUsed p r + body.length + 1 ≤ s.ringSize p r then
      (s.setRing p r { g with waiting := g.waiting ++ (head :: body).map (·, false), dropped := 0, telSeq := (g.telSeq + 1) % 65536
                              telAt := b, paceMax := 0 }).fsetB (HostRingStat.busy p r) true
    else s.setRing p r { g with dropped := min 65535 (g.dropped + 1), telAt := b }

def execTelemetryRecord (p : Part) (r : RingN) (s : State) : Out := .next (doTelemetryRecord p r s)

end Sys2Proof.Machine
end

