-- ==== Sys2Proof/Machine/Clock.lean ====
section
/-! DEFINITION. The tick of the transmit/system clock (R29): what passes while no command waits. -/

namespace Sys2Proof.Machine

/-- An edge of PPS_OUT0 since a time is held as the last one (R170). -/
def State.notePps (s : State) (from' : Nat) : State :=
  match s.ppsEdge s.now with
  | some e => if from' < e then { s with tim := { s.tim with ppsOut0 := some e } } else s
  | none => s

/-- One tick of 6.4 ns: device time and the elapsed ticks advance, and the level counters count (R509). DESIGN CHOICE: an idle step of the
block is one tick (log entry 1). DESIGN CHOICE: log entry 191. -/
def State.tick (s : State) : State :=
  (({ s with clock := s.clock + tickFifths, ticks := s.ticks + 1 } : State).notePps s.now).forEach (List.range 16) State.levelTick

end Sys2Proof.Machine
end

