-- ==== Sys2Proof/Machine/Cascade.lean ====
section
/-! DEFINITION. The commands of the cascade (R306 to R332): cells and messages, numbering, reachability, time transfer, epochs,
reports and agreement. -/

namespace Sys2Proof.Machine

/-! ## Receiving (R313 to R316) -/

/-- A message that waits for its command. DEDUCED: log entry 59. -/
def State.toInbox (s : State) (m : CasMsg) : State :=
  ({ s with cas := { s.cas with inbox := s.cas.inbox ++ [m] } }).coreEvent (25 + m.port) 3

/-- Word i of a message. -/
def CasMsg.word (m : CasMsg) (i : Nat) : Nat := (m.words[i]?).getD 0

/-- Words i and i + 1 as a signed 64-bit number. -/
def CasMsg.wide (m : CasMsg) (i : Nat) : Int := toSigned 64 (m.word i + m.word (i + 1) * 2 ^ 32)

/-- A TIME_DIST from another manager (R308): another dev_id, or a tag that this manager has not sent in the last 2 ms. DEDUCED: log entry 62. -/
def State.otherManager (s : State) (m : CasMsg) : Bool :=
  m.word 2 % 65536 != s.fget CasCfg.devId
    || !s.cas.tags.any fun e => e.1 == m.word 2 / 65536 && decide (s.since e.2.1 ≤ 2 * ms1)

/-- A message leaves by the other port; TIME_DIST counts one hop more (R316, R319). -/
def State.casForwardMsg (s : State) (m : CasMsg) : State :=
  let ws := if m.kind = 2 then (m.word 0 / 64 * 64 + (m.word 0 % 64 + 1) % 64) :: m.words.drop 1 else m.words
  (s.casQueue (1 - m.port) m.kind (msgCells m.kind m.bcast m.dst m.src ws)).bump .cas m.port 3 1

/-- A whole message is handled by R316; a stand-alone device takes heartbeats only (R306). -/
def State.casHandle (s : State) (m : CasMsg) : State :=
  let role := s.casRole
  let own := s.fbit CasStat.numbered && m.src == s.fget CasStat.node
  let beat (s : State) : State := doHeartbeatRx true (BitVec.ofNat 96 (m.word 0 + m.word 1 * 2 ^ 32 + m.word 2 * 2 ^ 64)) s
  if role = 0 then (if m.kind = 7 then beat s else s)
  else if m.kind = 1 ∨ m.kind = 3 then s.toInbox m
  else if role = 1 ∧ m.kind = 2 then
    if s.otherManager m then (s.toInbox m).casForwardMsg m else s.toInbox m
  else if own then s.bump .cas m.port 4 1
  else
    let mine := s.fbit CasStat.numbered && !m.bcast && m.dst == s.fget CasStat.node
    let lead := s.fbit CasStat.leading && (m.kind == 4 || m.kind == 8)
    let s1 := if m.bcast || mine || lead then (if m.kind = 7 then beat s else s.toInbox m) else s
    if mine || (lead && m.kind == 4) then s1 else s1.casForwardMsg m

/-- CASCADE_CELL_RX (R313 to R317): the oldest received cell is checked and joined to its message by port, kind and source.
DESIGN CHOICE: log entry 195. -/
def doCascadeCellRx (s : State) : State :=
  match s.cellsIn with
  | [] => s
  | c :: cs =>
    let s0 := { s with cellsIn := cs }
    let p := c.lane / 2
    let v := c.payload.toNat
    let kind := v / 2 ^ 8 % 16
    let src := v / 2 ^ 19 % 64
    let frag := v / 2 ^ 25 % 4
    let n := kindCells kind
    if c.errored || v % 256 != 0x33 || cellChk v != v / 2 ^ 60 then s0.bump .cas p 2 1
    else if n = 0 then (s0.bump .cas p 1 1).bump .cas p 7 1
    else
      let s1 := s0.bump .cas p 1 1
      let same (m : CasMsg) : Bool := m.port == p && m.kind == kind && m.src == src
      let old := s1.cas.asm.find? same
      let rest := s1.cas.asm.filter fun m => !same m
      let s2 := { s1 with cas := { s1.cas with asm := rest } }
      let s3 := s2.onlyIf (match old with | some m => m.words.length != frag | none => frag != 0) (·.bump .cas p 5 1)
      let base := match old with
        | some m => if frag = 0 then some { m with words := [] } else if m.words.length = frag then some m else none
        | none => if frag = 0 then some ⟨p, kind, v.testBit 12, v / 2 ^ 13 % 64, src, []⟩ else none
      match base with
      | none => s3
      | some b =>
        let m : CasMsg := { b with bcast := v.testBit 12, dst := v / 2 ^ 13 % 64, words := b.words ++ [v / 2 ^ 28 % 2 ^ 32] }
        if v.testBit 27 then (if m.words.length = n then s3.casHandle m else s3.bump .cas p 5 1)
        else if m.words.length < n then { s3 with cas := { s3.cas with asm := s3.cas.asm ++ [m] } }
        else s3.bump .cas p 5 1

def execCascadeCellRx (s : State) : Out := .next (doCascadeCellRx s)

/-- The oldest waiting message of a kind, taken while the core of its port runs. DEDUCED: log entry 59. -/
def State.takeMsg (s : State) (kind : Nat) : Option (CasMsg × State) :=
  let l := s.cas.inbox
  match l.find? fun m => m.kind == kind && s.coreRuns (25 + m.port) with
  | none => none
  | some m => some (m, { s with cas := { s.cas with inbox := l.erase m } })

/-! ## Numbering, reachability and leading (R308, R318, R319) -/

/-- DISCOVER (R318): a worker holds a provisional number and sends the next one on; the leading manager ends its enumeration. -/
def doDiscover (s : State) : State :=
  match s.takeMsg 1 with
  | none => s
  | some (m, s1) =>
    let w := m.word 0
    let count := w % 128
    let gen := w / 128 % 16
    if m.port ≠ 0 then s1
    else if s1.casRole = 2 then
      let s2 := { s1 with cas := { s1.cas with provisional := if count ≤ 63 then some (gen, count) else none } }
      s2.casSend 1 1 false 0 [w / 128 * 128 + min 127 (count + 1)]
    else if s1.fbit CasStat.leading && s1.recent s1.cas.enumAt ms1 && gen == (s1.fget CasStat.gen + 1) % 16
        && w / 2 ^ 16 == s1.fget CasCfg.devId then
      let s2 := { s1 with cas := { s1.cas with enumAt := none } }
      if 64 < count then s2.fset CasStat.enumRes 3
      else
        let s3 := ((((s2.fset CasStat.enumRes 1).fset CasStat.gen gen).fset CasStat.ringN count).fsetB CasStat.numbered true).fset CasStat.node 0
        s3.forEach (List.range 64) fun s n => s.fsetB (CasAgrCtl.present n) (decide (n < count))
    else s1

def execDiscover (s : State) : Out := .next (doDiscover s)

/-- ENUMERATE (R318): the leading manager numbers the ring. -/
def doEnumerate (s : State) : State :=
  let s0 := s.fset CasCtl.op 1
  if s0.fbit CasStat.leading && s0.fbit CasCfg.en then s0.startEnum else s0

def execEnumerate (s : State) : Out := .next (doEnumerate s)

/-- ENUM_TIMEOUT (R318): 1 ms without a return. -/
def doEnumTimeout (s : State) : State :=
  match s.cas.enumAt with
  | none => s
  | some t => if s.since t < ms1 then s else ({ s with cas := { s.cas with enumAt := none } }).fset CasStat.enumRes 2

def execEnumTimeout (s : State) : Out := .next (doEnumTimeout s)

/-- A manager no longer leads: it sends no TIME_DIST that could return (R308, R319). -/
def State.loseLead (s : State) : State := ((s.fsetB CasStat.clash true).fsetB CasStat.leading false).fsetB CasStat.intact false

/-- A manager hears a TIME_DIST (R308, R319): its own returns on a port; another's decides who leads. DEDUCED: log entry 62. -/
def State.managerHears (s : State) (m : CasMsg) : State :=
  let dev := m.word 2 % 65536
  let own := s.fget CasCfg.devId
  if !s.otherManager m then
    let tag := m.word 2 / 65536
    let s1 := s.bump .cas m.port 4 1
    let tags := s1.cas.tags.map fun e => if e.1 = tag ∧ s1.since e.2.1 ≤ 31250 then (e.1, e.2.1, e.2.2 ||| 2 ^ m.port) else e
    let s2 := ({ s1 with cas := { s1.cas with tags := tags } }).onlyIf (s1.fbit CasStat.leading) (·.fset CasMgr.devId own)
    if tags.any fun e => e.1 == tag && e.2.2 == 3 then s2.setIntact true else s2
  else if dev = own then
    ((({ s with cas := { s.cas with noLead := true, dupDev := own } }).fsetB CasMgr.dupId true).loseLead).alarm
  else if dev < own then
    (({ s with cas := { s.cas with leaderAt := s.ticks } }).loseLead).fset CasMgr.devId dev
  else s

/-- A worker hears the manager's TIME_DIST (R318, R319). -/
def State.workerHears (s : State) (m : CasMsg) : State :=
  let w := m.word 0
  let gen := w / 2 ^ 13 % 16
  let x := s.casPort m.port
  let s1 := (s.setCasPort m.port { x with distAt := some s.ticks, ringDown := false }).fset (CasHopStat.hops m.port) w
  let s2 := (({ s1 with cas := { s1.cas with mgrEpoch := some (m.word 1) } }).fset CasStat.ringN (w / 64)).fset CasMgr.devId (m.word 2)
  let s3 := (s2.fset CasStat.gen gen).fsetB CasStat.intact (w.testBit 17)
  let s4 := match s3.cas.provisional with
    | some (g, node) => if g = gen then (s3.fset CasStat.node node).fsetB CasStat.numbered true else s3
    | none => s3
  s4.setReach m.port (s4.casBit CasStat.portUp m.port)

/-- TIME_DIST (R308, R319). DEDUCED: log entry 62. -/
def doTimeDist (s : State) : State :=
  match s.takeMsg 2 with
  | none => s
  | some (m, s1) => if s1.casRole = 1 then s1.managerHears m else if s1.casRole = 2 then s1.workerHears m else s1

def execTimeDist (s : State) : Out := .next (doTimeDist s)

/-- The next tag of the manager's generator. -/
def nextTag (l : Nat) : Nat :=
  let b (i : Nat) : Nat := l / 2 ^ i % 2
  l / 2 + (b 0 + b 2 + b 3 + b 5) % 2 * 2 ^ 15

/-- This manager leads and may send. -/
def State.leads (s : State) : Bool := s.casRole == 1 && s.fbit CasCfg.en && s.fbit CasStat.leading && !s.cas.noLead

/-- TIME_DIST_SEND (R314, R319): the leading manager's message leaves both ports with a fresh tag. -/
def doTimeDistSend (s : State) : State :=
  if !s.leads then s
  else
    let tag := s.cas.lfsr
    let old := s.cas.tags.filter fun e => decide (s.since e.2.1 ≤ 2 * ms1)
    let s1 := { s with cas := { s.cas with lfsr := nextTag tag, tags := (tag, s.ticks, 0) :: old } }
    let bit (b : Bool) (i : Nat) : Nat := if b then 2 ^ i else 0
    let w0 := 1 + s1.fget CasStat.ringN % 128 * 64 + s1.fget CasStat.gen * 2 ^ 13 + bit (s1.fbit CasStat.intact) 17
      + s1.fget RefselStat.qlOut * 2 ^ 18 + s1.fget RefselStat.state * 2 ^ 22
    let ws := [w0, s1.fget CasEpoch.epoch, s1.fget CasCfg.devId + tag * 2 ^ 16]
    s1.forEach [0, 1] fun s p => s.onlyIf (s.coreRuns (25 + p)) (·.casSend p 2 true 0 ws)

def execTimeDistSend (s : State) : Out := .next (doTimeDistSend s)

/-- INTACT_TIMEOUT (R319): of the messages that are 200 us old or have returned, the last one has not returned on both ports. DEDUCED: log entry 61. -/
def doIntactTimeout (s : State) : State :=
  match s.cas.tags.find? fun e => decide (31250 < s.since e.2.1) || e.2.2 == 3 with
  | some e => if s.casRole = 1 ∧ e.2.2 ≠ 3 then s.setIntact false else s
  | none => s

def execIntactTimeout (s : State) : Out := .next (doIntactTimeout s)

/-- LEAD_TAKEOVER (R308): 2 ms without the leader's TIME_DIST. -/
def doLeadTakeover (s : State) : State :=
  if s.casRole = 1 ∧ s.fbit CasCfg.en ∧ !s.fbit CasStat.leading ∧ !s.cas.noLead ∧ 2 * ms1 ≤ s.since s.cas.leaderAt then
    let s1 := ((s.fsetB CasStat.leading true).fsetB CasStat.clash false).fset CasMgr.devId (s.fget CasCfg.devId)
    let s2 := { s1 with cas := { s1.cas with enumWhenIntact := true } }
    if s2.fbit CasStat.intact then s2.startEnum else s2
  else s

def execLeadTakeover (s : State) : Out := .next (doLeadTakeover s)

/-- RING (R319): a RING down cell makes its port unreachable until the next TIME_DIST. -/
def doRing (s : State) : State :=
  match s.takeMsg 8 with
  | none => s
  | some (m, s1) =>
    if m.word 0 % 2 = 1 then (s1.setCasPort m.port { s1.casPort m.port with ringDown := true }).setReach m.port false else s1

def execRing (s : State) : Out := .next (doRing s)

/-- REACH_TIMEOUT (R319): 500 us without TIME_DIST. -/
def doReachTimeout (p : Nat) (s : State) : State :=
  if s.casBit CasStat.reach p && !s.recent (s.casPort p).distAt 78125 then s.setReach p false else s

def execReachTimeout (port : CasPort) (s : State) : Out := .next (doReachTimeout port s)

/-- UPSTREAM_REVERT (R319): the other port has had fewer hops for 1 s. -/
def doUpstreamRevert (s : State) : State :=
  match s.cas.fewerSince with
  | none => s
  | some t => if s.casRole = 2 ∧ sec1 ≤ s.since t then s.setUpstream (some (1 - s.fget CasStat.upPort)) else s

def execUpstreamRevert (s : State) : Out := .next (doUpstreamRevert s)

/-- MSG (R314): 128 bits pass to software unchanged. DEDUCED: log entry 59. -/
def doMsg (s : State) : State :=
  match s.takeMsg 9 with
  | none => s
  | some (m, s1) => { s1 with cas := { s1.cas with msgs := s1.cas.msgs ++ [m] } }

def execMsg (s : State) : Out := .next (doMsg s)

/-! ## Time transfer (R320 to R323) -/

/-- TT_STAMP_SEND (R320): every 16 multiframes the port's core sends the last forward difference of each lane. -/
def doTtStampSend (p : Nat) (s : State) : State :=
  let x := s.casPort p
  if x.sinceStamp < 16 || !s.coreRuns (25 + p) then s
  else
    (s.setCasPort p { x with sinceStamp := 0 }).forEach [0, 1] fun s k =>
      match x.fwd.find? fun r => r.lane == k with
      | none => s
      | some r => s.casSend p 3 false 0 [k + r.seq * 2 ^ 16, ofSigned 64 r.diff % 2 ^ 32, ofSigned 64 r.diff / 2 ^ 32]

def execTtStampSend (port : CasPort) (s : State) : Out := .next (doTtStampSend port s)

/-- Forward lane i paired with reverse lane j of a port (R321): forward less reverse, and their sum, from multiframes within 3.2768 us
of each other and of the last 500 us. -/
def State.pairing (s : State) (p i j : Nat) : Option (Int × Int) :=
  let x := s.casPort p
  match x.rev.find? fun r => r.lane == j with
  | none => none
  | some r =>
    let near (f : TtRec) : Bool := f.lane == i && decide (((f.arrived : Int) - r.arrived).natAbs ≤ 214748364)
      && decide (s.now ≤ f.arrived + 500 * tUs)
    (x.fwd.find? near).map fun f => (f.diff - r.diff, f.diff + r.diff)

/-- The pairings of a port: the chosen two, and the other two by their forward lane. -/
def State.pairings (s : State) (p : Nat) : List (Option (Int × Int)) × List (Option (Int × Int)) :=
  let crossed := [s.pairing p 0 1, s.pairing p 1 0]
  let straight := [s.pairing p 0 0, s.pairing p 1 1]
  if s.fbit CasCfg.pairing then (straight, crossed) else (crossed, straight)

/-- A calibration sum grows by a valid result with its other pairings; after 1 s its means become e_0 and e_1 (R322). Sums are in quarters
of 2^-16 ns. -/
def State.calibrate (s : State) (p : Nat) (chosen : Int) (o0 o1 : Int) : State :=
  let x := s.casPort p
  let x1 : CasPortSt := { x with calFrom := some (x.calFrom.getD s.ticks), calN := x.calN + 1
                                 calSum0 := x.calSum0 + (2 * o0 - chosen), calSum1 := x.calSum1 + (2 * o1 - chosen) }
  if s.since (x1.calFrom.getD s.ticks) < sec1 then s.setCasPort p x1
  else
    let (e0, s1) := s.round x1.calSum0 (4 * x1.calN)
    let (e1, s2) := s1.round x1.calSum1 (4 * x1.calN)
    (((s2.setCasPort p { x1 with calFrom := none, calN := 0, calSum0 := 0, calSum1 := 0 }).fset (CasHopAsym.e p 0) (ofSigned 32 e0)).fset
      (CasHopAsym.e p 1) (ofSigned 32 e1)).fsetB (CasHopStat.calibrated p) true

/-- A valid result of a port: offset and delay as sums over k pairings. On the upstream port it keeps input 14 alive and judges the
seconds (R323). -/
def State.hopResult (s : State) (p : Nat) (off2 : Int) (sum : Int) (k : Nat) : State :=
  let (o, s1) := s.round off2 (2 * k)
  let off := o + toSigned 32 (s1.fget (CasHopCorr.corr p))
  let (d, s2) := s1.round sum (512 * k)
  let sat := max (-2147483648) (min 2147483647 off)
  let s3 := (((s2.fset (CasHopOff.off p) (ofSigned 32 sat)).fset (CasHopDly.dly p) (ofSigned 32 d)).fsetB (CasHopStat.valid p) true).bump .cas p 8 1
  let s4 := s3.setCasPort p { s3.casPort p with resultAt := some s3.ticks }
  if s4.casRole = 2 && s4.fbit CasStat.upValid && s4.fget CasStat.upPort == p then
    let s5 := s4.onlyIf (s4.fbit (RefselInStat.actFault 14)) (·.activityOk 14)
    let secs := (2 * off + tSec) / (2 * (tSec : Int))
    let s6 := s5.fsetB CasStat.secErr (secs != 0)
    if secs ≠ 0 ∧ s6.fbit CasCfg.autoSet ∧ !s6.anyAdmitted ∧ s6.cas.autoSet = none then
      let sec := s6.now / tSec + 1
      { s6 with cas := { s6.cas with autoSet := some (sec * tSec, ((sec : Int) - secs).toNat) } }
    else s6
  else s4

/-- The pairings that a port has, in CAS_HOP_STAT. -/
def State.syncPairs (s : State) (p : Nat) : State :=
  let b (o : Option (Int × Int)) (i : Nat) : Nat := if o.isSome then 2 ^ i else 0
  s.fset (CasHopStat.pairs p) (b (s.pairing p 0 1) 0 + b (s.pairing p 1 0) 1 + b (s.pairing p 0 0) 2 + b (s.pairing p 1 1) 3)

/-- TT_STAMP (R321, R322): the neighbour's difference of a multiframe that this device sent; the hop's offset follows. -/
def doTtStamp (s : State) : State :=
  match s.takeMsg 3 with
  | none => s
  | some (m, s1) =>
    let p := m.port
    let k := m.word 0 % 2
    let seq := m.word 0 / 65536
    let tx := (s1.lane (96 + 2 * p + k)).tx
    let back := (tx.seq + 65536 - 1 - seq) % 65536
    let sent := gridTime 1 (tx.grid - 1 - back)
    let x := s1.casPort p
    let r : TtRec := ⟨k, seq, m.wide 1, ((sent : Int) + m.wide 1).toNat⟩
    let s2 := (s1.setCasPort p { x with rev := r :: x.rev.filter fun e => e.lane != k }).syncPairs p
    match s2.pairings p with
    | ([some a, some b], other) =>
      let s3 := s2.hopResult p (a.1 + b.1) (a.2 + b.2) 2
      match other with
      | [some c, some d] => s3.calibrate p (a.1 + b.1) c.1 d.1
      | _ => s3
    | (_, other) =>
      let e (i : Nat) : Int := toSigned 32 (s2.fget (CasHopAsym.e p i))
      let used := other.zipIdx.filterMap fun o => o.1.map fun v => (v.1 - 2 * e o.2, v.2)
      if s2.fbit (CasHopStat.calibrated p) && !used.isEmpty then
        s2.hopResult p (used.map Prod.fst).sum (used.map Prod.snd).sum used.length
      else s2

def execTtStamp (s : State) : Out := .next (doTtStamp s)

/-- TIME_TRANSFER_TIMEOUT (R323): 500 us without a valid result on a port clear its valid bit; on the upstream port, with no upstream
port, or in another role, input 14 has an activity fault. -/
def doTimeTransferTimeout (s : State) : State :=
  let stale (p : Nat) : Bool := !s.recent (s.casPort p).resultAt 78125
  let s1 := s.forEach [0, 1] fun s p => s.onlyIf (stale p) fun s =>
    (s.setCasPort p { s.casPort p with calFrom := none, calN := 0, calSum0 := 0, calSum1 := 0 }).fsetB (CasHopStat.valid p) false
  let gone := s1.casRole != 2 || !s1.fbit CasStat.upValid || stale (s1.fget CasStat.upPort)
  if gone && !s1.fbit (RefselInStat.actFault 14) then s1.activityFault 14 else s1

def execTimeTransferTimeout (s : State) : Out := .next (doTimeTransferTimeout s)

/-! ## Epochs (R325 to R329) -/

/-- T of CAS_PROP_T. -/
def State.propWord (s : State) : Nat :=
  s.fget (CasPropT.tW 0) + s.fget (CasPropT.tW 1) * 2 ^ 32 + s.fget (CasPropT.tW 2) * 2 ^ 64

/-- PROPOSE leaves both ports. -/
def State.sendPropose (s : State) : State :=
  let w := timeWord s.cas.propT
  ({ s with cas := { s.cas with propSent := s.ticks } }).casSendBoth 5 true 0 [s.cas.propE, w % 2 ^ 32, w / 2 ^ 32 % 2 ^ 32, w / 2 ^ 64]

/-- A proposal is recorded. -/
def State.recordProposal (s : State) (e t : Nat) : State :=
  (({ s with cas := { s.cas with propE := e, propT := t, decision := none } }).fsetB CasStageCtl.pending true).fsetB CasStageCtl.armed false

/-- The operation PROPOSE of CAS_CTL (R327). -/
def State.proposeOp (s0 : State) : State :=
  let s := s0.fset CasCtl.op 2
  let e := s.fget CasPropE.epoch
  let w := s.propWord
  let t := timeOf w
  if !s.leads || s.fbit CasStat.clash || s.role == 1 then s.fset CasPropStat.result 7
  else if s.fbit CasStageCtl.pending || e != (s.fget CasEpoch.epoch + 1) % 2 ^ 32 || malformed w
      || decide (t < s.now + 20 * tMs) || decide (s.now + 60 * tSec < t) then s.fset CasPropStat.result 6
  else ((s.fset CasPropStat.result 1).recordProposal e t).sendPropose

/-- A received PROPOSE (R328). -/
def State.proposeHeard (s : State) : State :=
  match s.takeMsg 5 with
  | none => s
  | some (m, s1) =>
    let e := m.word 0
    let t := timeOf (m.word 1 + m.word 2 * 2 ^ 32 + m.word 3 * 2 ^ 64)
    if s1.casRole ≠ 2 then s1
    else if s1.fbit CasStageCtl.pending && s1.cas.propE == e && s1.cas.propT == t then s1
    else s1.recordProposal e t

/-- PROPOSE (R327, R328): the operation of CAS_CTL, or the message received on the ring. -/
def doPropose (ring : Bool) (s : State) : State := if ring then s.proposeHeard else s.proposeOp

def execPropose (ring : Bool) (s : State) : Out := .next (doPropose ring s)

/-- The commit point of the proposal under way. -/
def State.commitAt (s : State) : Nat := s.cas.propT - 5 * tMs

/-- PROPOSE_SEND (R328): every 1 ms until C. -/
def doProposeSend (s : State) : State :=
  if s.leads && s.fget CasPropStat.result == 1 && decide (s.now < s.commitAt) && decide (ms1 ≤ s.since s.cas.propSent) then s.sendPropose else s

def execProposeSend (s : State) : Out := .next (doProposeSend s)

/-- DECIDE leaves both ports. -/
def State.sendDecide (s : State) (go : Bool) : State :=
  ({ s with cas := { s.cas with decisionSent := s.ticks } }).casSendBoth 6 true 0 [s.cas.propE, if go then 1 else 0]

/-- Every numbered node without ignore reported ready at C - 2 ms or later (R328). -/
def State.allReady (s : State) : Bool :=
  (List.range 64).all fun n =>
    n == 0 || !s.fbit (CasAgrCtl.present n) || s.fbit (CasAgrCtl.ignore n)
      || ((SMap.getD s.cas.reports n []).any fun r => decide (s.commitAt ≤ r.1 * tMs + 2 * tMs) && ((r.2[3]?).getD 0).testBit 14)

/-- The manager's proposal ends without activation. -/
def State.abortOwn (s : State) (result : Nat) : State :=
  ((({ s with cas := { s.cas with decision := some false } }).fset CasPropStat.result result).fsetB CasStageCtl.pending false).fsetB
    CasStageCtl.armed false

/-- COMMIT_POINT (R328): at C the manager decides. -/
def doCommitPoint (s : State) : State :=
  if s.fget CasPropStat.result ≠ 1 || decide (s.now < s.commitAt) || s.cas.decision.isSome then s
  else if s.readyFor s.cas.propE && s.allReady then
    ((({ s with cas := { s.cas with decision := some true } }).fset CasPropStat.result 2).fsetB CasStageCtl.armed true).sendDecide true
  else (s.abortOwn 4).sendDecide false

def execCommitPoint (s : State) : Out := .next (doCommitPoint s)

/-- DECIDE_SEND (R328): every 100 us from C to T - 1 ms. -/
def doDecideSend (s : State) : State :=
  match s.cas.decision with
  | none => s
  | some go =>
    if s.leads && (s.fget CasPropStat.result == 2 || s.fget CasPropStat.result == 4) && decide (s.commitAt ≤ s.now)
        && decide (s.now + tMs ≤ s.cas.propT) && decide (15625 ≤ s.since s.cas.decisionSent) then s.sendDecide go
    else s

def execDecideSend (s : State) : Out := .next (doDecideSend s)

/-- DECIDE (R328, R329): the first decision for the pending epoch arms it or ends it. -/
def doDecide (s : State) : State :=
  match s.takeMsg 6 with
  | none => s
  | some (m, s1) =>
    let s2 := s1.bump .cas m.port 10 1
    if s2.casRole ≠ 2 || !s2.fbit CasStageCtl.pending || s2.cas.propE != m.word 0 || s2.cas.decision.isSome then s2
    else
      let go := m.word 1 % 2 == 1
      let s3 := { s2 with cas := { s2.cas with decision := some go } }
      if go then s3.fsetB CasStageCtl.armed true else (s3.fsetB CasStageCtl.pending false).fsetB CasStageCtl.aborted true

def execDecide (s : State) : Out := .next (doDecide s)

/-- EPOCH_ACTIVATE (R326, R328, R329): at T an armed device activates E; a pending one without a decision does not. -/
def doEpochActivate (s : State) : State :=
  if !s.fbit CasStageCtl.pending || decide (s.now < s.cas.propT) then s
  else if s.fbit CasStageCtl.armed then
    (s.activateEpoch s.cas.propE).onlyIf (s.casRole == 1) (·.fset CasPropStat.result 3)
  else (s.fsetB CasStageCtl.noDecision true).fsetB CasStageCtl.pending false

def execEpochActivate (s : State) : Out := .next (doEpochActivate s)

/-- EPOCH (R181, R328): a stand-alone device that is ready activates the staged epoch; on a manager, a worker or a standby the action is
missed. DEDUCED: log entry 65. -/
def doEpoch (w : Nat) (s : State) : State :=
  s.fireAction w 3 (fun s => s.casRole == 0 && s.readyFor (s.fget CasStage.epoch) && s.timingRole && s.winOwner w == 0)
    fun s _ => s.activateEpoch (s.fget CasStage.epoch)

/-- PAIR_EPOCH_FOLLOW (R329): a stand-alone standby that is ready follows its active peer at the first whole millisecond after a good
heartbeat shows the epoch. DEDUCED: log entry 65. -/
def doPairEpochFollow (s : State) : State :=
  match s.pair.lastGood with
  | none => s
  | some t =>
    let heard := s.now - s.since t * tickFifths / 5
    let e := s.fget (ProtPairHb.frame 1)
    if s.casRole = 0 ∧ s.role = 1 ∧ s.fget ProtPairStat.peerRole = 1 ∧ s.readyFor e ∧ (heard / tMs + 1) * tMs ≤ s.now then
      s.activateEpoch e
    else s

def execPairEpochFollow (s : State) : Out := .next (doPairEpochFollow s)

/-- CANCEL (R328): before C the manager's proposal is aborted at once; afterwards it is refused. DEDUCED: log entry 63. -/
def doCancel (s : State) : State :=
  let s0 := s.fset CasCtl.op 3
  if s0.leads && s0.fget CasPropStat.result == 1 && decide (s0.now < s0.commitAt) then (s0.sendDecide false).abortOwn 5 else s0

def execCancel (s : State) : Out := .next (doCancel s)

/-- ADOPT (R329): a worker takes the manager's epoch of the last TIME_DIST at once. -/
def doAdopt (s : State) : State :=
  let s0 := s.fset CasCtl.op 4
  match s0.cas.mgrEpoch with
  | some e => if s0.casRole = 2 ∧ s0.fget CasEpoch.epoch ≠ e then s0.activateEpoch e else s0
  | none => s0

def execAdopt (s : State) : Out := .next (doAdopt s)

/-! ## Reports and agreement (R330, R331) -/

/-- The words of a report for boundary b in ms. -/
def State.reportWords (s : State) (b : Nat) : List Nat :=
  let bit (c : Bool) (i : Nat) : Nat := if c then 2 ^ i else 0
  [s.fget CasEpoch.epoch, s.fget IntegDigVal.val, s.fget IntegDigRef.ref,
    b % 1024 + s.fget RefselStat.state * 2 ^ 10 + bit (s.fbit IntegDigStat.digest) 13
      + bit (s.fbit CasStageCtl.pending && s.readyFor s.cas.propE) 14 + s.fget CasStat.upPort * 2 ^ 15
      + s.fget (CasHopStat.hops (s.fget CasStat.upPort)) * 2 ^ 16 + s.protByte % 4 * 2 ^ 22]

/-- A report is held, the newest four of each node. -/
def State.holdReport (s : State) (node b : Nat) (ws : List Nat) : State :=
  { s with cas := { s.cas with reports := SMap.putD s.cas.reports node [] (((b, ws) :: SMap.getD s.cas.reports node []).take 4) } }

/-- REPORT_SEND (R330): at each whole millisecond a numbered worker sends its sample by its upstream port; the leading manager keeps its
own. -/
def doReportSend (s : State) : State :=
  let b := s.now / tMs
  if b ≤ s.cas.reportedMs then s
  else
    let s1 := { s with cas := { s.cas with reportedMs := b } }
    let ws := s1.reportWords b
    let p := s1.fget CasStat.upPort
    if s1.casRole = 1 && s1.fbit CasStat.leading then s1.holdReport 0 b ws
    else if s1.casRole = 2 && s1.fbit CasStat.numbered && s1.fbit CasStat.upValid && s1.coreRuns (25 + p) then s1.casSend p 4 false 0 ws
    else s1

def execReportSend (s : State) : Out := .next (doReportSend s)

/-- REPORT (R330, R335): the leading manager takes a worker's report. -/
def doReport (s : State) : State :=
  match s.takeMsg 4 with
  | none => s
  | some (m, s1) =>
    if !s1.fbit CasStat.leading then s1
    else
      let cur := s1.now / tMs
      let b := cur - (cur + 1024 - m.word 3 % 1024) % 1024
      (s1.forEach (List.range 4) fun s i => s.fset (CasAgrWord.word m.src i) (m.word i)).holdReport m.src b m.words

def execReport (s : State) : Out := .next (doReport s)

/-- The causes for which a node disagrees at boundary b: 1 silent, 2 epoch, 4 digest, 8 ref. -/
def State.disagreeCauses (s : State) (node b : Nat) : Nat :=
  let rs := SMap.getD s.cas.reports node []
  let mine := ((SMap.getD s.cas.reports 0 []).find? fun r => r.1 == b).map fun r => (r.2[0]?).getD 0
  let epoch := mine.getD (s.fget CasEpoch.epoch)
  if !rs.any fun r => decide (r.1 ≤ b ∧ b ≤ r.1 + 2) then 1
  else
    let ws := (((rs.find? fun r => r.1 == b).getD (rs.headD (0, [])))).2
    let w (i : Nat) : Nat := (ws[i]?).getD 0
    let exp := s.fget (CasAgrExp.exp node)
    (if w 0 ≠ epoch then 2 else 0) + (if (w 3).testBit 13 then 4 else 0) + (if exp ≠ 0 ∧ exp ≠ w 2 then 8 else 0)

/-- One node is judged: it enters at its first disagreement and leaves after two agreements in a row. DEDUCED: log entry 64. -/
def State.judgeNode (s : State) (b node : Nat) : State :=
  let c := s.disagreeCauses node b
  let was := s.fbit (CasAgrCtl.disagree node)
  let agreed := if c = 0 then SMap.getD s.cas.agreed node 0 + 1 else 0
  let now := if c ≠ 0 then true else was && decide (agreed < 2)
  let s1 := { s with cas := { s.cas with agreed := SMap.putD s.cas.agreed node 0 agreed } }
  let s2 := (s1.fset (CasAgrCtl.cause node) c).fsetB (CasAgrCtl.disagree node) now
  let i := node / 32
  let s3 := s2.fset (CasAgrDis.nodes i) (putBit (s2.fget (CasAgrDis.nodes i)) (node % 32) now)
  let s4 := s3.fset (CasAgrSil.nodes i) (putBit (s3.fget (CasAgrSil.nodes i)) (node % 32) (c % 2 == 1))
  if now = was then s4 else s4.raise 0 9 node ((if now then 1 else 0) + c * 16) 0

/-- AGREEMENT_JUDGE (R331): 500 us after each boundary the leading manager judges every numbered node without ignore. -/
def doAgreementJudge (s : State) : State :=
  let b := (s.now - 500 * tUs) / tMs
  if !s.fbit CasStat.leading || decide (b ≤ s.cas.judgedMs) then s
  else
    (({ s with cas := { s.cas with judgedMs := b } }).forEach (List.range 64) fun s n =>
      if s.fbit (CasAgrCtl.present n) && !s.fbit (CasAgrCtl.ignore n) then s.judgeNode b n else s).alarm

def execAgreementJudge (s : State) : Out := .next (doAgreementJudge s)

end Sys2Proof.Machine
end

