-- ==== Sys2Proof/Machine/Calendar.lean ====
section
/-! DEFINITION. Calendar commits (R153 to R155, R309, R312) and the written receive bank (R161). -/

namespace Sys2Proof.Machine

/-- What a commit check found: result and slot; 8,191 names no slot. -/
abbrev CalVerdict := Nat × Nat

def noSlot : Nat := 8191

/-- A slot that R312 reserves for control cells. -/
def cellSlot (n x : Nat) : Bool := decide (96 ≤ n) && (x % 80 == 20 || x % 80 == 60)

/-- The read of a bank in address order: the words, or the slot of the first poisoned one. -/
def State.readBank (s : State) (n d b : Nat) : Nat → Nat → List Nat → (Nat ⊕ List Nat) × State
  | 0, _, ws => (.inr ws.reverse, s)
  | k + 1, x, ws =>
    match s.treadN (s.laneOwner n) (calBase n d b + 4 * x) 4 n 5 with
    | (none, s1) => (.inl x, s1)
    | (some w, s1) => s1.readBank n d b k (x + 1) (w :: ws)

/-- The head slots of a bank. -/
def State.headsOf (s : State) (n d b : Nat) : List Nat :=
  (s.bankTribs n d b).filterMap fun t => headSlot? (s.slotsOf n d b t)

/-- Results 5 and 3 of the entries in ascending slot order. -/
def State.checkEntries (s : State) (n : Nat) (heads : List Nat) (ws : List Nat) : Option CalVerdict :=
  ws.zipIdx.findSome? fun e =>
    let c := calEntry e.1
    let x := e.2
    if c.reserved || (c.valid && ((s.calTrib n c).isNone || cellSlot n x)) then some (5, x)
    else if heads.contains x && ((x % 80 != 0 && heads.contains (x - 1))
        || (decide (96 ≤ n) && (x % 80 == 19 || x % 80 == 21 || x % 80 == 59 || x % 80 == 61))) then some (3, x)
    else none

/-- Another lane has a committed receive bank that names tributary t. -/
def State.otherRxLanes (s : State) (n t : Nat) : Nat :=
  ((List.range 100).filter fun m => m != n && (List.range 2).any fun k => s.calCommitted m 0 k && (s.bankTribs m 0 k).contains t).length

/-- T_min of an admission, in 2^-16 ns, were lane n its receive lane (R189). -/
def State.tMinOn (s : State) (n : Nat) (a : Adm) : Nat :=
  if a.deep.isSome then a.tMin
  else tenths ((a.dests.map fun d => s.laneIngress n + 2 * s.coreStep + s.egressSteps d.dest).foldl max 0)

/-- Result 7 for a tributary: a bank that its admissions do not bear. -/
def State.bankHurts (s : State) (n d b t : Nat) : Bool :=
  (s.trib t).adms.any fun a =>
    if d = 1 then
      a.dests.any fun x => decide (x.dest = laneDest n) &&
        (!s.bankFits n b t || decide (x.eAdv < (s.bankTerms n b t).1) || decide (x.eLag < (s.bankTerms n b t).2))
    else (s.copyOf t n).isSome && decide (a.tMin < s.tMinOn n a)

/-- Results 4, 6 and 7 of the tributaries in ascending number. -/
def State.checkTribs (s : State) (n d b : Nat) : Option CalVerdict :=
  let named := s.bankTribs n d b
  let admitted (t : Nat) : Bool := d == 1 && (s.trib t).adms.any fun a => a.dests.any fun x => decide (x.dest = laneDest n)
  let ts := (List.range 4096).filter fun t => named.contains t || admitted t
  ts.findSome? fun t =>
    let slots := s.slotsOf n d b t
    let lowest := slots.headD noSlot
    let bad4 := named.contains t && (match headSlot? slots with | none => true | some h => slots.getLast? == some h)
    let others := s.otherRxLanes n t
    let bad6 := d == 0 && (if s.fbit (TribCfg.merge t) then decide (2 ≤ others) else decide (1 ≤ others))
    if bad4 then some (4, lowest) else if bad6 then some (6, lowest) else if s.bankHurts n d b t then some (7, lowest) else none

/-- The verdict of a check that runs now, in the order of R155. -/
def State.checkBank (s : State) (n d b : Nat) : CalVerdict × State :=
  if s.calBusy n d b then ((2, noSlot), s)
  else
    match s.readBank n d b 5120 0 [] with
    | (.inl x, s1) => ((8, x), s1)
    | (.inr ws, s1) =>
      if crc32c (ws.flatMap (leBytes 4)) != s1.fget (LaneCalCrc.crc n (2 * d + b)) then ((1, noSlot), s1)
      else
        match s1.checkEntries n (s1.headsOf n d b) ws with
        | some v => (v, s1)
        | none =>
          match s1.checkTribs n d b with
          | some v => (v, s1)
          | none => ((0, noSlot), s1)

/-- A check ends with its result; a pass sets the committed bit. -/
def State.calResult (s : State) (n d b : Nat) (v : CalVerdict) : State :=
  let k := 2 * d + b
  let s1 := (s.fset (LaneCalStat.checking n) (putBit (s.fget (LaneCalStat.checking n)) k false)).fset (LaneCalStat.result n) v.1
  (s1.fset (LaneCalStat.slot n) v.2).onlyIf (v.1 == 0) fun s =>
    s.fset (LaneCalStat.committed n) (putBit (s.fget (LaneCalStat.committed n)) k true)

/-- A write of LANE_CAL_CRC starts a check; a bank in use is refused with result 2, any other loses its committed bit at once (R154). -/
def doCalCommit (m n d b : Nat) (crc : Word) (s : State) : State :=
  let k := 2 * d + b
  s.writeThen m (LaneCalCrc.reg n k) crc.toNat fun s =>
    if s.calBusy n d b then s.calResult n d b (2, noSlot)
    else
      (s.fset (LaneCalStat.committed n) (putBit (s.fget (LaneCalStat.committed n)) k false)).fset (LaneCalStat.checking n)
        (putBit (s.fget (LaneCalStat.checking n)) k true)

def execCalCommit (m : Master) (lane : Lane) (transmit bank : Bool) (crc : Word) (s : State) : Out :=
  .next (doCalCommit m lane transmit.toNat bank.toNat crc s)

/-- CAL_CHECK_DONE (R155): the check under way of a bank ends. -/
def doCalCheckDone (n d b : Nat) (s : State) : State :=
  if (s.fget (LaneCalStat.checking n)).testBit (2 * d + b) then
    let (v, s1) := s.checkBank n d b
    s1.calResult n d b v
  else s

def execCalCheckDone (lane : Lane) (transmit bank : Bool) (s : State) : Out :=
  .next (doCalCheckDone lane transmit.toNat bank.toNat s)

/-- A write into a bank clears its committed bit and aborts a check in progress with result 9 and the slot first reached (R154,
R155). -/
def State.calTouched (s : State) (n d b slot : Nat) : State :=
  let k := 2 * d + b
  let s1 := s.fset (LaneCalStat.committed n) (putBit (s.fget (LaneCalStat.committed n)) k false)
  if (s.fget (LaneCalStat.checking n)).testBit k then s1.calResult n d b (9, slot) else s1

/-- RX_BANK_SELECT (R161): a write of rx_bank; with follow = 0 the bank is taken at the next multiframe boundary. -/
def doRxBankSelect (m n b : Nat) (s : State) : State :=
  let w := (s.rget (LaneCalRxCtl.reg n)).toNat
  s.writeThen m (LaneCalRxCtl.reg n) (w % 2 + 2 * b) fun s =>
    if s.fbit (LaneCalRxCtl.follow n) then s
    else
      let l := s.lane n
      s.setLane n { l with rx := { l.rx with bankWrite := some b } }

def execRxBankSelect (m : Master) (lane : Lane) (bank : Bool) (s : State) : Out := .next (doRxBankSelect m lane bank.toNat s)

end Sys2Proof.Machine
end

