-- ==== Sys2Proof/Machine/Memory.lean ====
section
/-! DEFINITION. Memory integrity (R423 to R446): the scrubber's laps, failed dies and lost stacks, MEM event windows and the end of
the poison fill. -/

namespace Sys2Proof.Machine

/-! ## Scrubbing (R440, R441) -/

/-- Ticks in whole us, rounded down. -/
def usOfTicks (t : Nat) : Nat := t * 64 / 10000

/-- The class T memories in address order: the domain each lies in, its first byte and its length. Templates lie in no domain that
a unit switches. -/
def State.scrubSpans : List (Nat × Nat × Nat) :=
  (List.range 48).map (fun n => (77 + n / 4, calBase n 0 0, 0x14000))
    ++ (List.range 32).map (fun c => (117 + c, sepBase c, 0xC000))
    ++ (List.range 16).map (fun c => (101 + c, 0x600000 + c * 0x2000, 0x2000))
    ++ [(1, 0x700000, 0x80000)]
    ++ (List.range 48).map (fun n => (77 + (48 + n) / 4, calBase (48 + n) 0 0, 0x14000))
    ++ (List.range 4).map (fun n => (11 + n / 2, calBase (96 + n) 0 0, 0x14000))

/-- The first class T byte at or after an address in a memory that is powered. -/
def State.scrubByte (s : State) (a : Nat) : Option Nat :=
  ((State.scrubSpans.filter fun x => s.domOn x.1 && decide (a < x.2.1 + x.2.2)).head?).map fun x => max a x.2.1

/-- The owner told of a class T byte: the owner of the lane, cluster or tributary, and partition 0 of a core's memory. -/
def State.tableOwner (s : State) (a : Nat) : Nat :=
  match tblRegion a with
  | some (.cal n _ _ _) => s.laneOwner n
  | some (.coef o) => s.clusterOwner (o / 0x2000)
  | some (.tmpl t _) => s.tribOwner t
  | _ => 0

/-- Units of a class: class B blocks of the release buffer and then of staging, class D codewords of both stacks. -/
def scrubUnits (cls : Nat) : Nat := if cls = 1 then 12288 * 2048 + 1048576 else 2 * 2 ^ 26

/-- The location of class B unit n (R445). -/
def blockOfUnit (n : Nat) : Nat := if n < 12288 * 2048 then n / 2048 * 2 ^ 16 + n % 2048 else 2 ^ 31 + (n - 12288 * 2048)

/-- A correction is written back, or discarded and counted where a newer write has reached the unit (R424). -/
def State.writeBack (s : State) (raced : Bool) (back : State → State) : State := if raced then s.bump .mem 0 9 1 else back s

/-- The scrubber reads a class T byte that has taken an upset of the given code bits. An unwritten byte is no error. DESIGN CHOICE: log entry 102. -/
def State.scrubTable (s : State) (a upset : Nat) (raced : Bool) : State :=
  match s.tstored a with
  | none => s
  | some b =>
    let m := SMap.getD s.tflip a 0 ^^^ (upset % 2 ^ 13)
    let s1 := { s with tflip := SMap.putD s.tflip a 0 m }
    if popcount m = 1 then (s1.bump .mem 0 0 1).writeBack raced fun s => s.tstore a b
    else
      let (_, found, s2) := s1.tread a
      s2.onlyIf found fun s => s.foundUncorrectable (s.tableOwner a) 0 0 0 (BitVec.ofNat 32 a) 0 0

/-- Bits set in the low n bits of a number. -/
def onesIn (n x : Nat) : Nat := ((List.range n).filter fun i => x.testBit i).length

/-- The held grain that lies in a class B block, with its tributary. DESIGN CHOICE: log entry 104. -/
def State.grainAt (s : State) (loc : Nat) : Option (Nat × BufGrain) :=
  (s.tribs.filterMap fun e => (e.2.held.find? fun g => !g.inHbm && (s.blockLoc e.1 g).toNat == loc).map fun g => (e.1, g)).head?

/-- The scrubber reads a class B block that has taken an upset of n bits. A block that holds no grain counts for partition 0.
DESIGN CHOICE: log entry 102. DESIGN CHOICE: log entry 104. -/
def State.scrubBlock (s : State) (loc n : Nat) (raced : Bool) : State :=
  match s.grainAt loc with
  | some (t, g) =>
    let g1 := { g with errs := g.errs + n }
    let put (g2 : BufGrain) (s : State) : State :=
      let r := s.trib t
      s.setTrib t { r with held := r.held.map fun h => if h = g then g2 else h }
    if g1.errs = 1 && !g.poison then ((put g1 s).bump .mem 0 1 1).writeBack raced fun s =>
      let r := s.trib t
      s.setTrib t { r with held := r.held.map fun h => if h = g1 then { g with errs := 0 } else h }
    else let (g2, s1) := s.readGrain t g1 0 0; put g2 s1
  | none =>
    let unc (s : State) : State := s.foundUncorrectable 0 1 0 0 (BitVec.ofNat 32 loc) 0 0
    if n = 0 then s
    else if n = 1 then (s.bump .mem 0 1 1).writeBack raced id
    else if n = 2 then unc s
    else
      let (u, s1) := s.freeB
      let (c, s2) := s1.freeB
      if u then unc s2 else s2.onlyIf c fun s => s.bump .mem 0 1 1

/-- The scrubber takes a position in the handshake of a release-buffer bank; staging lies in no bank. -/
def State.scrubPosition (s : State) (loc : Nat) : State := if loc < 2 ^ 31 then s.takePosition loc else s

/-- The deep tributary whose held grains lie in a codeword of a stack. -/
def State.codewordTrib (s : State) (st cw : Nat) : Option Nat :=
  (s.tribs.filter fun e =>
    (((e.2.adm.bind Adm.deep).orElse fun _ => e.2.oldStack) == some st) && e.2.held.any fun g => g.inHbm && g.codeword == cw).head?.map
      Prod.fst

/-- The scrubber reads a class D codeword of a stack with dies in error and dies flagged by the controller; with two dies in error and none
flagged a wrong acceptance is open (R431). DEDUCED: log entry 107. DESIGN CHOICE: log entry 102. -/
def State.scrubCodeword (s : State) (st cw dies flags : Nat) (raced : Bool) : State :=
  let owner := s.codewordTrib st cw
  let dead := s.deadDies st
  match owner with
  | some t =>
    let r := s.trib t
    let s1 := if dies = 0 then s
      else s.setTrib t { r with hbmErr := SMap.ins r.hbmErr cw (SMap.getD r.hbmErr cw 0 ||| dies) }
    if raced then
      let bad := (List.range 12).filter fun i => (SMap.getD (s1.trib t).hbmErr cw 0 ||| flags).testBit i
      match bad with
      | [p] => if dead = 0 then ((s1.bump .mem 0 2 1).countDie st p).bump .mem 0 9 1 else (s1.decodeCw t st cw flags 0 0).2
      | _ => (s1.decodeCw t st cw flags 0 0).2
    else (s1.decodeCw t st cw flags 0 0).2
  | none =>
    let bad := (List.range 12).filter fun i => (dies ||| flags).testBit i && !dead.testBit i
    match bad with
    | [] => s.onlyIf (dead != 0) fun s => s.bump .mem 0 15 1
    | [p] => if dead = 0 then ((s.bump .mem 0 2 1).countDie st p).writeBack raced id
             else s.foundUncorrectable 0 2 st p (BitVec.ofNat 32 cw) 0 0
    | _ =>
      let unc (s : State) : State := s.foundUncorrectable 0 2 st 15 (BitVec.ofNat 32 cw) 0 0
      if dead ≠ 0 ∨ bad.any (fun i => flags.testBit i) then unc s
      else
        let (wrong, s1) := s.freeB
        if wrong then
          let (p, s2) := s1.free 8
          let others := (List.range 12).filter fun i => !bad.contains i
          ((s2.bump .mem 0 2 1).countDie st ((others[p % max 1 others.length]?).getD 0)).writeBack raced id
        else unc s1

/-- A lap of a class is complete: its duration is reported and counted, and the next lap starts. -/
def State.scrubLap (s : State) (cls : Nat) : State :=
  let us := usOfTicks (s.ticks - (s.scrub cls).startedAt)
  ((s.fset (MemScrubLap.lapUs cls) (min (2 ^ 32 - 1) us)).bump .mem 0 (12 + cls) 1).scrubRestart cls

/-- SCRUB_READ (R440): the scrubber reads the next unit of a class, corrects or poisons it (R424, R425), and ends the lap after the
last. upset: the bits of the unit that have gone wrong by themselves (class T bits 12 to 0, class B bits 71 to 0; class D bits 11 to
0 the dies in error, 23 to 12 the dies flagged). A class B read waits while a request of higher priority waits for its bank (R33). raced: another write reaches the unit before the write-back. -/
def doScrubRead (cls upset : Nat) (raced : Bool) (s : State) : State :=
  if !s.domOn 5 then s
  else
    let x := s.scrub cls
    let step (n : Nat) (s : State) : State := s.setScrub cls { s.scrub cls with next := n }
    if cls = 0 then
      match s.scrubByte x.next with
      | none => s.scrubLap 0
      | some a =>
        let s1 := step (a + 1) (s.scrubTable a upset raced)
        if (s1.scrubByte (a + 1)).isNone then s1.scrubLap 0 else s1
    else if cls = 1 && decide (x.next < 12288 * 2048) && s.bankBusy 6 (blockOfUnit x.next) then s
    else
      let s1 := if cls = 1 then (s.scrubPosition (blockOfUnit x.next)).scrubBlock (blockOfUnit x.next) (onesIn 72 upset) raced
        else if s.domOn (45 + x.next / 2 ^ 26) then
          s.scrubCodeword (x.next / 2 ^ 26) (x.next % 2 ^ 26) (upset % 2 ^ 12) (upset / 2 ^ 12 % 2 ^ 12) raced
        else s
      if x.next + 1 < scrubUnits cls then step (x.next + 1) s1 else s1.scrubLap cls

def execScrubRead (cls : Fin 3) (upset : BitVec 72) (raced : Bool) (s : State) : Out := .next (doScrubRead cls upset.toNat raced s)

/-- SCRUB_LAP_OVER (R441): a lap runs over its target; over is set for its class and a MEM happening 6 raised, once a lap. -/
def doScrubLapOver (cls : Nat) (s : State) : State :=
  let x := s.scrub cls
  if x.late || decide (usOfTicks (s.ticks - x.startedAt) ≤ x.targetUs) then s
  else ((s.setScrub cls { x with late := true }).stick MemScrubStat.overF (2 ^ cls)).memHappening 0 cls 6 0
    (BitVec.ofNat 32 (cls * 2 ^ 29)) 0 0

def execScrubLapOver (cls : Fin 3) (s : State) : Out := .next (doScrubLapOver cls s)

/-- POISON_FILL_DONE (R427): the fill of the class T memory of a domain is complete. Every byte has read as poisoned from the
switch-on on, and an access waits for the fill. DEDUCED: log entry 109. -/
def doPoisonFillDone (d : Nat) (s : State) : State := { s with mem := { s.mem with filling := s.mem.filling.filter (· != d) } }

def execPoisonFillDone (d : Fin 149) (s : State) : Out := .next (doPoisonFillDone d s)

/-! ## Failed dies and lost stacks (R432, R433) -/

/-- DIE_THRESHOLD_INTERVAL (R432): a whole second of device time ends; a die that has reached die_thr is marked and the counts start
again. -/
def doDieThresholdInterval (s : State) : State :=
  let sec := s.now / tSec
  if sec = s.mem.dieInterval then s
  else
    let s1 := s.forEach (List.range 24) fun s k => s.onlyIf (SMap.find s.mem.dieCnt k).isSome fun s => s.dieReached (k / 12) (k % 12)
    { s1 with mem := { s1.mem with dieCnt := [], dieInterval := sec } }

def execDieThresholdInterval (s : State) : Out := .next (doDieThresholdInterval s)

/-- HBM_DIE_FAIL_REPORT (R432): the controller reports a die failed. A stack has at most one die marked. DEDUCED: log entry 106. -/
def execHbmDieFailReport (st : Stack) (die : Die) (s : State) : Out := .next (s.failDie st die)

/-- STACK_LOST (R433). -/
def execStackLost (st : Stack) (s : State) : Out := .next (s.loseStack st)

/-- The stack holds an allocation. -/
def State.stackUsed (s : State) (st : Nat) : Bool := s.tribs.any fun e => decide (0 < e.2.granulesHeld st)

/-- MEM_HBM_CTL takes its value, and the operation's result is reported. -/
def State.hbmOp (s : State) (st die op : Nat) (ok : Bool) : State :=
  (((s.fset MemHbmCtl.stack st).fset MemHbmCtl.die die).fset MemHbmCtl.op op).fset MemHbmStat.res (if ok then 1 else 2)

/-- MARK_DIE (R445): refused where a die of the stack is marked. -/
def doMarkDie (st die : Nat) (s : State) : State :=
  let ok := decide (s.deadDies st = 0)
  (s.hbmOp st die 1 ok).onlyIf ok fun s => s.failDie st die

def execMarkDie (st : Stack) (die : Die) (s : State) : Out := .next (doMarkDie st die s)

/-- CLEAR_DIES (R432): refused while the stack holds an allocation. DEDUCED: log entry 106. -/
def doClearDies (st : Nat) (die : Nat) (s : State) : State :=
  let ok := !s.stackUsed st
  (s.hbmOp st die 2 ok).onlyIf ok fun s => (s.fset (if st = 0 then MemHbmStat.dies0 else MemHbmStat.dies1) 0).alarm

def execClearDies (st : Stack) (die : Die) (s : State) : Out := .next (doClearDies st die s)

/-- RESTORE (R433): a lost stack returns to service empty once its domains have been off and on since the loss. DEDUCED: log entry 106. -/
def doRestore (st : Nat) (die : Nat) (s : State) : State :=
  let cycled := (if st = 0 then s.mem.cycled0 else s.mem.cycled1) == 7
  let ok := s.stackLost st && cycled
  (s.hbmOp st die 3 ok).onlyIf ok fun s =>
    ((s.fsetB (if st = 0 then MemHbmStat.lost0 else MemHbmStat.lost1) false).stackHappening st 15 5).alarm

def execRestore (st : Stack) (die : Die) (s : State) : Out := .next (doRestore st die s)

/-! ## Events (R444) -/

/-- MEM_EVENT_WINDOW_END (R444): a window of 1 ms of one partition, class and happening ends with one MEM event. -/
def doMemEventWindowEnd (p cls happening : Nat) (s : State) : State :=
  let k := memWinKey p cls happening
  match SMap.find s.mem.wins k with
  | none => s
  | some w =>
    if s.now < w.start + tMs then s
    else
      { s with mem := { s.mem with wins := SMap.del s.mem.wins k } }.raiseAt p 0x0D cls
        (happening + min 4095 w.count * 16 + w.unit * 65536) (w.loc1.toNat + w.loc0.toNat * 2 ^ 32 + w.kind * 2 ^ 64) w.start

def execMemEventWindowEnd (p : Part) (cls : Fin 3) (happening : Fin 16) (s : State) : Out :=
  .next (doMemEventWindowEnd p cls happening s)

end Sys2Proof.Machine
end

