-- ==== Sys2Proof/Machine/SlicerOps.lean ====
section
/-! DEFINITION. The arithmetic of a band slicer (R209 to R227): positions, NCO and mixer, halfband stages, FIR, reach, gain and
requantisation. -/

namespace Sys2Proof.Machine

/-! ## Numbers -/

/-- num / den rounded to nearest; the direction of a tie is open. DESIGN CHOICE: log entry 14. -/
def roundNear (num : Int) (den : Nat) : Int :=
  let d : Int := den
  let q := num / d
  let r := num % d
  if 2 * r < d then q else if d < 2 * r then q + 1 else if Config.tieUp num then q + 1 else q

/-- num / den rounded to nearest with ties away from zero. -/
def roundAway (num : Int) (den : Nat) : Int :=
  let m := ((2 * num.natAbs + den) / (2 * den) : Nat)
  if num < 0 then -(m : Int) else m

/-- A value kept to 24 bits (R209). DESIGN CHOICE: log entry 12. DESIGN CHOICE: log entry 13. -/
def keep24 (x : Int) : Int := if -8388608 ≤ x ∧ x < 8388608 then x else Config.slcOverflow x

/-! ## The sine and cosine tables (R216) -/

/-- pi in units of 2^-64. -/
def piFix : Nat := 57952155664616982739

/-- A Taylor sum in units of 2^-64 from its first term, x squared and the number of terms; n is the factorial's next step. -/
def taylor (x2 : Nat) : Nat → Nat → Int → Int → Int
  | 0, _, _, acc => acc
  | k + 1, n, term, acc =>
    let t := -(term * x2 / 2 ^ 64) / (n * (n + 1) : Nat)
    taylor x2 k (n + 2) t (acc + t)

/-- Sine and cosine of r / 2^18 quarter turns, in units of 2^-64. -/
def sinQuarter (r : Nat) : Int :=
  let x := piFix * r / 2 ^ 19
  taylor (x * x / 2 ^ 64) 14 2 x x

def cosQuarter (r : Nat) : Int :=
  let x := piFix * r / 2 ^ 19
  taylor (x * x / 2 ^ 64) 14 1 (2 ^ 64) (2 ^ 64)

/-- Sine of a / 2^20 turns, in units of 2^-64. -/
def sinTurn (a : Nat) : Int :=
  let r := a % 2 ^ 18
  match a / 2 ^ 18 % 4 with
  | 0 => sinQuarter r
  | 1 => cosQuarter r
  | 2 => -sinQuarter r
  | _ => -cosQuarter r

/-- An 18-bit table value of an exact value: one of the two nearest multiples of 2^-17, no more than the largest 18-bit word.
DESIGN CHOICE: log entry 15. -/
def tableValue (key : Nat) (x : Int) : Int :=
  let f := x / 2 ^ 47
  min 131071 (if x % 2 ^ 47 = 0 then f else if Config.tableUp key then f + 1 else f)

/-- The sine and cosine table entries at an address. DESIGN CHOICE: log entry 15. -/
def sinTable (a : Nat) : Int := tableValue (2 * a) (sinTurn a)
def cosTable (a : Nat) : Int := tableValue (2 * a + 1) (sinTurn (a + 2 ^ 18))

/-- The mixer (R216): (i + jq) e^(-j 2 pi p / 2^48), from codes to the 24-bit format. DESIGN CHOICE: log entry 93. -/
def mix (i q : Int) (p : Nat) : Int × Int :=
  let a := p / 2 ^ 28
  let c := cosTable a
  let n := sinTable a
  let f : Int := 2 ^ Config.slcFraction
  (keep24 (roundNear ((i * c + q * n) * f) 131072), keep24 (roundNear ((q * c - i * n) * f) 131072))

/-! ## Filters (R219, R220) -/

/-- The halfband coefficients, in 2^-17. -/
def halfTaps : List Int := [2385, 0, -10315, 0, 40698, 65536, 40698, 0, -10315, 0, 2385]

/-- A filter over a delay line, newest first. DESIGN CHOICE: log entry 93. -/
def firSum (taps : List Int) (xs : List (Int × Int)) : Int × Int :=
  let s := (taps.zip xs).foldl (fun (a : Int × Int) e => (a.1 + e.1 * e.2.1, a.2 + e.1 * e.2.2)) (0, 0)
  (keep24 (roundNear s.1 131072), keep24 (roundNear s.2 131072))

/-- A sample at position n passes halfband stages from number j on: the delay lines after it, and what leaves the last stage, if
anything does. -/
def halfChain (n : Int) (x : Int × Int) : Nat → List (List (Int × Int)) → List (List (Int × Int)) × Option (Int × Int)
  | _, [] => ([], some x)
  | j, d :: ds =>
    let d' := (x :: d).take 11
    if (n + 1) % (2 ^ j : Int) = 0 then
      let (ds', o) := halfChain n (firSum halfTaps d') (j + 1) ds
      (d' :: ds', o)
    else (d' :: ds, none)

/-- The reach of an output in positions, W_k (R225). -/
def reachW (k : Nat) : Int := 75 * 2 ^ k - 11

/-! ## Rates -/

/-- The number of bundle members of an engine's input, 1 for a single tributary (R212). -/
def State.slcM (s : State) (e : Nat) : Nat := max 1 (s.slcMembers e).length

/-- T_in in 2^-32 ns (R212). -/
def State.slcTin (s : State) (e : Nat) : Nat :=
  match s.slcInput e with
  | some t => s.period t / s.slcM e
  | none => 0

def State.slcK (s : State) (e : Nat) : Nat := s.fget (SlcCfg.k e)

/-- The output tributary of an engine, by device number. -/
def State.slcOutTrib (s : State) (e : Nat) : Option Nat := s.tribDevice (s.clusterOwner (e / 16)) (s.fget (SlcOut.outTrib e))

/-- The SLC_ANCHOR word (R214). DEDUCED: log entry 96. -/
def State.slcAnchorWord (s : State) (e : Nat) : Nat :=
  s.fget (SlcAnchor.anchor e 0) + s.fget (SlcAnchor.anchor e 1) * 2 ^ 32 + s.fget (SlcAnchor.anchor e 2) * 2 ^ 64

/-- The instant of a position from an anchor, in 2^-32 ns. DESIGN CHOICE: log entry 20. -/
def State.slcInstant (s : State) (e anchor : Nat) (pos : Int) : Int := anchor * 65536 + pos * s.slcTin e

/-- The output instant of position e_m, in 2^-16 ns (R222), rounded down or up. DESIGN CHOICE: log entry 20. DESIGN CHOICE: log entry 6. -/
def State.slcOutInstant (s : State) (e anchor : Nat) (pos : Int) : Nat :=
  let adj := toSigned 48 (s.fget (SlcAdjLo.adjLo e) + s.fget (SlcAdjHi.adjHi e) * 2 ^ 32)
  let twice := 2 * s.slcInstant e anchor pos - (73 * 2 ^ s.slcK e - 10) * s.slcTin e
  (twice / 131072 + (if twice % 131072 ≠ 0 ∧ Config.instantUp twice then 1 else 0) + adj).toNat

/-! ## Gain and requantisation (R221) -/

/-- Threshold ti. -/
def State.slcTh (s : State) (e i : Nat) : Nat :=
  match i with
  | 0 => s.fget (SlcQth0.t0 e)
  | 1 => s.fget (SlcQth1.t1 e)
  | 2 => s.fget (SlcQth1.t2 e)
  | 3 => s.fget (SlcQth2.t3 e)
  | 4 => s.fget (SlcQth2.t4 e)
  | 5 => s.fget (SlcQth3.t5 e)
  | 6 => s.fget (SlcQth3.t6 e)
  | _ => s.fget (SlcQth4.t7 e)

/-- Gain and clamp: y and whether it was clamped. -/
def State.slcGain (s : State) (e : Nat) (x : Int) : Int × Bool :=
  let y := roundAway (x * 2 ^ s.fget (SlcGain.coarse e) * s.fget (SlcGain.fine e)) (2 ^ (15 + Config.slcFraction))
  if 8191 < y then (8191, true) else if y < -8191 then (-8191, true) else (y, false)

/-- The output code of y in a layout. DEDUCED: log entry 100. -/
def State.slcCode (s : State) (e fmt : Nat) (y : Int) : Int :=
  match fmt % 8 with
  | 0 => y
  | 1 => y
  | 2 => max (-127) (min 127 (roundAway y 64))
  | 3 =>
    let n := ((List.range 7).filter fun i => decide (s.slcTh e (i + 1) ≤ y.natAbs)).length
    if y < 0 then -(n : Int) else n
  | _ => if (s.slcTh e 0 : Int) ≤ y then 1 else if y ≤ -(s.slcTh e 0 : Int) then -1 else 0

/-! ## Loads (R234) -/

/-- The enabled engines of a cluster. -/
def State.clusterEngines (s : State) (c : Nat) : List Nat := ((List.range 16).map (16 * c + ·)).filter fun e => s.fbit (SlcCfg.en e)

/-- Input and output load of a cluster with the given engines, in bit/s. -/
def State.clusterLoads (s : State) (es : List Nat) : Nat × Nat :=
  let ins := ((es.map s.slcMembers).flatten).eraseDups
  let outs := es.filterMap s.slcOutTrib
  ((ins.map s.grainRate).sum, (outs.map s.grainRate).sum)

/-- SLC_CLU_LOAD shows the loads of a cluster. -/
def State.syncCluster (s : State) (c : Nat) : State :=
  let l := s.clusterLoads (s.clusterEngines c)
  (s.fset (SlcCluLoad.inLoad (16 * c)) (gbits l.1)).fset (SlcCluLoad.outLoad (16 * c)) (gbits l.2)

end Sys2Proof.Machine
end

