-- ==== Sys2Proof/Machine/Slicer.lean ====
section
/-! DEFINITION. The band slicers (R208 to R238). -/

namespace Sys2Proof.Machine

/-! ## Enable and disable (R223, R224) -/

/-- The input rate limit of an arrangement, in 2^-32 ns of T_in (R210). -/
def tinLimit (gang : Nat) (cplx : Bool) : Nat := 2 ^ 32 / (match gang with | 8 => 8 | 16 => 16 | _ => 4) * (if cplx then 2 else 1)

/-- The threshold registers hold legal thresholds (R221). -/
def State.slcThOk (s : State) (e : Nat) : Bool :=
  ((List.range 8).all fun i => decide (1 ≤ s.slcTh e i ∧ s.slcTh e i ≤ 8191)) &&
    (List.range 6).all fun i => decide (s.slcTh e (i + 1) < s.slcTh e (i + 2))

/-- cfg_err of an engine's configuration: 8 of a member that does not lead its gang (R211), else the lowest that applies. An output
tributary is named by the SLC_OUT of any other engine whose registers have effect (R223). DEDUCED: log entry 98. DEDUCED: log entry 217. -/
def State.slcCfgErr (s : State) (e : Nat) : Nat :=
  let gang := s.gangSize e
  let k := s.slcK e
  let tin := s.slcTin e
  let bank := s.fget (SlcCtl.coefBank e)
  if s.gangLead e ≠ e then 8
  else match s.slcInput e with
  | none => 1
  | some t =>
    let m := (s.slcMembers e).length
    let fmt := s.tfmt t
    let outBad := match s.slcOutTrib e with
      | none => true
      | some u => s.fget (TribCfg.src u) != 3 || !isComplex (s.tfmt u) ||
          (List.range 256).any fun x => x != e && s.gangLead x == x && s.slcOutTrib x == some u
    let outPeriod := match s.slcOutTrib e with | some u => s.period u | none => 0
    let bundle := gang ≠ 1 && s.fbit (TribCfg.inBundle t)
    let mBad := bundle && !(decide ((m = 2 ∨ m = 4 ∨ m = 8 ∨ m = 16) ∧ m ≤ gang))
    let whole := decide (s.period t % max 1 m = 0)
    let loads := s.clusterLoads (e :: s.clusterEngines (e / 16))
    if !s.fbit (TribCfg.en t) then 1
    else if fmt % 8 ≠ 0 ∧ fmt % 8 ≠ 1 then 2
    else if outBad then 3
    else if tin < tinLimit gang (isComplex fmt) ∨ tin * 2 ^ k < 2 ^ 31 then 4
    else if !whole || outPeriod != 2 ^ k * tin then 5
    else if !s.slcThOk e then 6
    else if !(s.fget (SlcStat.committed e)).testBit bank then 7
    else if mBad then 8
    else if 512000000000 < loads.1 ∨ 512000000000 < loads.2 then 9
    else 0

/-- A stopped engine: what stays of it is the NCO. DESIGN CHOICE: log entry 94. DEDUCED: log entry 95. -/
def SlcSt.cleared (q : SlcSt) (k : Nat) : SlcSt :=
  { phase := q.phase, freq := q.freq, staged := q.staged, stagedNow := q.stagedNow, half := List.replicate k [] }

/-- SLICER_ENABLE (R223): a write of SLC_CFG with en = 1. A malformed SLC_ANCHOR is refused as a reserved encoding (R9, R17). DEDUCED: log
entry 218. DEDUCED: log entry 218. -/
def doSlicerEnable (m e : Nat) (value : Word) (s : State) : State :=
  let was := s.fbit (SlcCfg.en e)
  if !was && malformed (s.slcAnchorWord e) then s.access m (SlcCfg.reg e) true fun s => s.busErr m 3 true 0 (s.viewOff m (SlcCfg.reg e))
  else s.writeThen m (SlcCfg.reg e) (value.toNat ||| 1) fun s =>
    if was then s
    else
      let err := (s.fsetB (SlcCfg.en e) false).slcCfgErr e
      let s1 := s.fset (SlcStat.cfgErr e) err
      if err ≠ 0 then s1.fsetB (SlcCfg.en e) false
      else
        (((s1.setSlc e ((s1.slc e).cleared (s1.slcK e))).fset (SlcStat.bankAct e) (s1.fget (SlcCtl.coefBank e))).fsetB
          (SlcStat.running e) false).syncCluster (e / 16)

def execSlicerEnable (m : Master) (e : SlcN) (value : Word) (s : State) : Out := .next (doSlicerEnable m e value s)

/-- An engine stops and its filter state is cleared. -/
def State.slcStop (s : State) (e : Nat) : State :=
  (((s.fsetB (SlcCfg.en e) false).setSlc e ((s.slc e).cleared 0)).fsetB (SlcStat.running e) false).syncCluster (e / 16)

/-- SLICER_DISABLE (R224): a write of SLC_CFG with en = 0. -/
def doSlicerDisable (m e : Nat) (value : Word) (s : State) : State :=
  let was := s.fbit (SlcCfg.en e)
  s.writeThen m (SlcCfg.reg e) (value.toNat / 2 * 2) fun s => if was then s.slcStop e else s

def execSlicerDisable (m : Master) (e : SlcN) (value : Word) (s : State) : Out := .next (doSlicerDisable m e value s)

/-! ## The NCO (R216 to R218) -/

/-- NCO_STAGE (R217): a write of SLC_NCO_HI stages the word. DESIGN CHOICE: log entry 94. -/
def doNcoStage (m e : Nat) (value : Word) (s : State) : State :=
  s.writeThen m (SlcNcoHi.reg e) value.toNat fun s =>
    let w := s.fget (SlcNcoHi.wordHi e) * 2 ^ 32 + s.fget (SlcNcoLo.wordLo e)
    let q := s.slc e
    s.setSlc e (if s.fbit (SlcNcoHi.now e) then { q with stagedNow := some w, staged := none }
      else { q with stagedNow := none, staged := some w })

def execNcoStage (m : Master) (e : SlcN) (value : Word) (s : State) : Out := .next (doNcoStage m e value s)

/-- The gang lead that a window's action target names, in the owner's numbering. -/
def State.ncoTarget (s : State) (w : Nat) : Option Nat := (s.slcDevice (s.winOwner w) (s.fget (WinCfg.target w))).map s.gangLead

/-- The engine of an action is enabled. -/
def State.ncoAble (s : State) (w : Nat) : Bool :=
  match s.ncoTarget w with
  | some e => s.fbit (SlcCfg.en e)
  | none => false

/-- NCO_RESET (R218): the reset of an enabled engine acts at the first position at or after the action's start. -/
def doNcoReset (w : Nat) (s : State) : State :=
  let missed := (s.actionDue w 4).isSome && !(s.domOn 3 && s.ncoAble w)
  let s1 := match s.ncoTarget w with
    | some e => s.bump .slc e 11 (if missed then 1 else 0)
    | none => s
  s1.fireAction w 4 (·.ncoAble w) fun s k =>
    match s.ncoTarget w with
    | some e => let q := s.slc e; s.setSlc e { q with ncoResets := q.ncoResets ++ [s.occStart w k] }
    | none => s

/-! ## Input (R212 to R215) -/

/-- The value of a 14-bit code. -/
def code14 (c : Nat) : Int := toSigned 14 (c % 16384)

/-- An instant read from the codes of a unit: I, Q, blank, saturated, marked (R215). -/
def instantOf (fmt u j : Nat) (lost : Nat → Bool) : Int × Int × Bool × Bool × Bool :=
  let ks := if isComplex fmt then [2 * j, 2 * j + 1] else [j]
  let tagged := fmt % 8 == 0
  let c (k : Nat) : Nat := unitCode fmt u k
  let blank := ks.any fun k => code14 (c k) == -8192 || codeTouches fmt k lost
  let sat := !blank && ks.any fun k => (code14 (c k)).natAbs == 8191 || (tagged && (c k).testBit 14)
  let mark := tagged && !blank && ks.any fun k => (c k).testBit 15
  let i := if blank then 0 else code14 (c (ks.headD 0))
  let q := if blank || !isComplex fmt then 0 else code14 (c (2 * j + 1))
  (i, q, blank, sat, mark)

/-- An input instant takes its position, or is discarded and counted: off its member's position in a bundle, or at a position already
processed (R212, R214). With no anchor set, the first instant processed, of member 0 in a bundle, is the anchor. DEDUCED: log entry 96. -/
def State.placeInstant (s : State) (e mIdx mCount inst : Nat) (x : Int × Int × Bool × Bool × Bool) : State :=
  let q := s.slc e
  let word := s.slcAnchorWord e
  let anchor := q.anchor.orElse fun _ => if word ≠ 0 then some (timeOf word) else if mIdx = 0 then some inst else none
  match anchor with
  | none => s.bump .slc e 4 1
  | some a =>
    let n := roundNear (((inst : Int) - a) * 65536) (max 1 (s.slcTin e))
    let misplaced := n % (mCount : Int) ≠ mIdx
    let past := match q.next with | some y => decide (n < y) | none => false
    let s1 := s.setSlc e { q with anchor := some a }
    if misplaced || past || q.avail.any fun y => y.pos == n then s1.bump .slc e 4 1
    else
      let (i, qq, blank, sat, mark) := x
      let rec insert (y : SlcPos) : List SlcPos → List SlcPos
        | [] => [y]
        | z :: zs => if y.pos < z.pos then y :: z :: zs else z :: insert y zs
      let p : SlcPos := { pos := n, i := i, q := qq, blank := blank, sat := sat, mark := if mark then some inst else none }
      let q1 : SlcSt := { q with anchor := some a, avail := insert p q.avail, seen := SMap.ins q.seen mIdx n
                                 next := q.next.orElse fun _ => some n
                                 lastBlank := if q.next.isNone && decide (0 < n) then some (n - 1) else q.lastBlank }
      s1.setSlc e q1

/-- A gathered unit of a member becomes input instants; grains that never came count as lost. -/
def State.flushUnit (s : State) (e t : Nat) : State :=
  let q := s.slc e
  match SMap.find q.part t with
  | none => s
  | some gs =>
    let fmt := s.tfmt t
    let g := unitGrains fmt
    let find (i : Nat) : Option SlcIn := gs.find? fun x => x.idx == i
    let u := ofGrains ((List.range g).map fun i => match find i with | some x => x.payload | none => 0)
    let lost (i : Nat) : Bool := match find i with | some x => x.lost | none => true
    let ms := s.slcMembers e
    let at' := match gs with | x :: _ => x.instant | [] => 0
    let s1 := s.setSlc e { q with part := SMap.del q.part t }
    s1.forEach (List.range (unitInstants fmt)) fun s j =>
      s.placeInstant e (ms.findIdx (· == t)) (max 1 ms.length) (at' + to16 (j * s.period t)) (instantOf fmt u j lost)

/-! ## Processing (R216 to R220, R225) -/

/-- The 64 coefficients of a bank; none where a word is poisoned (R220, R228). -/
def State.coefs (s : State) (e b : Nat) : Option (List Int) × State :=
  (List.range 64).foldl (fun (a : Option (List Int) × State) i =>
    let (v, s1) := a.2.treadN (s.clusterOwner (e / 16)) (0x600000 + e * 0x200 + b * 0x100 + 4 * i) 4 (s.slcLocal e) 6
    (match a.1, v with
      | some l, some x => some (l ++ [toSigned 18 (x % 2 ^ 18)])
      | _, _ => none, s1)) (some [], s)

/-- An output is computed at position e_m from the FIR's delay line, with the gain in force (R221, R224). DESIGN CHOICE: log entry 93.
DEDUCED: log entry 100. -/
def State.computeOut (s : State) (e : Nat) (pos : Int) : State :=
  let k := s.slcK e
  let bank := s.fget (SlcCtl.coefBank e)
  let s1 := s.fset (SlcStat.bankAct e) bank
  if pos - reachW k + 1 < 0 then s1
  else
    let (cs, s2) := s1.coefs e bank
    let q := s2.slc e
    let inReach (l : Option Int) : Bool := match l with | some p => decide (pos - reachW k + 1 ≤ p) | none => false
    let y := firSum (cs.getD []) q.fir
    let (yi, ci) := s2.slcGain e y.1
    let (yq, cq) := s2.slcGain e y.2
    let o : SlcOutp := { pos := pos, i := yi, q := yq, clampI := ci, clampQ := cq, blank := inReach q.lastBlank, sat := inReach q.lastSat, poisoned := cs.isNone }
    (s2.setSlc e { q with outq := q.outq ++ [o] }).fsetB (SlcStat.running e) true

/-- One position is processed: NCO, mixer, halfband stages, and the FIR where an output falls due. -/
def State.processPos (s : State) (e : Nat) (x : SlcPos) : State :=
  let q := s.slc e
  let inst := s.slcInstant e (q.anchor.getD 0) x.pos
  let due := q.ncoResets.filter fun (r : Nat) => decide ((r : Int) * 65536 ≤ inst)
  let q1 : SlcSt := match q.stagedNow with | some w => { q with freq := w, stagedNow := none } | none => q
  let q2 : SlcSt := if due.isEmpty then q1
    else { q1 with phase := s.fget (SlcNcoPh0.ph0 e) * 2 ^ 32, freq := q1.staged.getD q1.freq, staged := none
                   ncoResets := q1.ncoResets.filter fun (r : Nat) => decide (inst < (r : Int) * 65536) }
  let m := mix x.i x.q q2.phase
  let (half, o) := halfChain x.pos m 1 q2.half
  let q3 : SlcSt := { q2 with phase := (q2.phase + q2.freq) % 2 ^ 48, half := half
                              fir := match o with | some y => (y :: q2.fir).take 64 | none => q2.fir
                              lastBlank := if x.blank then some x.pos else q2.lastBlank
                              lastSat := if x.sat then some x.pos else q2.lastSat
                              marks := match x.mark with | some t => q2.marks ++ [t] | none => q2.marks
                              next := some (x.pos + 1) }
  let s1 := (((s.setSlc e q3).bump .slc e 10 due.length).bump .slc e 2 (if x.blank then 1 else 0)).bump .slc e 3 (if x.sat then 1 else 0)
  if o.isSome then s1.computeOut e x.pos else s1

/-- A position that received no instant is processed as blank. DEDUCED: log entry 95. -/
def blankPos (n : Int) : SlcPos := { pos := n, i := 0, q := 0, blank := true, sat := false, mark := none }

/-- Positions are processed in order: the next one where its instant is there, as blank where its member has gone on past it; where
only other members have, whether it still waits is open (R215). DESIGN CHOICE: log entry 97. -/
def State.runPositions (s : State) (e mCount : Nat) : Nat → State
  | 0 => s
  | fuel + 1 =>
    let q := s.slc e
    match q.next, q.avail with
    | some n, x :: xs =>
      if x.pos = n then ((s.setSlc e { q with avail := xs }).processPos e x).runPositions e mCount fuel
      else
        let own := match SMap.find q.seen (n % (mCount : Int)).toNat with | some y => decide (n < y) | none => false
        if own then (s.processPos e (blankPos n)).runPositions e mCount fuel
        else
          let (giveUp, s1) := s.freeB
          if giveUp then (s1.processPos e (blankPos n)).runPositions e mCount fuel else s1
    | _, _ => s

/-- SLICER_INPUT (R214): an engine takes the oldest grain of its input queue; a unit that is whole is positioned, mixed and
filtered. -/
def doSlicerInput (e : Nat) (s : State) : State :=
  let q := s.slc e
  match q.inq with
  | [] => s
  | x :: xs =>
    if !s.fbit (SlcCfg.en e) then s
    else
      let s1 := s.setSlc e { q with inq := xs }
      let cur := SMap.getD q.part x.tribNo []
      let s2 := match cur with
        | y :: _ => if y.instant = x.instant then s1 else s1.flushUnit e x.tribNo
        | [] => s1
      let q2 := s2.slc e
      let s3 := s2.setSlc e { q2 with part := SMap.ins q2.part x.tribNo (SMap.getD q2.part x.tribNo [] ++ [x]) }
      let s4 := if x.idx + 1 = unitGrains (s3.tfmt x.tribNo) then s3.flushUnit e x.tribNo else s3
      let q4 := s4.slc e
      let last := match q4.avail.getLast? with | some y => y.pos | none => 0
      s4.runPositions e (s4.slcM e) (last - q4.next.getD last + 1).toNat

def execSlicerInput (e : SlcN) (s : State) : Out := .next (doSlicerInput e s)

/-! ## Output (R221 to R225, R231) -/

/-- The two codes of an output in its layout, and whether they are blank. -/
def State.outCodes (s : State) (e fmt : Nat) (o : SlcOutp) (mark : Bool) : Nat × Nat × Bool :=
  let w := codeWidth fmt
  if o.blank || o.poisoned then (blankCode w, blankCode w, true)
  else
    let code (y : Int) (c : Bool) : Nat :=
      let v := s.slcCode e fmt y
      if fmt % 8 = 0 then ofSigned 14 v + (if o.sat || c then 2 ^ 14 else 0) + (if mark then 2 ^ 15 else 0) else ofSigned w v
    (code o.i o.clampI, code o.q o.clampQ, false)

/-- The overrange codes of outputs that begin in grain i of their unit (R138, R225): none in the tagged layout. -/
def overrange (fmt i : Nat) (os : List SlcOutp) : Nat :=
  if fmt % 8 = 0 then 0
  else (os.zipIdx.map fun x =>
    if x.1.blank || x.1.poisoned then 0
    else
      let hit (k : Nat) (c : Bool) : Nat := if (x.1.sat || c) && codeWidth fmt * k / 64 == i then 1 else 0
      hit (2 * x.2) x.1.clampI + hit (2 * x.2 + 1) x.1.clampQ).sum

/-- SLICER_OUTPUT (R231): the next whole unit of outputs, with gain, clamp, flags and requantisation applied, reaches the slot fabric for
an enabled output tributary. DESIGN CHOICE: log entry 99. DEDUCED: log entry 100. -/
def doSlicerOutput (e : Nat) (s : State) : State :=
  match s.slcOutTrib e with
  | none => s
  | some t =>
    let fmt := s.tfmt t
    let n := unitInstants fmt
    let q := s.slc e
    let os := q.outq.take n
    if os.length < n ∨ n = 0 then s
    else
      let a := q.anchor.getD 0
      let inst (o : SlcOutp) : Nat := s.slcOutInstant e a o.pos
      let step (acc : List (Nat × Nat × Bool) × List Nat) (o : SlcOutp) :=
        let mark := acc.2.any fun t => decide (t ≤ inst o)
        (acc.1 ++ [s.outCodes e fmt o mark], acc.2.filter fun t => decide (inst o < t))
      let (codes, marks) := os.foldl step ([], q.marks)
      let w := codeWidth fmt
      let u := ((codes.zipIdx).map fun x => (x.1.1 + x.1.2.1 * 2 ^ w) * 2 ^ (2 * w * x.2)).sum
      let anyBlank := codes.any fun x => x.2.2
      let at' := match os with | o :: _ => inst o | [] => 0
      let s1 := s.setSlc e { q with outq := q.outq.drop n, marks := marks }
      let s2 := ((s1.bump .slc e 5 n).bump .slc e 6 (os.filter fun o => o.blank || o.sat).length).bump .slc e 7
        (os.filter fun o => !o.blank && !o.poisoned && (o.clampI || o.clampQ)).length
      let s3 := (s2.bump .slc e 8 (codes.filter fun x => x.2.2).length).bump .slc e 9 (os.filter fun o => o.poisoned).length
      if !s3.fbit (TribCfg.en t) then s3
      else
        let gs := (List.range (unitGrains fmt)).map fun i =>
          ({ instant := at', idx := i, payload := unitGrain u i, blank := anyBlank, arrival := s.now, ovr := overrange fmt i os } : InGrain)
        let r := s3.trib t
        let s4 := s3.setTrib t { r with fab := r.fab ++ gs }
        let (lane, s5) := ((s4.noteLag t at' s.now).bump .trib t 1 gs.length).free 32
        gs.foldl (fun s g => s.vtArrive t lane g.instant g.idx none) s5

def execSlicerOutput (e : SlcN) (s : State) : Out := .next (doSlicerOutput e s)

/-! ## Coefficient banks (R228 to R230) -/

/-- Bank b of an engine is active: in use, or selected for the next output. -/
def State.coefActive (s : State) (e b : Nat) : Bool :=
  s.fbit (SlcCfg.en e) && (s.fget (SlcStat.bankAct e) == b || s.fget (SlcCtl.coefBank e) == b)

/-- COEF_COMMIT (R229): a write of SLC_COEF_CRC starts the check of a bank. -/
def doCoefCommit (m e b : Nat) (crc : Word) (s : State) : State :=
  s.writeThen m (SlcCoefCrc.reg e b) crc.toNat fun s => s.stick (SlcStat.checking e) (2 ^ b)

def execCoefCommit (m : Master) (e : SlcN) (bank : Bool) (crc : Word) (s : State) : Out :=
  .next (doCoefCommit m e bank.toNat crc s)

/-- Bit b of a two-bit field set or cleared. -/
def State.setBit2 (s : State) (r : FRef) (b : Nat) (on : Bool) : State :=
  let v := s.fget r
  s.fset r (v - (v &&& 2 ^ b) + (if on then 2 ^ b else 0))

/-- A check ends with a result. -/
def State.coefResult (s : State) (e b res : Nat) : State :=
  let s1 := (s.setBit2 (SlcStat.checking e) b false).fset (SlcStat.chkResult e) res
  if res = 0 then s1.setBit2 (SlcStat.committed e) b true else s1

/-- COEF_CHECK_DONE (R229): the check of a bank ends: 2 where it is active in an enabled engine, 3 where a word is poisoned, 1 on a CRC
mismatch, else 0. -/
def doCoefCheckDone (e b : Nat) (s : State) : State :=
  if !(s.fget (SlcStat.checking e)).testBit b then s
  else if s.coefActive e b then s.coefResult e b 2
  else
    let (v, s1) := s.treadN (s.clusterOwner (e / 16)) (0x600000 + e * 0x200 + b * 0x100) 256 (s.slcLocal e) 6
    match v with
    | none => s1.coefResult e b 3
    | some x => s1.coefResult e b (if crc32c (leBytes 256 x) = s.fget (SlcCoefCrc.crc e b) then 0 else 1)

def execCoefCheckDone (e : SlcN) (bank : Bool) (s : State) : Out := .next (doCoefCheckDone e bank.toNat s)

/-- A byte of a coefficient bank was written: its committed bit falls, and a running check is aborted. -/
def State.coefTouched (s : State) (e b : Nat) : State :=
  let s1 := s.setBit2 (SlcStat.committed e) b false
  if (s1.fget (SlcStat.checking e)).testBit b then s1.coefResult e b 4 else s1

/-- COEF_BANK_SELECT (R230): the active bank from the next output computed; an uncommitted bank is a reserved encoding. -/
def doCoefBankSelect (m e b : Nat) (s : State) : State :=
  s.access m (SlcCtl.reg e) true fun s =>
    if !(s.fget (SlcStat.committed e)).testBit b then s.busErr m 3 true 0 (s.viewOff m (SlcCtl.reg e))
    else
      let s1 := s.fset (SlcCtl.coefBank e) b
      if s1.fbit (SlcCfg.en e) then s1 else s1.fset (SlcStat.bankAct e) b

def execCoefBankSelect (m : Master) (e : SlcN) (bank : Bool) (s : State) : Out := .next (doCoefBankSelect m e bank.toNat s)

end Sys2Proof.Machine
end

