-- ==== Sys2Proof/Machine/Power.lean ====
section
/-! DEFINITION. Power domains and switch units (R40 to R43, R492, R493), lane-group enable (R82), pace-mode changes and the pace
monitor (R194, R495, R514, R515), the core regulator (R525, R526) and the thermal alarm (R496). -/

namespace Sys2Proof.Machine

/-! ## Switch units (R492) -/

/-- The domains of a switch unit, in the order in which they come on (R43). -/
def unitDomains (u : Nat) : List Nat :=
  if u < 24 then [53 + u, 77 + u, 118 + u]
  else if 32 ≤ u ∧ u < 48 then [101 + (u - 32)]
  else if u = 48 ∨ u = 49 then [41 + (u - 48), 43 + (u - 48), 45 + (u - 48)]
  else if u = 50 ∨ u = 51 then [11 + (u - 50)]
  else if 64 ≤ u ∧ u < 88 then [17 + (u - 64)]
  else if 96 ≤ u ∧ u < 103 then [142 + (u - 96)]
  else if u = 112 then (List.range 28).map (13 + ·) ++ [3, 5, 6, 7, 8, 11, 12] ++ (List.range 6).map (47 + ·)
  else []

/-- The domains that op switches off: SR leaves the PHY of a stack on. -/
def offDomains (u : Nat) (sr : Bool) : List Nat := if sr then (unitDomains u).drop 1 else unitDomains u

/-- Some admitted tributary has a destination or a source lane in group g. -/
def State.groupTraffic (s : State) (g : Nat) : Bool :=
  s.tribs.any fun e =>
    (e.2.adms.any fun a => a.dests.any fun x => match x.dest with
      | .klf n | .eth n => n / 4 == g
      | _ => false)
    || (!e.2.adms.isEmpty
        && ((s.rxLanes e.1).any (fun n => n / 4 == g)
            || (s.fget (TribCfg.src e.1) == 1 && s.fget (TribEthCfg.port e.1) / 4 == g)))

/-- Some admitted tributary has a destination or a source lane on cascade port q. -/
def State.casTraffic (s : State) (q : Nat) : Bool :=
  s.tribs.any fun e =>
    (e.2.adms.any fun a => a.dests.any fun x => match x.dest with
      | .cascade n => n / 2 == q
      | _ => false)
    || (!e.2.adms.isEmpty && (s.rxLanes e.1).any fun n => decide (96 ≤ n) && (n - 96) / 2 == q)

/-- Some tributary holds pages of the release buffer, over whose banks every allocation is striped. DEDUCED: log entry 118. -/
def State.pagesUsed (s : State) : Bool := s.tribs.any fun e => decide (0 < e.2.pagesHeld)

/-- An engine of cluster c is enabled. -/
def State.clusterBusy (s : State) (c : Nat) : Bool := (List.range 16).any fun i => s.fbit (SlcCfg.en (16 * c + i))

/-- A lane group or a cluster is on. -/
def State.dependantsOn (s : State) : Bool :=
  ((List.range 24).any fun g => s.domOn (77 + g)) || (List.range 16).any fun c => s.domOn (101 + c)

/-- Why a switch-off of a unit is refused (R42, R492), as PWR_DOM_STAT.res; 0 where it is permitted. DEDUCED: log entry 116. -/
def State.offRefusal (s : State) (u : Nat) : Nat :=
  if u < 24 then if s.fbit (GrpCfg.en u) then 3 else if s.groupTraffic u then 2 else 0
  else if u < 48 then if s.clusterBusy (u - 32) then 3 else 0
  else if u < 50 then if s.stackUsed (u - 48) then 2 else 0
  else if u < 52 then if s.fbit CasCfg.en then 3 else if s.casTraffic (u - 50) then 2 else 0
  else if u < 88 then if s.pagesUsed then 2 else 0
  else if u < 103 then if s.fbit (SepCtl.en (25 + (u - 96))) then 3 else 0
  else if s.fget GlbPhase.phase ≠ 3 then 3
  else if s.dependantsOn then 1
  else if s.domOn 41 || s.domOn 42 || s.domOn 43 || s.domOn 44 then 3
  else 0

/-! ## The operations -/

/-- PWR_DOM_CTL takes its value, and PWR_DOM_STAT the result. DEDUCED: log entry 119. -/
def State.domOp (s : State) (op u res : Nat) : State :=
  (((s.fset PwrDomCtl.op op).fset PwrDomCtl.unit u).fset PwrDomStat.unit u).fset PwrDomStat.res res

/-- The release buffer, the HBM and capture staging are zeroed (R491): what is still held is 0. -/
def State.buffersZeroed (s : State) : State :=
  s.forEach (s.tribs.map Prod.fst) fun s t =>
    let r := s.trib t
    s.setTrib t { r with held := r.held.map fun b => { b with payload := 0 }, egress := r.egress.map fun e => { e with payload := 0 } }

/-- A unit's domains go off in reverse order, with the quadrant or engine that only it needed. DEDUCED: log entry 119. -/
def State.unitOff (s : State) (u : Nat) (sr : Bool) : State :=
  let s1 := s.forEach (offDomains u sr).reverse fun s d => s.domainOff d
  if u < 24 then s1.quadrantIdle (quadrantOf u) else s1.onlyIf (u == 112) State.buffersZeroed

/-- OFF and SR: refused with a reserved unit (5), a unit that is becoming ready (4), or as R42 and R492 say; a unit that is off
already stays so. -/
def State.switchOff (s : State) (op u : Nat) (sr : Bool) : State :=
  if (unitDomains u).isEmpty || (sr && u != 48 && u != 49) then s.domOp op u 5
  else if (SMap.find s.sys.unitReadyAt u).isSome then s.domOp op u 4
  else if s.allOff (offDomains u sr) then s.domOp op u 0
  else
    let r := s.offRefusal u
    if r ≠ 0 then s.domOp op u r else (s.unitOff u sr).domOp op u 0

/-- OFF (R492). -/
def doOff (u : Nat) (s : State) : State := s.switchOff 0 u false

/-- SR (R492): self-refresh of a stack. DEDUCED: log entry 117. -/
def doSr (u : Nat) (s : State) : State := s.switchOff 2 u true

def execSr (unit : Byte) (s : State) : Out := .next (doSr unit.toNat s)

/-- The time in ns from switch-on to ready (R493). -/
def State.readyNs (s : State) (u : Nat) : Nat :=
  if u < 24 then 5000000
  else if u = 48 ∨ u = 49 then (if s.domOn (41 + (u - 48)) then 10000 else 1000000000)
  else if u = 112 then 200000
  else 100000

/-- What the switch-on of a unit zeroes anyway is zeroed when it is ready (R43, R434). DEDUCED: log entry 37. DEDUCED: log entry 108. -/
def State.zeroedBy (s : State) (u : Nat) (ns : Nat) : State :=
  let hit (j : ZeroJob) : Bool := if u = 112 then j.granules == 0 else (u == 48 || u == 49) && j.granules != 0 && 48 + j.stack == u
  { s with mem := { s.mem with zero := s.mem.zero.map fun j => if hit j then { j with endAt := s.now + ns * tNs } else j } }

/-- ON (R492, R493): the unit's domains come on in dependency order, after the fabric quadrants they need; an HBM stack from off
reports its domains on only when it has been zeroed (R434). -/
def doOn (u : Nat) (s : State) : State :=
  let ds := unitDomains u
  if ds.isEmpty then s.domOp 1 u 5
  else if (SMap.find s.sys.unitReadyAt u).isSome then s.domOp 1 u 4
  else if ds.all s.domOn then s.domOp 1 u 0
  else
    let ns := s.readyNs u
    let cold := (u = 48 ∨ u = 49) ∧ !s.domOn (41 + (u - 48))
    let s1 := s.onlyIf (decide (u < 24)) fun s => s.domainOn (13 + quadrantOf u)
    let s2 := s1.onlyIf (decide ((32 ≤ u ∧ u < 48) ∨ u = 50 ∨ u = 51)) fun s =>
      s.forEach (List.range 4) fun s q => s.onlyIf (ds.any fun d => Config.routed d q) fun s => s.domainOn (13 + q)
    let s3 := if cold then s2.zeroedBy u ns else (s2.forEach ds fun s d => s.domainOn d).onlyIf (u == 112) fun s => s.zeroedBy u ns
    let mask := if cold then 7 else 6
    let s4 := if u = 48 then { s3 with mem := { s3.mem with cycled0 := s3.mem.cycled0 ||| mask } }
      else if u = 49 then { s3 with mem := { s3.mem with cycled1 := s3.mem.cycled1 ||| mask } } else s3
    ({ s4 with sys := { s4.sys with unitReadyAt := SMap.ins s4.sys.unitReadyAt u (s.ticks + ticksOfNs ns) } }).domOp 1 u 0

def execOn (unit : Byte) (s : State) : Out := .next (doOn unit.toNat s)

/-! ## Lane groups (R82, R492) -/

/-- The lowest lane of a group with en = 1, or lane 0. -/
def State.firstLane (s : State) (g : Nat) : Nat := ((List.range 4).find? fun i => s.fbit (LaneCfg.en (4 * g + i))).getD 0

/-- GRP_CFG.en goes to 1: the packet engine comes on first where the mode may need it, the mode in force and the clock lane are
set, and the enabled lanes start. DEDUCED: log entry 112. -/
def State.groupUp (s : State) (g : Nat) : State :=
  let mode := s.fget (GrpCfg.mode g)
  let s1 := (s.onlyIf (mode != 0) fun s => s.engineOn (g / 4)).fset (GrpStat.modeAct g) mode
  let s2 := s1.fset (GrpStat.clkLaneAct g) (if s1.fbit (GrpCfg.clkAuto g) then s1.firstLane g else s1.fget (GrpCfg.clkLane g))
  let s3 := s2.setGroup g { s2.group g with retryAt := none, fam := 2, cdrLost := false }
  let s4 := s3.setClock g false true
  s4.forEach (List.range 4) fun s i => s.onlyIf (s.fbit (LaneCfg.en (4 * g + i))) fun s => s.laneUp (4 * g + i)

/-- UNIT_READY (R493): the time since switch-on has passed: a stack from off reports its domains on, and a core of the unit leaves
the off state. DEDUCED: log entry 123. -/
def doUnitReady (u : Nat) (s : State) : State :=
  match SMap.find s.sys.unitReadyAt u with
  | none => s
  | some t =>
    if s.ticks < t then s
    else
      let s1 := { s with sys := { s.sys with unitReadyAt := SMap.del s.sys.unitReadyAt u } }
      if u < 24 then (s1.coreOn (u + 1)).onlyIf (s1.fbit (GrpCfg.en u)) fun s => s.groupUp u
      else if u = 48 ∨ u = 49 then s1.forEach (unitDomains u) fun s d => s.domainOn d
      else if u = 50 ∨ u = 51 then s1.onlyIf (s1.fbit CasCfg.en) fun s => s.forEach (List.range 2) fun s i => s.laneUp (2 * u - 4 + i)
      else if 96 ≤ u ∧ u < 103 then s1.coreOn (25 + (u - 96))
      else s1

def execUnitReady (unit : Byte) (s : State) : Out := .next (doUnitReady unit.toNat s)

/-! ## Lane groups: off and reset (R82, R489) -/

/-- GRP_CFG.en goes to 0: the enabled lanes stop, the overhead FIFO empties (R414), and the packet engine goes off where nothing
needs it. -/
def State.groupDown (s : State) (g : Nat) : State :=
  let s1 := s.forEach (List.range 4) fun s i => s.onlyIf (s.fbit (LaneCfg.en (4 * g + i))) fun s => s.laneDown (4 * g + i)
  let s2 := s1.fset (GrpStat.modeAct g) 2
  let s3 := s2.setGroup g { s2.group g with retryAt := none, fam := 2, cdrLost := false }
  (((s3.setClock g false false).fifoStop g).engineIdle (g / 4)).alarm

/-- GROUP_ENABLE (R82): a write of GRP_CFG that may change en. -/
def doGroupEnable (m g : Nat) (value : Word) (s : State) : State :=
  let was := s.fbit (GrpCfg.en g)
  s.writeThen m (GrpCfg.reg g) value.toNat fun s =>
    let now := s.fbit (GrpCfg.en g)
    if now = was then s else if now then s.groupUp g else s.groupDown g

/-- LANE_GROUP_RESET (R489, R491): the receive and transmit datapath of a group is reset: its enabled lanes end and start again, with
the event of R111; nothing where the group is off (R490). -/
def doLaneGroupReset (g : Nat) (s : State) : State :=
  if !s.domOn (77 + g) then s
  else
    let s1 := s.fifoStop g
    if !s1.fbit (GrpCfg.en g) then s1
    else
      let s2 := s1.forEach (List.range 4) fun s i =>
        s.onlyIf (s.fbit (LaneCfg.en (4 * g + i))) fun s =>
          let n := 4 * g + i
          ((List.range 64).foldl (fun (s : State) k => s.ctrZero .lane n k) (s.laneDown n)).laneUp n
      let s3 := (s2.setGroup g { s2.group g with fam := 2, cdrLost := false }).setClock g false true
      (s3.onlyIf (s3.fget (GrpCfg.mode g) == 2) fun s => s.fset (GrpStat.modeAct g) 2).alarm

/-! ## Pace-mode changes (R194, R495) -/

/-- The steered supply is in use: FULL, no change towards EFFICIENT under way, after BOOT_DONE, with adaptive = 1 (R27, R525). -/
def State.steering (s : State) : Bool :=
  s.fbit GlbPhase.bootDone && s.fget GlbPace.mode == 0 && !s.fbit GlbPace.pending && s.fbit PwrAvs.adaptive

/-- GLB_PACE.adaptive follows. -/
def State.syncPace (s : State) : State := s.fsetB GlbPace.adaptive s.steering

/-- The zeroing queue's remaining times change by num/den, with the activations that wait for nothing else, those of a bundle
together (R187). -/
def State.scaleZero (s : State) (num den : Nat) : State :=
  let adj (j : ZeroJob) : ZeroJob :=
    if j.granules = 0 then { j with endAt := s.now + ((j.endAt - s.now) * num + den - 1) / den } else j
  let js := s.mem.zero.map adj
  let s1 := { s with mem := { s.mem with zero := js } }
  let waits (t : Nat) : List Nat := (s1.gridShare t).flatMap fun u => match (s1.trib u).pend with
    | some a => a.waits
    | none => []
  let ends (t : Nat) : List Nat := (js.filter fun j => (waits t).contains j.seq).map ZeroJob.endAt
  s1.forEach (s1.tribs.map Prod.fst) fun s t =>
    let r := s.trib t
    match r.pend with
    | some a => if a.asap && !(ends t).isEmpty then s.setTrib t { r with pend := some { a with actTime := (ends t).foldl max 0 } } else s
    | none => s

/-- The admissions decided and not yet in force that miss their act_time with the zeroing queue as it stands (R194). -/
def State.lateZero (s : State) : List Nat :=
  (s.tribs.filter fun e => match e.2.pend with
    | some a => !a.asap && s.mem.zero.any fun j => a.waits.contains j.seq && decide (a.actTime < j.endAt)
    | none => false).map Prod.fst

/-- Every admission fits term 5 in EFFICIENT. -/
def State.fitsEfficient (s : State) : Bool := s.term5 false (s.loadBut none Adm.writeLoad) (s.loadBut none Adm.readLoad)

/-- A tributary becomes void by a forced pace lowering, or will be from its activation; 1 where it was not void. DEDUCED: log entry 126. -/
def State.voidByPace (s : State) (t : Nat) : Nat × State :=
  let r := s.trib t
  let new := (r.adm.isSome && r.voidRow == 0) || (r.adm.isNone && r.pend.isSome)
  ((if new then 1 else 0), (s.onlyIf (r.voidRow == 0) fun s => s.voidTrib t 2).voidPending t 2)

/-- The tributaries with an admission, in ascending order of partition and tributary. -/
def State.admittedInOrder (s : State) : List Nat :=
  ((List.range 16).map fun p => (s.tribsOf p).filter fun t => !(s.trib t).adms.isEmpty).flatten

/-- The forced re-admission in EFFICIENT: how many tributaries become void, and the state. A void tributary's load counts (R193). DEDUCED: log entry 125. DEDUCED: log entry 126. -/
def State.forceReadmit (s : State) : Nat × State :=
  let r := s.admittedInOrder.foldl (fun (a : Nat × Nat × Nat × State) t =>
      let x := a.2.2.2.trib t
      let w := a.1 + x.most Adm.writeLoad
      let rd := a.2.1 + x.most Adm.readLoad
      if s.term5 false w rd then (w, rd, a.2.2.1, a.2.2.2)
      else let (n, s1) := a.2.2.2.voidByPace t; (w, rd, a.2.2.1 + n, s1)) (0, 0, 0, s)
  r.2.2

/-- A ramp to a voltage: at 1 mV/us, and 50 us to settle. -/
def State.startRamp (s : State) (mode mv : Nat) : State :=
  let us := (s.sys.supplyMv - mv) + (mv - s.sys.supplyMv) + 50
  { s with sys := { s.sys with paceTarget := some mode, rampEnd := some (s.ticks + ticksOfNs (us * 1000)) } }

/-- A request for a pace mode (R495). DEDUCED: log entry 125. -/
def State.paceRequest (s : State) (mode : Nat) (force : Bool) : State :=
  if s.fbit GlbPace.pending then s.fset PwrPaceStat.res 2
  else if s.fget GlbPace.mode = mode then s.fset PwrPaceStat.res 3
  else
    let s1 := s.fsetB GlbPace.pending true
    if mode = 0 then (s1.syncPace.fset PwrPaceStat.voided 0).startRamp 0 750
    else
      let s2 := s1.scaleZero 3 2
      let late := s2.lateZero
      let fits := s.fitsEfficient
      if (!fits || !late.isEmpty) && !force then s.fset PwrPaceStat.res 1
      else
        let (n, s3) := if fits then (0, s2) else s2.forceReadmit
        let (m, s4) := late.foldl (fun (a : Nat × State) t =>
            let x := if (a.2.trib t).pend.any (fun (p : Adm) => p.voidRow == 0) then 1 else 0
            (a.1 + x, a.2.voidPending t 2)) (n, s3)
        (((s4.fsetB GlbPace.admMode true).fset PwrPaceStat.voided (min 65535 m)).syncPace).startRamp 1 660

/-- PACE_CHANGE (R495): the D-class write of PWR_PACE_CTL. -/
def doPaceChange (efficient force : Bool) (s : State) : State :=
  ((s.fsetB PwrPaceCtl.mode efficient).fsetB PwrPaceCtl.force force).paceRequest efficient.toNat force

def execPaceChange (efficient force : Bool) (s : State) : Out := .next (doPaceChange efficient force s)

/-- PACE (R181, R194): an action due requests a pace mode, with force = PWR_PACE_CFG.act_force. -/
def doPace (w : Nat) (s : State) : State :=
  s.fireAction w 5 (fun _ => true) fun s _ => s.paceRequest (s.fget (WinCfg.target w) % 2) (s.fbit PwrPaceCfg.actForce)

/-- PACE_RAMP_DONE (R495): the supply has settled: the mode in force changes, and with FULL the admission figures. -/
def doPaceRampDone (s : State) : State :=
  match s.sys.paceTarget, s.sys.rampEnd with
  | some mode, some t =>
    if s.ticks < t then s
    else
      let s1 := { s with sys := { s.sys with paceTarget := none, rampEnd := none, supplyMv := if mode = 0 then 750 else 660 } }
      let s2 := ((s1.fset GlbPace.mode mode).fsetB GlbPace.pending false).fset PwrPaceStat.res 0
      (s2.onlyIf (mode == 0) fun s => (s.fsetB GlbPace.admMode false).scaleZero 2 3).syncPace
  | _, _ => s

def execPaceRampDone (s : State) : Out := .next (doPaceRampDone s)

/-! ## The pace monitor (R514, R515) -/

/-- Every admission becomes void: operation outside the operating conditions (R193 row 4). DEDUCED: log entry 128. -/
def State.voidAll (s : State) : State :=
  s.forEach (s.tribs.map Prod.fst) fun s t =>
    (s.onlyIf ((s.trib t).adm.isSome && (s.trib t).voidRow == 0) fun s => s.voidTrib t 4).voidPending t 4

/-- The adaptive supply is raised above 1.20 ns and may be lowered below 1.12 ns; by how much is open (R27). DESIGN CHOICE: log entry 124. -/
def State.steer (s : State) (ps : Nat) : State :=
  let mv := s.sys.supplyMv
  if !s.steering then s
  else if 1200 < ps ∧ mv < 750 then
    let (x, s1) := s.free 8
    { s1 with sys := { s1.sys with supplyMv := mv + 1 + x % (750 - mv) } }
  else if ps < 1120 ∧ 700 < mv then
    let (x, s1) := s.free 8
    { s1 with sys := { s1.sys with supplyMv := mv - x % (mv - 699) } }
  else s

/-- PACE_WINDOW (R514): a window of 1 us ends with the average replica period of every powered quad, in ps; the longest is the pace.
DEDUCED: log entry 127. -/
def doPaceWindow (periods : List Nat) (s : State) : State :=
  let seen := (periods.take 24).zipIdx.filter fun e => s.domOn (17 + e.2)
  match seen with
  | [] => s
  | e :: es =>
    let (ps, q) := es.foldl (fun (a : Nat × Nat) x => if a.1 < x.1 then x else a) e
    let s0 := { s with sys := { s.sys with quadPace := seen.map fun (x : Nat × Nat) => (x.2, x.1) } }
    let s1 := (s0.fset PerfPaceNow.period ps).fset PerfPaceNow.quad q
    let lo := s1.fget PerfPaceMin.period
    let s1 := s1.forEach (List.range 64) fun s r => s.onlyIf (s.ringIs 0 r 5) fun s =>
      let g := s.ring 0 r
      s.setRing 0 r { g with paceMax := max g.paceMax ps }
    let s2 := (s1.fset PerfPaceMax.period (max ps (s1.fget PerfPaceMax.period))).fset PerfPaceMin.period
      (if lo = 0 then ps else min lo ps)
    let limit := if s2.fget GlbPace.mode = 1 ∨ s2.fbit GlbPace.pending then 1920 else 1280
    (s2.onlyIf (decide (limit < ps)) fun s => (s.stick PerfPaceStat.overF 1).voidAll).steer ps

def execPaceWindow (periods : List (BitVec 16)) (s : State) : Out := .next (doPaceWindow (periods.map BitVec.toNat) s)

/-! ## The core regulator (R525, R526) -/

/-- The voltage to request now, in mV: 750 before BOOT_DONE, the ramp of a pace change, 660 in EFFICIENT, the steered voltage in
FULL with adaptive supply, else 750. DESIGN CHOICE: log entry 124. -/
def State.wantedMv (s : State) : Nat :=
  if !s.fbit GlbPhase.bootDone then 750
  else
    match s.sys.paceTarget, s.sys.rampEnd with
    | some mode, some t =>
      let left := usOfTicks (t - s.ticks) - 50
      if mode = 0 then max s.sys.supplyMv (750 - min 750 left) else min s.sys.supplyMv (660 + left)
    | _, _ => if s.fget GlbPace.mode = 1 then 660 else if s.fbit PwrAvs.adaptive then s.sys.supplyMv else 750

/-- AVS_REQUEST (R525): the device requests a voltage of VDD_CORE, from 0.66 V to 0.75 V. -/
def doAvsRequest (s : State) : State :=
  let mv := max 660 (min 750 s.wantedMv)
  let s1 := (s.fset PwrAvs.reqMv mv).emit (.avs mv)
  { s1 with sys := { s1.sys with avsPending := some (mv, s1.ticks, 0)
                                 supplyMv := if s1.sys.paceTarget.isSome then s1.sys.supplyMv else mv } }

def execAvsRequest (s : State) : Out := .next (doAvsRequest s)

/-- AVS_RESPONSE (R525, R526): the regulator answers the request; an error status sets nak. -/
def doAvsResponse (ok : Bool) (s : State) : State :=
  match s.sys.avsPending with
  | none => s
  | some _ =>
    { (if ok then s else s.stick PwrAvs.nak 1) with sys := { s.sys with avsPending := none } }

def execAvsResponse (ok : Bool) (s : State) : Out := .next (doAvsResponse ok s)

/-- AVS_TIMEOUT (R525): 100 us without an acknowledgement: the request is repeated up to 3 times, then timeout is set. -/
def doAvsTimeout (s : State) : State :=
  match s.sys.avsPending with
  | none => s
  | some (mv, t, n) =>
    if s.ticks < t + ticksOfNs 100000 then s
    else if n < 3 then ({ s with sys := { s.sys with avsPending := some (mv, s.ticks, n + 1) } }).emit (.avs mv)
    else { s.stick PwrAvs.timeout 1 with sys := { s.sys with avsPending := none } }

def execAvsTimeout (s : State) : Out := .next (doAvsTimeout s)

/-! ## Temperature (R496) -/

/-- The ledger's bin of a temperature in 0.01 degree C (R503). DEDUCED: log entry 139. -/
def tjBin (c : Int) : Nat :=
  if c < 2500 then 0 else if c < 4500 then 1 else if c < 6500 then 2 else if c < 8000 then 3 else if c < 9000 then 4
  else if c < 10000 then 5 else if c ≤ 10500 then 6 else 7

/-- The time since the last note is added to the bin of the temperature in force. -/
def State.noteTj (s : State) : State :=
  let b := tjBin (toSigned 16 (s.fget PwrTherm.tj))
  let bins := (List.range 8).map fun i => (s.sys.tjTicks[i]?).getD 0 + (if i = b then s.ticks - s.sys.tjAt else 0)
  { s with sys := { s.sys with tjTicks := bins, tjAt := s.ticks } }

/-- THERMAL_ALARM (R496): the sensors report the highest junction temperature in 0.01 degree C; the alarm follows alarm_thr, and outside
0 to 105 degree C every admission is void (R193, R521). DEDUCED: log entry 128. -/
def doThermalAlarm (tj : BitVec 16) (s : State) : State :=
  let c := tj.toInt
  let s0 := s.noteTj
  let s1 := { s0.fset PwrTherm.tj tj.toNat with sys := { s0.sys with tjMax := max s0.sys.tjMax c } }
  (s1.onlyIf (decide (c < 0 ∨ 10500 < c)) fun s => s.voidAll).alarm

def execThermalAlarm (tj : BitVec 16) (s : State) : Out := .next (doThermalAlarm tj s)

end Sys2Proof.Machine
end

