-- ==== Sys2Proof/Machine/Actions.lean ====
section
/-! DEFINITION. When scheduled actions fire (R180 to R182): in order of start, then of window number, and at once where a forward change
of device time skips their start. -/

namespace Sys2Proof.Machine

/-- The next occurrence of window w fires, as its action code says (R181). -/
def State.fireWindow (s : State) (w : Nat) : State :=
  match s.fget (WinCfg.action w) with
  | 1 => doCalSwap w s
  | 2 => doPulseAlign w s
  | 3 => doEpoch w s
  | 4 => doNcoReset w s
  | 5 => doPace w s
  | 6 => doEvent w s
  | _ => s

/-- The occurrences of window w whose start has come and that have not fired, as (start, window). -/
def State.dueOf (s : State) (w : Nat) : List (Nat × Nat) :=
  let k := (s.winSt w).nextOcc
  if !s.fbit (WinCfg.en w) || s.fget (WinCfg.kind w) != 2 || decide (s.now < s.occStart w k) then []
  else
    let n := if s.winPeriod w = 0 then 1 else (s.now - s.occStart w k) / s.winPeriod w + 1
    let more := match s.winTotal w with | some t => min n (t - k) | none => n
    (List.range more).map fun i => (s.occStart w (k + i), w)

/-- One occurrence comes before another, or is it: by start, then by device-wide window number (R180). -/
def firesBefore (x y : Nat × Nat) : Bool := decide (x.1 < y.1) || (x.1 == y.1 && decide (x.2 ≤ y.2))

/-- An occurrence put in its place among others. -/
def insertDue (x : Nat × Nat) : List (Nat × Nat) → List (Nat × Nat)
  | [] => [x]
  | y :: ys => if firesBefore x y then x :: y :: ys else y :: insertDue x ys

/-- Every due occurrence, in the order in which they fire. -/
def State.dueActions (s : State) : List (Nat × Nat) := ((List.range 256).flatMap s.dueOf).foldr insertDue []

/-- The transmit/system tick at or after a device time, counted from 0. -/
def tickAfter (t : Nat) : Nat := (5 * t + tickFifths - 1) / tickFifths

/-- A recorded proposal whose tick is not after that of an action comes before the action (R326). -/
def State.epochFirst (s : State) (start : Nat) : State :=
  if s.fbit CasStageCtl.pending && decide (tickAfter s.cas.propT ≤ tickAfter start) then doEpochActivate s else s

/-- Due occurrences fire in order, an epoch of the same tick before them. -/
def State.fireAll (s : State) (l : List (Nat × Nat)) : State := l.foldl (fun s e => (s.epochFirst e.1).fireWindow e.2) s

/-- A due action of window w fires, after every other due action that comes before it (R180). DESIGN CHOICE: log entry 4. -/
def State.fireTo (s : State) (w code : Nat) : State :=
  match s.actionDue w code with
  | none => s
  | some k => s.fireAll (s.dueActions.filter fun e => firesBefore e (s.occStart w k, w))

def execEvent (w : WinN) (s : State) : Out := .next (s.fireTo w 6)

def execCalSwap (w : WinN) (s : State) : Out := .next (s.fireTo w 1)

def execPulseAlign (w : WinN) (s : State) : Out := .next (s.fireTo w 2)

def execEpoch (w : WinN) (s : State) : Out := .next (s.fireTo w 3)

def execNcoReset (w : WinN) (s : State) : Out := .next (s.fireTo w 4)

def execPace (w : WinN) (s : State) : Out := .next (s.fireTo w 5)

/-- TIME_OP_EFFECT (R172, R182): the pending step or set takes effect; a change forward fires every action whose start it skips, in order
of start. -/
def doTimeOpEffect (s : State) : State :=
  let t := s.timeOpEffect
  if s.now < t.now then t.fireAll t.dueActions else t

def execTimeOpEffect (s : State) : Out := .next (doTimeOpEffect s)

end Sys2Proof.Machine
end

