-- ==== Sys2Proof/Machine/Capture.lean ====
section
/-! DEFINITION. Capture and playback (R360 to R368). -/

namespace Sys2Proof.Machine

/-! ## Capture -/

/-- The grains of the oldest whole unit that waits for a capture ring. DEDUCED: log entry 86. -/
def State.captureUnit (s : State) (t r : Nat) : List EgGrain :=
  match (s.trib t).egress.filter fun e => e.dest = .capture r with
  | [] => []
  | e :: es =>
    let gs := (e :: es).filter fun x => x.rel == e.rel
    if gs.length = unitGrains (s.tfmt t) then gs else []

/-- The next descriptor of a capture ring that can take a unit of the given size: malformed ones, and those too small, close with
0 units and status 1 on the way (R360). -/
def State.takeBuf (s : State) (p r t size : Nat) : List (Nat × List Byte) → State
  | [] => s.setRing p r { s.ring p r with descs := [] }
  | (i, d) :: ds =>
    let len := capLen d
    let s1 := s.setRing p r { s.ring p r with descs := ds }
    let bad := capAddr d % 64 != 0 || len % 64 != 0 || decide (len < 4096) || decide (16777216 < len) || usedFrom d 12
      || decide (len < size)
    let b : CapBuf := { index := i, addr := capAddr d, len := len, trib := t, openedAt := s.ticks }
    if bad then (s1.closeCap p r 1 b false).takeBuf p r t size ds
    else s1.setRing p r { s1.ring p r with caps := (s1.ring p r).caps ++ [b] }

/-- The buffer in which a tributary captures closes normally. -/
def State.closeTribCap (s : State) (p r t : Nat) : State :=
  match (s.ring p r).caps.find? fun b => b.trib == t with
  | some b => s.closeCap p r 0 b false
  | none => s

/-- The buffer in which t captures closes once no unit that came before a dropped one waits any more (R361). -/
def State.closeCut (s : State) (t r : Nat) : State :=
  let p := s.tribOwner t
  let g := s.ring p r
  let passed (e : Nat × Nat) : Bool := e.1 == t && !(s.trib t).egress.any fun x => x.dest == .capture r && decide (x.rel < e.2)
  if g.cuts.any passed then (s.setRing p r { g with cuts := g.cuts.filter fun e => !passed e }).closeTribCap p r (s.tribLocal t) else s

/-- CAPTURE_STAGE (R361): the oldest unit in staging is written into its tributary's buffer; a gated ring takes it as the gates left it at
its release read, if they pass any instant (R179, R363). It waits in staging while the ring holds no buffer for it (R39). DESIGN CHOICE: log entry 87. -/
def State.stageOne (s : State) (t r : Nat) : State :=
  let gs := s.captureUnit t r
  match gs with
  | [] => s
  | e0 :: _ =>
    let p := s.tribOwner t
    let lt := s.tribLocal t
    let take (s : State) : State :=
      s.setTrib t { s.trib t with egress := (s.trib t).egress.filter fun e => !(e.dest = .capture r && e.rel == e0.rel) }
    let s1 := take s
    let drop (s : State) : State :=
      (gs.foldl (fun s e => s.vtGrainEnd t e.instant e.idx 2 e.cause) s).dropCapture p r gs.length
    if !s1.ringIs p r 2 || s1.fbit (HostRingStat.stopped p r) then drop s1
    else if s1.fbit (HostRingCfg.follow p r) && !s1.roleWrites e0.rel then
      (gs.foldl (fun s e => s.vtGrainEnd t e.instant e.idx 2 e.cause) s1).bump .host (p * 64 + r) 9 1
    else if !s1.dmaOn p then (drop s1).closeTribCap p r lt
    else
      let gate := s1.fbit (HostRingCfg.gate p r)
      if gate && !gs.any EgGrain.pass then gs.foldl (fun s e => s.vtGrainEnd t e.instant e.idx 2 e.cause) s1
      else
        let us := if gate then gs.map fun e => { e with payload := e.gated } else gs
        let poison := us.any fun e => e.cause == 3
        if poison && s1.feature p 1 then (drop s1).haltCapture p r
        else
          let size := 8 * us.length
          let s2 := match (s1.ring p r).caps.find? fun b => b.trib == lt with
            | some b =>
              let want := b.rFirst + to16 (b.units * s1.unitDur t)
              if s1.takesPoint t want e0.rel then s1 else s1.closeCap p r 0 b false
            | none => s1
          let s3 := if (s2.ring p r).caps.any fun b => b.trib == lt then s2 else s2.takeBuf p r lt size (s2.ring p r).descs
          match (s3.ring p r).caps.find? fun b => b.trib == lt with
          | none => { s3 with tribs := s.tribs }
          | some b =>
            let data := us.flatMap fun e => leBytes 8 e.payload.toNat
            let b' : CapBuf := { b with units := b.units + 1, bytes := b.bytes + size, rFirst := if b.units = 0 then e0.rel else b.rFirst
                                        openedAt := if b.units = 0 then s.ticks - ticksOfNs ((s.now - e0.rel) / 65536) else b.openedAt
                                        substituted := b.substituted || us.any fun e => substituted e.cause
                                        poisoned := b.poisoned || poison }
            let g := s3.ring p r
            let s4 := (s3.setRing p r { g with caps := g.caps.map fun x => if x.index = b.index then b' else x }).syncRing p r
            let s5 := s4.emit (.hostWrite p (b.addr + b.bytes) data (s4.feature p 2))
            let blanks := (us.filter fun e => e.payload == blankGrain (s5.tfmt t) e.idx).length
            let s6 := (s5.bump .trib t 9 us.length).bump .trib t 10 blanks
            let s7 := us.foldl (fun s e => ((s.vtGrain t e.instant e.idx 5 true).vtGrain t e.instant e.idx 6 true).vtGrainEnd t
              e.instant e.idx (if e.cause = 0 ∨ e.cause = 5 then 0 else 1) e.cause) s6
            if b'.len < b'.bytes + size then s7.closeCap p r 0 b' false else s7

def doCaptureStage (t r : Nat) (s : State) : State := (s.stageOne t r).closeCut t r

def execCaptureStage (t : TribN) (r : RingN) (s : State) : Out := .next (doCaptureStage t r s)

/-- CAPTURE_FLUSH_EXPIRY (R361): flush_us after its first unit, a tributary's buffer closes. -/
def doCaptureFlushExpiry (p r index : Nat) (s : State) : State :=
  let us := s.fget (HostRingArg.arg p r) % 65536
  match (s.ring p r).caps.find? fun b => b.index == index with
  | none => s
  | some b => if s.ticks < b.openedAt + ticksOfNs ((if us = 0 then 1000 else us) * 1000) then s else s.closeCap p r 0 b false

def execCaptureFlushExpiry (p : Part) (r : RingN) (index : BitVec 16) (s : State) : Out :=
  .next (doCaptureFlushExpiry p r index.toNat s)

/-! ## Playback -/

/-- PLAYBACK_READ (R367): at its read time, the next unread units of the first buffer with any are read, at most 512 bytes at once. -/
def doPlaybackRead (p r : Nat) (s : State) : State :=
  let g := s.ring p r
  match g.plays.find? fun b => b.status == 0 && decide (b.nextGrain < s.playUnits b) with
  | none => s
  | some b =>
    if !s.ringIs p r 3 || s.fbit (HostRingStat.stopped p r) || !s.dmaOn p then s
    else
      match s.playReadAt p r b b.nextGrain with
      | none => s
      | some x =>
        if s.now < x then s
        else
          let gb := 8 * unitGrains (s.tfmt b.trib)
          let n := min (max 1 (512 / gb)) (s.playUnits b - b.nextGrain)
          match s.issueRead p r 1 (b.addr + b.nextGrain * gb) (n * gb) b.index b.nextGrain false with
          | none => s
          | some s1 =>
            let h := s1.ring p r
            s1.setRing p r { h with plays := h.plays.map fun y => if y.index = b.index then { y with nextGrain := y.nextGrain + n } else y }

def execPlaybackRead (p : Part) (r : RingN) (s : State) : Out := .next (doPlaybackRead p r s)

/-- PLAYBACK_RECORD (R368): the oldest buffer of a ring, with every unit read or given up and none of its reads in flight, gets its
record. -/
def doPlaybackRecord (p r : Nat) (s : State) : State :=
  let g := s.ring p r
  match g.plays with
  | [] => s
  | b :: bs =>
    let open' := s.reads.any fun x => x.part == p && x.ring == r && x.kind == 1 && x.buf == b.index && !x.orphan
    if (b.status = 0 ∧ b.nextGrain < s.playUnits b) ∨ open' then s
    else
      let bit (c : Bool) (i : Nat) : Nat := if c then 2 ^ i else 0
      let lt := if b.status = 0 ∨ b.status = 4 then s.tribLocal b.trib else b.trib
      let e := padEntry ([0x41] ++ leBytes 1 (bit b.late 1 + bit b.overlap 2 + bit b.hostErr 3) ++ leBytes 2 b.index ++ leBytes 1 r
        ++ leBytes 1 b.status ++ leBytes 2 lt ++ leBytes 4 b.done ++ leBytes 4 b.missed)
      let s1 := (s.setRing p r { g with plays := bs }).syncRing p r
      s1.pushRecords p (s1.fget (HostRingCfg.cpl p r)) [e] false

def execPlaybackRecord (p : Part) (r : RingN) (s : State) : Out := .next (doPlaybackRecord p r s)

end Sys2Proof.Machine
end

