-- ==== Sys2Proof/Machine/Host.lean ====
section
/-! DEFINITION. The host interface (R337 to R359, R369 to R375): starting a partition, rings, doorbells, descriptor fetch, host reads,
entries and interrupts, commands of rings and urgent commands. -/

namespace Sys2Proof.Machine

/-! ## Starting a partition (R342, R343) -/

/-- GO_SET (R343): the accepted set is evaluated; BASE must be in it and nothing outside the offer. -/
def doGoSet (m : Nat) (s : State) : State :=
  let p := viewPart m
  s.writeThen m (HostCtl.reg p) 1 fun s =>
    let inOffer := (List.range 4).all fun i => (s.rget (HostFeatAccept.reg p i)) &&& ~~~(s.rget (HostFeatOffer.reg p i)) == 0
    let ok := (s.rget (HostFeatAccept.reg p 0)).toNat.testBit 0 && inOffer
    (((s.fset (HostStat.featRes p) (if ok then 1 else 2)).fsetB (HostStat.running p) ok).fsetB (HostCtl.go p) ok).alarm

def execGoSet (m : Master) (s : State) : Out := .next (doGoSet m s)

/-- GO_CLEAR (R343): go returns to 0 only while every ring of the partition is disabled and none is busy. DESIGN CHOICE: log entry 91. -/
def doGoClear (m : Nat) (s : State) : State :=
  let p := viewPart m
  if (List.range 64).any fun r => s.fbit (HostRingCfg.en p r) || s.fbit (HostRingStat.busy p r) then s
  else s.writeThen m (HostCtl.reg p) 0 fun s => (s.fsetB (HostStat.running p) false).alarm

def execGoClear (m : Master) (s : State) : Out := .next (doGoClear m s)

/-! ## Rings (R345 to R349) -/

/-- HOST_RING_ARG holds a value outside its type's range (R345, R516). DEDUCED: log entry 73. -/
def badArg (typ v : Nat) : Bool :=
  match typ with
  | 2 => decide (65535 < v)
  | 3 => decide (v ≠ 0 ∧ (v < 2 ∨ 1000 < v))
  | 5 => decide (v / 2 ^ 28 ≠ 0 ∨ v / 2 ^ 16 % 2 ^ 8 ≠ 0 ∨ 60000 < v % 2 ^ 16)
  | _ => false

/-- An enable that R349 refuses. DEDUCED: log entry 73. -/
def State.ringRefused (s : State) (p r : Nat) : Bool :=
  let typ := s.fget (HostRingCfg.typ p r)
  let c := s.fget (HostRingCfg.cpl p r)
  let usesCpl := typ == 0 || typ == 2 || typ == 3
  let thermal := typ == 5 && p != 0 && (s.fget (HostRingArg.arg p r) / 2 ^ 24).testBit 1
  !s.fbit (HostStat.running p) || decide (5 < typ) || (typ == 5 && !s.feature p 6) || (usesCpl && (c == r || !s.ringIs p c 1))
    || badArg typ (s.fget (HostRingArg.arg p r)) || thermal

/-- RING_ENABLE (R349): a write of HOST_RING_CFG with en = 1. DEDUCED: log entry 88. -/
def doRingEnable (m r : Nat) (value : Word) (s : State) : State :=
  let p := viewPart m
  let was := s.fbit (HostRingCfg.en p r)
  s.writeThen m (HostRingCfg.reg p r) (value.toNat ||| 1) fun s =>
    if was then s
    else if s.ringRefused p r then ((s.fsetB (HostRingCfg.en p r) false).fset (HostRingStat.err p r) 4).raise p 0x0C r 4 0
    else
      let g := s.ring p r
      let g' : RingSt := { g with waiting := [], lost := 0, unsig := 0, early := [], dropped := 0, cuts := [], closing := false, halted := false
                                  telSeq := 0, telAt := s.now, paceMax := 0 }
      let s1 := ((s.setRing p r g').rset (HostRingStat.reg p r) 0).fset (HostRingHidx.hostIdx p r) 0
      s1.syncRing p r

def execRingEnable (m : Master) (r : RingN) (value : Word) (s : State) : Out := .next (doRingEnable m r value s)

/-- The staging of a capture ring, 64 us of its admitted rate, is zeroed (R437). -/
def State.freeStaging (s : State) (p r : Nat) : State :=
  s.pushZero p 0 0 0 (stagingBytes (s.captureRate (fun d => d = .capture r) (some p) 4096))

/-- RING_DISABLE (R349): a write of HOST_RING_CFG with en = 0, ignored for a completion ring that an enabled ring names. Fetched
commands go on to complete, WAIT_EPOCH with status 4; buffers close with status 4. DEDUCED: log entry 75. -/
def doRingDisable (m r : Nat) (value : Word) (s : State) : State :=
  let p := viewPart m
  let typ := s.fget (HostRingCfg.typ p r)
  let was := s.fbit (HostRingCfg.en p r)
  let named := typ == 1 && (List.range 64).any fun x =>
    (s.ringIs p x 0 || s.ringIs p x 2 || s.ringIs p x 3) && s.fget (HostRingCfg.cpl p x) == r
  if was && named then s
  else
    s.writeThen m (HostRingCfg.reg p r) (value.toNat / 2 * 2) fun s =>
      if !was then s
      else
        match typ with
        | 0 =>
          let g := s.ring p r
          let s1 := s.setRing p r { g with closing := !g.descs.isEmpty, early := [] }
          match g.descs with
          | (_, d) :: _ => if g.headBusy && leAt d 0 1 == 5 then s1.complete p r 4 0 [] [] else s1.syncRing p r
          | [] => s1.syncRing p r
        | 2 => ((s.closeAllCaps p r false).syncRing p r).freeStaging p r
        | 3 => (s.abandonPlays p r).syncRing p r
        | _ => (s.setRing p r { s.ring p r with waiting := [], unsig := 0 }).syncRing p r

def execRingDisable (m : Master) (r : RingN) (value : Word) (s : State) : Out := .next (doRingDisable m r value s)

/-! ## Urgent commands (R358, R359) -/

/-- The result of an urgent write, 0 where it is acted on. DEDUCED: log entry 79. -/
def State.urgentResult (s : State) (p w : Nat) (whole : Bool) : Nat :=
  let lo := w % 2 ^ 32
  let op := lo % 256
  let target := lo / 256 % 4096
  if !whole || w / 2 ^ 32 != 2 ^ 32 - 1 - lo then 1
  else if !s.feature p 3 then 4
  else if lo / 2 ^ 20 ≠ 0 ∨ op = 0 ∨ 3 < op then 3
  else
    let ok := match op with
      | 1 => (s.tribDevice p target).isSome
      | 2 => decide (target < 96) && s.laneOwner target == p
      | _ => decide (target < 64) && s.ringIs p target 2
    if ok then 0 else 2

/-- MUTE_LANE: the lane idles electrically while its framer runs on (R95). DEDUCED: log entry 81. -/
def State.muteLane (s : State) (n : Nat) : State := s.fsetB (LaneCfg.txIdle n) true

/-- An urgent write of a function: acted on, or ignored and logged as a bus error, and reported in HOST_URG_LOG. DEDUCED: log entry 79. -/
def State.urgent (s : State) (p w : Nat) (whole : Bool) : State :=
  let res := s.urgentResult p w whole
  let op := w % 256
  let target := w / 256 % 4096
  let log (s : State) : State := (((s.fsetB (HostUrgLog.valid p) true).fset (HostUrgLog.result p) res).fset (HostUrgLog.target p)
    target).fset (HostUrgLog.op p) op
  if res ≠ 0 then (log (s.bump .host (p * 64) 7 1)).busErr (32 + p) 7 true 2 0xF000
  else
    let s1 := match op with
      | 1 => (match s.tribDevice p target with | some t => doTribDisable t s | none => s)
      | 2 => s.muteLane target
      | _ => s.haltCapture p target
    ((log s1).bump .host (p * 64) 6 1).raise p 0x0B target (w % 2 ^ 32) 0

/-- The 64-bit word of an urgent command. -/
def urgentWord (op target : Nat) : Nat := let lo := op + target * 256; lo + (2 ^ 32 - 1 - lo) * 2 ^ 32

/-- URGENT_STOP_TRIB (R358). -/
def execUrgentStopTrib (p : Part) (target : BitVec 12) (s : State) : Out := .next (s.urgent p (urgentWord 1 target.toNat) true)

/-- URGENT_MUTE_LANE (R358). -/
def execUrgentMuteLane (p : Part) (target : BitVec 12) (s : State) : Out := .next (s.urgent p (urgentWord 2 target.toNat) true)

/-- URGENT_CAPTURE_HALT (R358). DEDUCED: log entry 80. -/
def execUrgentCaptureHalt (p : Part) (target : BitVec 12) (s : State) : Out := .next (s.urgent p (urgentWord 3 target.toNat) true)

/-- URGENT_IGNORED (R359): any 64-bit value, or a write that is not one 64-bit write, at the urgent doorbell. -/
def execUrgentIgnored (p : Part) (value : BitVec 64) (whole : Bool) (s : State) : Out := .next (s.urgent p value.toNat whole)

/-! ## The doorbell page (R339, R347) -/

/-- A doorbell write of ring r. -/
def State.doorbell (s : State) (p r v : Nat) (off : Nat) : State :=
  if !s.fbit (HostRingCfg.en p r) then (s.bump .host (p * 64) 4 1).busErr (32 + p) 6 true 2 off
  else
    let new := v % 65536
    let s1 := s.fset (HostRingHidx.hostIdx p r) new
    let dev := s1.fget (HostRingStat.devIdx p r)
    let gap := if deviceProducer (s1.fget (HostRingCfg.typ p r)) then (dev + 65536 - new) % 65536 else (new + 65536 - dev) % 65536
    if s1.ringSize p r < gap then s1.stopRing p r 3 else s1

/-- DOORBELL (R347): a write of `len` bytes to the doorbell page: a ring's doorbell, the MSI-X table, or a reserved location. The
urgent doorbell has its own commands and acts here as they do. -/
def doDoorbell (p off len v : Nat) (s : State) : State :=
  if off < 0x200 ∧ off % 8 = 0 ∧ (len = 4 ∨ len = 8) then s.doorbell p (off / 8) v off
  else if 0x8000 ≤ off ∧ off + len ≤ 0x8400 ∧ off % len = 0 ∧ (len = 4 ∨ len = 8) then
    let i := (off - 0x8000) / 4
    let q := s.part p
    let put (m : SMap Nat) (i x : Nat) : SMap Nat := SMap.putD m i (if i % 4 = 3 then 1 else 0) x
    let m1 := put q.msix i (v % 2 ^ 32)
    let s1 := s.setPart p { q with msix := if len = 8 then put m1 (i + 1) (v / 2 ^ 32) else m1 }
    if (s1.part p).msixPending.contains (i / 4) then s1.msixMsg p (i / 4) else s1
  else if off = 0xF000 then s.urgent p v (len = 8)
  else s.busErr (32 + p) 6 true 2 off

def execDoorbell (p : Part) (off : BitVec 16) (len : Nat) (value : BitVec 64) (s : State) : Out :=
  .next (doDoorbell p off.toNat len value.toNat s)

/-! ## Descriptor fetch and host reads (R346, R347, R350, R371, R372) -/

/-- DESCRIPTOR_FETCH (R347): the next descriptor of a host-producer ring is read, up to 16 ahead, while an operation and a tag are
free. -/
def doDescriptorFetch (p r : Nat) (s : State) : State :=
  let typ := s.fget (HostRingCfg.typ p r)
  let g := s.ring p r
  let flying := s.fetching p r + g.early.length
  let next := (s.fget (HostRingStat.devIdx p r) + flying) % 65536
  if !s.fbit (HostRingCfg.en p r) || deviceProducer typ || s.fbit (HostRingStat.stopped p r) || !s.dmaOn p
      || s.fget (HostRingHidx.hostIdx p r) == next || decide (16 ≤ g.heldCount + flying) || !s.opFree p then s
  else
    let base := s.fwide (HostRingBaseLo.baseLo p r) (HostRingBaseHi.baseHi p r)
    match s.issueRead p r 0 (base + 32 * (next % s.ringSize p r)) 32 0 next (typ == 0) with
    | none => s
    | some s1 => s1.fsetB (HostRingStat.busy p r) true

def execDescriptorFetch (p : Part) (r : RingN) (s : State) : Out := .next (doDescriptorFetch p r s)

/-- A descriptor read fails: the ring stops with err 1 or 2. -/
def State.fetchFailed (s : State) (x : HostRd) (err : Nat) : State :=
  if s.fbit (HostRingCfg.en x.part x.ring) && !s.fbit (HostRingStat.stopped x.part x.ring) then s.stopRing x.part x.ring err else s

/-- The frame of a SEND_FRAME command could not be read. -/
def State.frameFailed (s : State) (x : HostRd) : State :=
  if (s.ring x.part x.ring).headBusy then s.complete x.part x.ring 5 0 [] [] else s

/-- READ_COMPLETION (R371, R372): a completion for a tag: its data delivered, or an error (status 1 UR, 2 CA, 3 poisoned) answered by
what the read was for; discarded where a reset abandoned the read or its tag is quarantined. DESIGN CHOICE: log entry 193. -/
def doReadCompletion (tag status : Nat) (data : List Byte) (s : State) : State :=
  match s.reads.find? fun x => x.tag == tag with
  | some x =>
    let p := x.part
    let r := x.ring
    let s1 := s.dropRead tag
    if x.orphan then s1.bump .host (p * 64) 2 1
    else
      let s2 := s1.bump .host (p * 64) 3 (if status = 0 then 0 else 1)
      match x.kind with
      | 0 =>
        if status ≠ 0 then s2.fetchFailed x 2
        else if !s2.fbit (HostRingCfg.en p r) || s2.fbit (HostRingStat.stopped p r) then s2
        else
          let g := s2.ring p r
          (s2.setRing p r { g with early := g.early ++ [(x.first, (data ++ List.replicate 32 0).take 32)] }).takeEarly p r 16
      | 1 => s2.playData p r x data (status != 0)
      | _ =>
        if status ≠ 0 then s2.frameFailed x
        else s2.setRing p r { s2.ring p r with frame := some (data.take x.len) }
  | none =>
    match s.quarantine.find? fun e => e.1 == tag with
    | some (_, p, _) =>
      (({ s with quarantine := s.quarantine.filter fun e => e.1 != tag }).bump .host (p * 64) 1 1).aerRaise p 16
    | none => s

def execReadCompletion (tag : BitVec 14) (status : BitVec 2) (data : List Byte) (s : State) : Out :=
  .next (doReadCompletion tag.toNat status.toNat data s)

/-- READ_TIMEOUT (R371): cto_us after its issue, a read is given up: logged, reported through AER, and its tag quarantined for
4 x cto_us. -/
def doReadTimeout (tag : Nat) (s : State) : State :=
  match s.reads.find? fun x => x.tag == tag with
  | none => s
  | some x =>
    if s.ticks < x.issuedAt + ticksOfNs (x.cto * 1000) then s
    else
      let p := x.part
      let s1 := { s.dropRead tag with quarantine := s.quarantine ++ [(tag, p, s.ticks + ticksOfNs (4 * x.cto * 1000))] }
      let s2 := (((s1.fsetB (HostCtoLog.valid p) true).fset (HostCtoLog.tag p) tag).fset (HostCtoLog.ring p) x.ring).fset
        (HostCtoLog.kind p) x.kind
      let s3 := (s2.bump .host (p * 64) 0 1).aerRaise p 14
      if x.orphan then s3
      else
        match x.kind with
        | 0 => s3.fetchFailed x 1
        | 1 => s3.playLost p x.ring x
        | _ => s3.frameFailed x

def execReadTimeout (tag : BitVec 14) (s : State) : Out := .next (doReadTimeout tag.toNat s)

/-- TAG_QUARANTINE_EXPIRY (R372). -/
def doTagQuarantineExpiry (tag : Nat) (s : State) : State :=
  match s.quarantine.find? fun e => e.1 == tag with
  | none => s
  | some (_, p, until') =>
    if s.ticks < until' then s
    else ({ s with quarantine := s.quarantine.filter fun e => e.1 != tag }).bump .host (p * 64) 12 1

def execTagQuarantineExpiry (tag : BitVec 14) (s : State) : Out := .next (doTagQuarantineExpiry tag.toNat s)

/-! ## Entries and interrupts (R348, R351) -/

/-- An entry with its phase bit. -/
def withPhase (bs : List Byte) (one : Bool) : List Byte :=
  match bs with
  | a :: b :: r => a :: BitVec.ofNat 8 (b.toNat / 2 * 2 + (if one then 1 else 0)) :: r
  | _ => bs

/-- RING_ENTRY_WRITE (R348, R351): the oldest waiting entry is written where the host has left room, and the ring's interrupt goes out
where it is due. -/
def doRingEntryWrite (p r : Nat) (s : State) : State :=
  let g := s.ring p r
  let typ := s.fget (HostRingCfg.typ p r)
  let i := s.fget (HostRingStat.devIdx p r)
  let size := s.ringSize p r
  match g.waiting with
  | [] => s
  | (bs, atOnce) :: es =>
    if !s.fbit (HostRingCfg.en p r) || !deviceProducer typ || s.fbit (HostRingStat.stopped p r)
        || !s.masters p || s.fbit PwrStat.lgDone
        || decide (size ≤ (i + 65536 - s.fget (HostRingHidx.hostIdx p r)) % 65536) then s
    else
      let base := s.fwide (HostRingBaseLo.baseLo p r) (HostRingBaseHi.baseHi p r)
      let g' : RingSt := { g with waiting := es, unsig := g.unsig + 1, oldest := if g.unsig = 0 then s.ticks else g.oldest }
      let s1 := (s.setRing p r g').fset (HostRingStat.devIdx p r) (i + 1)
      let s2 := ((s1.emit (.hostWrite p (base + 32 * (i % size)) (withPhase bs (i / size % 2 = 0)) false)).syncRing p r).perfHit p 0x0A r 1
      let n := s2.fget (HostRingIrq.count p r)
      if n ≠ 0 ∧ (n ≤ g'.unsig ∨ (atOnce ∧ !(es.any fun e => e.2)) ∨ s2.sys.lastGasp) then s2.signal p (s2.fget (HostRingCfg.vector p r))
      else s2

def execRingEntryWrite (p : Part) (r : RingN) (s : State) : Out := .next (doRingEntryWrite p r s)

/-- IRQ_HOLDOFF_EXPIRY (R351): the oldest unsignalled entry is holdoff_us old. DEDUCED: log entry 76. -/
def doIrqHoldoffExpiry (p r : Nat) (s : State) : State :=
  let g := s.ring p r
  if g.unsig = 0 ∨ s.fget (HostRingIrq.count p r) = 0 ∨ s.ticks < g.oldest + ticksOfNs (s.fget (HostRingIrq.holdoffUs p r) * 1000) then s
  else s.signal p (s.fget (HostRingCfg.vector p r))

def execIrqHoldoffExpiry (p : Part) (r : RingN) (s : State) : Out := .next (doIrqHoldoffExpiry p r s)

/-! ## Commands (R354 to R357) -/

/-- NOP (R354). -/
def doNop (p r : Nat) (s : State) : State :=
  match s.headCmd p r (· == 0) with
  | none => s
  | some d => s.complete p r (if badFlags d || usedFrom d 4 then 1 else 0) 0 [] []

def execNop (p : Part) (r : RingN) (s : State) : Out := .next (doNop p r s)

/-- SEND_FRAME (R301, R354, R357): the frame is read from host memory for a port of the partition. -/
def doSendFrame (p r : Nat) (s : State) : State :=
  match s.headCmd p r (· == 4) with
  | none => s
  | some d =>
    let len := leAt d 16 2
    let port := leAt d 18 1
    if !s.feature p 5 then s.complete p r 3 0 [] []
    else if badFlags d || leAt d 4 4 != 0 || usedFrom d 19 || decide (128 ≤ port) || decide (len < 60) || decide (1514 < len) then
      s.complete p r 1 0 [] []
    else if 96 ≤ port ∨ s.laneOwner port ≠ p then s.complete p r 2 0 [] []
    else if (s.portLanes port).isNone then s.complete p r 0 1 [] []
    else
      match s.frameLimit port 1 with
      | (false, _, s1) => s1.complete p r 0 2 [] []
      | (true, _, s1) =>
        match s1.issueRead p r 2 (leAt d 8 8) len 0 0 false with
        | none => s
        | some s2 => s2.cmdBusy p r

def execSendFrame (p : Part) (r : RingN) (s : State) : Out := .next (doSendFrame p r s)

/-- FRAME_SENT (R300, R357): the frame leaves by its port, and the completion carries its transmit stamp. -/
def doFrameSent (p r : Nat) (s : State) : State :=
  let g := s.ring p r
  match g.frame, g.descs with
  | some bs, (_, d) :: _ =>
    if !g.headBusy then s
    else (s.sendFrame (leAt d 18 1) bs).complete p r 0 0 (leBytes 12 (timeWord s.now)) []
  | _, _ => s

def execFrameSent (p : Part) (r : RingN) (s : State) : Out := .next (doFrameSent p r s)

/-- WAIT_EPOCH (R356). -/
def doWaitEpoch (p r : Nat) (s : State) : State :=
  match s.headCmd p r (· == 5) with
  | none => s
  | some d =>
    let e := leAt d 4 4
    let cur := s.fget CasEpoch.epoch
    if !s.feature p 4 then s.complete p r 3 0 [] []
    else if badFlags d || usedFrom d 8 then s.complete p r 1 0 [] []
    else if e = (cur + 1) % 2 ^ 32 then s.cmdBusy p r
    else if e = cur then s.complete p r 0 1 [] []
    else (s.complete p r 0 2 [] []).stopRing p r 5

def execWaitEpoch (p : Part) (r : RingN) (s : State) : Out := .next (doWaitEpoch p r s)

/-- STOP_TRIB on a ring (R354, R358). -/
def doStopTrib (p r : Nat) (s : State) : State :=
  match s.headCmd p r (· == 6) with
  | none => s
  | some d =>
    let v := leAt d 4 2
    if badFlags d || decide (4096 ≤ v) || usedFrom d 6 then s.complete p r 1 0 [] []
    else
      match s.tribDevice p v with
      | none => s.complete p r 2 0 [] []
      | some t => (doTribDisable t s).complete p r 0 0 [] []

def execStopTrib (p : Part) (r : RingN) (s : State) : Out := .next (doStopTrib p r s)

/-- MUTE_LANE on a ring (R354, R358). DEDUCED: log entry 81. -/
def doMuteLane (p r : Nat) (s : State) : State :=
  match s.headCmd p r (· == 7) with
  | none => s
  | some d =>
    let n := leAt d 4 2
    if badFlags d || decide (128 ≤ n) || usedFrom d 6 then s.complete p r 1 0 [] []
    else if 96 ≤ n ∨ s.laneOwner n ≠ p then s.complete p r 2 0 [] []
    else (s.muteLane n).complete p r 0 0 [] []

def execMuteLane (p : Part) (r : RingN) (s : State) : Out := .next (doMuteLane p r s)

/-- CAPTURE_HALT on a ring (R354, R358). -/
def doCaptureHalt (p r : Nat) (s : State) : State :=
  match s.headCmd p r (· == 8) with
  | none => s
  | some d =>
    let n := leAt d 4 2
    if badFlags d || decide (64 ≤ n) || usedFrom d 6 then s.complete p r 1 0 [] []
    else if !s.ringIs p n 2 then s.complete p r 2 0 [] []
    else (s.haltCapture p n).complete p r 0 0 [] []

def execCaptureHalt (p : Part) (r : RingN) (s : State) : Out := .next (doCaptureHalt p r s)

/-- RESERVED_COMMAND (R354): a reserved op completes with status 1. DEDUCED: log entry 82. -/
def doReservedCommand (p r : Nat) (s : State) : State :=
  match s.headCmd p r (fun op => decide (8 < op)) with
  | none => s
  | some _ => s.complete p r 1 0 [] []

def execReservedCommand (p : Part) (r : RingN) (s : State) : Out := .next (doReservedCommand p r s)

/-! ## Function states and the link (R337, R341) -/

/-- BUS_MASTER_DISABLE (R341, R493): Bus Master Enable goes to 0, or the function enters D3hot; with every function in D3hot domain 8 goes
off once R42 permits. -/
def doBusMasterDisable (p : Nat) (d3 : Bool) (s : State) : State :=
  if d3 then
    let s1 := s.setPart p { s.part p with d3hot := true }
    s1.hostIdle
  else s.fsetB (HostStat.bme p) false

def execBusMasterDisable (p : Part) (d3hot : Bool) (s : State) : Out := .next (doBusMasterDisable p d3hot s)

/-- BUS_MASTER_ENABLE (R341): Bus Master Enable returns to 1, or the function to D0, for which domain 8 comes on after the
fabric quadrants it is routed to (R43), unless NIGHT idle is in force (R40); pending MSI-X messages go out. -/
def doBusMasterEnable (p : Nat) (d0 : Bool) (s : State) : State :=
  let s1 := if d0 then
      let s0 := s.setPart p { s.part p with d3hot := false }
      s0.onlyIf ((s.part p).d3hot && s.domOn 3) fun s =>
        (s.forEach (List.range 4) fun s q => s.onlyIf (Config.routed 8 q) fun s => s.domainOn (13 + q)).domainOn 8
    else s.fsetB (HostStat.bme p) true
  s1.forEach (s1.part p).msixPending fun s v => s.msixMsg p v

def execBusMasterEnable (p : Part) (d0 : Bool) (s : State) : Out := .next (doBusMasterEnable p d0 s)

/-- The widths of a link. -/
def linkWidth : Nat → Nat
  | 0 => 1 | 1 => 2 | 2 => 4 | 3 => 8 | _ => 16

/-- LINK_UP (R337): the link trains to L0 at a rate code of R344 and a width of 1, 2, 4, 8 or 16 lanes; 64 GT/s runs in Flit Mode.
DESIGN CHOICE: log entry 193. -/
def doLinkUp (rate width : Nat) (flit : Bool) (s : State) : State :=
  ((((s.fsetB HostLink.up true).fsetB HostLink.flit (flit || rate == 5)).fset HostLink.width (linkWidth width)).fset HostLink.rate
    (rate + 1)).alarm

def execLinkUp (rate : Fin 6) (width : Fin 5) (flit : Bool) (s : State) : Out := .next (doLinkUp rate width flit s)

end Sys2Proof.Machine
end

