-- ==== Sys2Proof/Machine/Phase.lean ====
section
/-! DEFINITION. The phases of the device (R465) and the digest engine (R470 to R473). -/

namespace Sys2Proof.Machine

/-! ## Phases -/

/-- GLB_PHASE_CTL takes its value, and the phase changes or the operation is refused. -/
def State.phaseOp (s : State) (op : Nat) (ok : Bool) (act : State → State) : State :=
  let s1 := (s.fset GlbPhaseCtl.op op).fset GlbPhase.ctlRes (if ok then 1 else 2)
  s1.onlyIf ok act

/-- DUSK (R465): DAY goes to DUSK, held until the operation DAY. -/
def doDusk (s : State) : State :=
  s.phaseOp 1 (s.fget GlbPhase.phase == 1) fun s =>
    let s1 := (s.fset GlbPhase.phase 2).fset GlbPhase.cause 3
    { s1 with sys := { s1.sys with duskHeld := true, duskSince := s1.ticks } }

def execDusk (s : State) : Out := .next (doDusk s)

/-- DAY (R465): DUSK and NIGHT go to DAY. -/
def doDay (s : State) : State :=
  s.phaseOp 2 (s.fget GlbPhase.phase == 2 || s.fget GlbPhase.phase == 3) fun s =>
    let s1 := s.fset GlbPhase.phase 1
    { s1 with sys := { s1.sys with duskHeld := false } }

def execDay (s : State) : Out := .next (doDay s)

/-- NIGHT (R465): DAY and DUSK go to NIGHT while no tributary is admitted in any partition. -/
def doNight (s : State) : State :=
  s.phaseOp 3 ((s.fget GlbPhase.phase == 1 || s.fget GlbPhase.phase == 2) && !s.anyAdmitted) fun s =>
    let s1 := s.fset GlbPhase.phase 3
    { s1 with sys := { s1.sys with duskHeld := false } }

def execNight (s : State) : Out := .next (doNight s)

/-- DUSK_HOLD_EXPIRY (R465): dusk_hold_ms without a new cause return the device to DAY, unless DUSK is held. -/
def doDuskHoldExpiry (s : State) : State :=
  let due := s.sys.duskSince + ticksOfNs (s.fget GlbPhaseCfg.duskHoldMs * 1000000)
  if s.fget GlbPhase.phase = 2 ∧ s.sys.duskHeld = false ∧ due ≤ s.ticks then s.fset GlbPhase.phase 1 else s

def execDuskHoldExpiry (s : State) : Out := .next (doDuskHoldExpiry s)

/-! ## The digest -/

/-- The bits of a register that are C or B fields. -/
def RegDesc.configMask (d : RegDesc) : Nat :=
  (d.fields.map fun f => if f.acc = .cfg ∨ f.acc = .boot then f.mask else 0).sum

/-- The key of a BAR0 word of the device view: partition 0's copy of a register that each partition has. -/
def deviceKey (a : Nat) (d : RegDesc) : Nat := if d.scope = .part then partKey 0 + a else a

/-- The bytes of word a that the digest covers, if it holds a C or B field. -/
def State.digestWord (s : State) (a : Nat) : List Byte :=
  match locate a with
  | none => []
  | some (b, _, off) =>
    match findDesc b.regs off with
    | none => []
    | some (d, _) =>
      if d.configMask = 0 then [] else leBytes 4 ((s.rget (deviceKey a d)).toNat &&& d.configMask)

/-- The bytes of a range of BAR1, with correction and poisoning as every read (R424, R425): a poisoned byte feeds stored bits without
meaning. -/
def State.digestRange (s : State) (base len : Nat) : List Byte × Bool × State :=
  (List.range len).foldl (fun (acc : List Byte × Bool × State) i =>
    let a := base + i
    let (b, found, s1) := acc.2.2.tread a
    let s2 := s1.onlyIf found fun s => s.foundUncorrectable (s.tableOwner a) 0 0 0 (BitVec.ofNat 32 a) 0 0
    match b with
    | some x => (acc.1 ++ [x], acc.2.1, s2)
    | none => let (v, s3) := s2.free 8; (acc.1 ++ [BitVec.ofNat 8 v], true, s3)) ([], false, s)

/-- The digest of a lap (R470): its value, whether it met poison, and the state after its reads. DESIGN CHOICE: log entry 110. -/
def State.digest (s : State) : Nat × Bool × State :=
  let words := ((List.range 0x100000).map fun i => s.digestWord (4 * i)).flatten
  let r := (List.range 8).foldl (fun (acc : List Byte × Bool × State) n =>
    let (bs, bad, s1) := acc.2.2.digestRange (64 * s.fget (IntegDigRngBase.base n)) (64 * s.fget (IntegDigRngLen.len n))
    (acc.1 ++ bs, acc.2.1 || bad, s1)) (words, false, s)
  (crc32c r.1, r.2)

/-- DIGEST changes (R473). DEDUCED: log entry 175. -/
def State.setDigest (s : State) (on poison : Bool) (val : Nat) : State :=
  if s.fbit IntegDigStat.digest = on then s
  else ((s.fsetB IntegDigStat.digest on).raise 0 0x0E 0 ((if on then 1 else 0) + (if poison then 2 else 0))
    (val + s.fget IntegDigRef.ref * 2 ^ 32)).alarm

/-- A completed lap with its result (R471). DEDUCED: log entry 175. -/
def State.judgeDigest (s : State) (val : Nat) (poison : Bool) : State :=
  let s1 := (((s.fset IntegDigVal.val val).fset IntegDigLap.lapUs (min (2 ^ 32 - 1) (usOfTicks (s.ticks - s.mem.digLapAt)))).stick
    IntegDigStat.poison (if poison then 1 else 0))
  let s2 := { s1 with mem := { s1.mem with digLapAt := s1.ticks } }
  if !s2.fbit IntegDigStat.committed then s2.fsetB IntegDigStat.matchLast false
  else if !poison && val == s2.fget IntegDigRef.ref then
    ({ s2 with mem := { s2.mem with digMism := 0 } }.fsetB IntegDigStat.matchLast true).setDigest false poison val
  else
    let n := s2.mem.digMism + 1
    let s3 := ({ s2 with mem := { s2.mem with digMism := n } }.fsetB IntegDigStat.matchLast false).fsetB IntegDigStat.mism true
    s3.onlyIf (decide (2 ≤ n)) fun s => s.setDigest true poison val

/-- DIGEST_LAP_END (R471): the words of the lap are taken as they stand at its end. DESIGN CHOICE: log entry 110. -/
def doDigestLapEnd (s : State) : State :=
  if !s.fbit IntegDigCfg.en || !s.domOn 5 || s.ticks = s.mem.digLapAt then s
  else let (val, poison, s1) := s.digest; s1.judgeDigest val poison

def execDigestLapEnd (s : State) : Out := .next (doDigestLapEnd s)

/-- DIGEST_COMMIT (R472): the reference is committed, and a new lap starts at once. -/
def doDigestCommit (value : Nat) (s : State) : State :=
  let s1 := (s.fset IntegDigRef.ref value).fsetB IntegDigStat.committed true
  { s1 with mem := { s1.mem with digLapAt := s1.ticks, digMism := 0 } }

def execDigestCommit (value : Word) (s : State) : Out := .next (doDigestCommit value.toNat s)

end Sys2Proof.Machine
end

