-- ==== Sys2Proof/Machine/Boot.lean ====
section
/-! DEFINITION. Resets (R374 to R377, R489 to R491), straps and authenticated boot (R481 to R488, R505), the protection map's check and
effect (R476, R477), and the last gasp (R499). -/

namespace Sys2Proof.Machine

/-! ## Resets of the whole device (R489, R491) -/

/-- The kinds of reset of the whole device: power-on; PERST_N; soft device reset and boot watchdog. -/
inductive ResetKind where
  | power | perst | soft
  deriving DecidableEq, Repr

/-- Registers copied from one state to another. -/
def State.copyRegs (new old : State) (keys : List Nat) : State := keys.foldl (fun s k => s.rset k (old.rget k)) new

/-- Registers that keep the holdover model, its figures and the PCI Express link over a soft device reset. DEDUCED: log entry 133. -/
def softKeys : List Nat :=
  [HostLink.reg, RefselHoSigma.reg, RefselHoTe.reg, RefselHoTime.reg, RefselAgeA.reg, RefselAgeB.reg, RefselAgeC.reg, RefselAgeEpoch.reg]
    ++ (List.range 8).map RefselTemp.reg

/-- What a soft device reset keeps of the timing block: device time's DCO word, the history and the holdover it is in. DEDUCED: log entry 133. -/
def TimSt.kept (t : TimSt) : TimSt :=
  { d := t.d, dAt := t.dAt, dNext := t.dNext, acc := t.acc, accAt := t.accAt, sampleAt := t.sampleAt, since := t.since
    lockedEver := t.lockedEver, lastQl := t.lastQl, lastTime := t.lastTime, hist := t.hist, predict := t.predict, hoFrom := t.hoFrom
    hoLast := t.hoLast, e0 := t.e0 }

/-- What a soft device reset keeps of a partition: its PCI Express configuration space. DEDUCED: log entry 133. -/
def PartSt.kept (q : PartSt) : PartSt := { d3hot := q.d3hot, aerStatus := q.aerStatus, aerMask := q.aerMask, msix := q.msix }

/-- What a reset keeps of pins, fuses and the EEPROM. DEDUCED: log entry 133. -/
def SysSt.kept (x : SysSt) (k : ResetKind) (ticks : Nat) : SysSt :=
  { porHeld := x.porHeld, thermalHold := x.thermalHold, clkLost := x.clkLost, fuseDbg := x.fuseDbg, fuseSecver := x.fuseSecver
    keyHash := x.keyHash, stepping := x.stepping, pinMode := x.pinMode, pinRole := x.pinRole, pinPair := x.pinPair, perstN := x.perstN
    trstN := x.trstN, pwrfailN := x.pwrfailN, ledger := x.ledger, coldPower := x.coldPower || k = .power
    wdExpiries := if k = .soft then x.wdExpiries else 0, duskSince := ticks, tjAt := ticks
    bootAt := if x.pwrfailN then some (max ticks (x.bootAt.getD ticks)) else none }

/-- The strap latches are read by what they set: the cascade role, the side of the pair and the I2C address (R306, R307, R507). -/
def State.applyStraps (s : State) : State :=
  ((s.fset CasStat.role (s.fget GlbStrap.role)).fset ProtPairStat.side (s.fget GlbStrap.pair)).fset MgmtI2cTgt.addr
    (0x4C + s.fget GlbStrap.pair)

/-- Fuses and silicon show in their registers. DESIGN CHOICE: log entry 135. -/
def State.applyFuses (s : State) : State :=
  ((s.fset GlbId.stepping s.sys.stepping).fset BootDbg.policy s.sys.fuseDbg).fset BootSecver.min s.sys.fuseSecver

/-- Domains 9 and 10 follow PERST_N, and domain 4 follows TRST_N (R41, R492). -/
def State.applyPins (s : State) : State :=
  ((s.setDom 9 s.sys.perstN).setDom 10 s.sys.perstN).setDom 4 s.sys.trstN

/-- A reset of the whole device (R489, R491): every setting returns to its reset value but those that survive this kind; class T memory is
unwritten, outputs are released (R497), host reads in flight are left to be discarded (R375), and a soft reset drops the selected
timing input (R285). DEDUCED: log entry 121. -/
def State.deviceReset (s0 : State) (k : ResetKind) : State :=
  let s := if k = .soft ∧ s0.fbit RefselStat.selValid then s0.deselect else s0
  let soft := k = .soft
  let base : State :=
    { State.reset with
        pending := s.pending, ticks := s.ticks, fresh := s.fresh, out := s.out
        clock := if soft then s.clock else 0
        sys := s.sys.kept k s.ticks
        tim := if soft then s.tim.kept else {}
        parts := if soft then (s.parts.map fun e => (e.1, e.2.kept)).filter fun e => decide (e.2 ≠ {}) else []
        reads := if k = .power then [] else s.reads.map fun x => { x with orphan := true }
        quarantine := if k = .power then [] else s.quarantine
        mem := { digLapAt := s.ticks, scrubT := { targetUs := 1000000, startedAt := s.ticks }
                 scrubB := { targetUs := 1000000, startedAt := s.ticks }, scrubD := { targetUs := 30000000, startedAt := s.ticks } } }
  let s1 := base.onlyIf (k ≠ .power) fun b =>
    ((b.copyRegs s [GlbStrap.reg]).fset MemHbmStat.dies0 (s.fget MemHbmStat.dies0)).fset MemHbmStat.dies1 (s.fget MemHbmStat.dies1)
  let s2 := s1.onlyIf soft fun b =>
    let c := b.copyRegs s softKeys
    let d := ((c.fset RefselStat.state (s.fget RefselStat.state)).fsetB RefselStat.histValid (s.fbit RefselStat.histValid)).syncQl
    d.forEach (List.range 16) fun x p => x.fset (HostStat.bme p) (s.fget (HostStat.bme p))
  let s3 := (s2.applyStraps.applyFuses.applyPins).setCoreState 0 0
  let s4 := s3.onlyIf (s.fbit ProtPairStat.wireDrive) fun s => s.emit (.claimWire false)
  s4.onlyIf s.sys.alarmLow fun s => s.emit (.alarm false)

/-- Boot starts (R485 step 1, R486): in mode 10 the loader fetches and the watchdog runs. -/
def State.bootStart (s : State) : State :=
  let s1 := s.fset BootStat.wdCount s.sys.wdExpiries
  if 3 ≤ s.sys.wdExpiries then (s1.fset BootStat.err 7).fset BootStat.stage 5
  else
    match s.sys.bootAt with
    | some t =>
      if s.fget GlbStrap.mode = 2 then { s1.fset BootStat.stage 1 with sys := { s.sys with wdStart := some t } } else s1
    | none => s1

/-- The device leaves reset in DAWN, once nothing holds it there: core 0 starts in the boot ROM. -/
def State.leaveReset (s : State) : State :=
  if s.inReset then s
  else
    let start := max s.ticks (s.sys.bootAt.getD s.ticks)
    let s1 := { s with sys := { s.sys with bootAt := if s.sys.pwrfailN then some start else none } }
    ((s1.setCore 0 { pc := startPc 0 }).setCoreState 0 1).bootStart.alarm

/-- POWER_ON_RESET (R489): a supply monitor asserts reset. -/
def doPowerOnReset (s : State) : State :=
  { s with sys := { s.sys with porHeld := true, thermalHold := false, clkLost := false } }.deviceReset .power

def execPowerOnReset (s : State) : Out := .next (doPowerOnReset s)

/-- POWER_ON_RESET_RELEASE (R481, R489): the straps are sampled and boot starts. -/
def doPowerOnResetRelease (s : State) : State :=
  if !s.sys.porHeld then s
  else
    let s1 := { s with sys := { s.sys with porHeld := false } }
    ((((s1.fset GlbStrap.mode s1.sys.pinMode).fset GlbStrap.role s1.sys.pinRole).fset GlbStrap.pair s1.sys.pinPair).applyStraps).leaveReset

def execPowerOnResetRelease (s : State) : Out := .next (doPowerOnResetRelease s)

/-- PERST_ASSERT (R489): PERST_N goes low, and the device is in reset. -/
def doPerstAssert (s : State) : State :=
  if !s.sys.perstN then s
  else
    let s1 := { s with sys := { s.sys with perstN := false } }
    if s1.sys.porHeld || s1.sys.thermalHold then s1.applyPins else s1.deviceReset .perst

def execPerstAssert (s : State) : Out := .next (doPerstAssert s)

/-- PERST_RELEASE (R489): PERST_N rises, and the device leaves reset. -/
def doPerstRelease (s : State) : State :=
  if s.sys.perstN then s
  else ({ s with sys := { s.sys with perstN := true, clkLost := false } }.applyPins).leaveReset

def execPerstRelease (s : State) : Out := .next (doPerstRelease s)

/-- SOFT_RESET (R489): the D-class write of BOOT_RESET. -/
def doSoftReset (s : State) : State := if s.inReset then s else (s.deviceReset .soft).leaveReset

def execSoftReset (s : State) : Out := .next (doSoftReset s)

/-- BOOT_WATCHDOG (R486): 120 s have passed before BOOT_DONE: a reset, and one more expiry in a row. DEDUCED: log entry 132. -/
def doBootWatchdog (s : State) : State :=
  match s.sys.wdStart with
  | none => s
  | some t =>
    if s.fbit GlbPhase.bootDone || decide (s.ticks < t + 120 * sec1) || s.inReset then s
    else ({ s with sys := { s.sys with wdExpiries := min 15 (s.sys.wdExpiries + 1) } }.deviceReset .soft).leaveReset

def execBootWatchdog (s : State) : Out := .next (doBootWatchdog s)

/-- THERMAL_TRIP (R496): the device holds itself in reset until the next power-on reset. -/
def doThermalTrip (s : State) : State := { s with sys := { s.sys with thermalHold := true } }.deviceReset .perst

def execThermalTrip (s : State) : Out := .next (doThermalTrip s)

/-- TRANSMIT_SYSTEM_CLOCK_LOST (R39): the device is in reset, until PERST_N rises or a power-on reset is released. DESIGN CHOICE: log entry 134. -/
def doTransmitSystemClockLost (s : State) : State := { s with sys := { s.sys with clkLost := true } }.deviceReset .perst

def execTransmitSystemClockLost (s : State) : Out := .next (doTransmitSystemClockLost s)

/-- TRST_N_CHANGE (R492, R537): domain 4 is on while TRST_N is high. -/
def doTrstNChange (high : Bool) (s : State) : State := { s with sys := { s.sys with trstN := high } }.setDom 4 high

def execTrstNChange (high : Bool) (s : State) : Out := .next (doTrstNChange high s)

/-! ## Resets of a partition and of the link (R375, R376) -/

/-- The registers of a range of offsets in a partition's view, or in the device view, return to their reset values. -/
def State.resetRange (s : State) (lo hi : Nat) : State := { s with regs := s.regs.filter fun e => !(decide (lo ≤ e.1 ∧ e.1 < hi)) }

/-- The HOST registers of partition p return to their reset values but the limits the map gives, and Bus Master Enable where its
configuration space is kept. -/
def State.resetHostRegs (s : State) (p : Nat) (config : Bool) : State :=
  let lim := s.rget (HostRateLim.reg p)
  let bme := s.fget (HostStat.bme p)
  let busy := s.fget (HostStat.zeroing p)
  let s1 := (s.resetRange (partKey p + 0x40000) (partKey p + 0x50000)).rset (HostRateLim.reg p) lim
  (s1.fset (HostStat.bme p) (if config then 0 else bme)).fset (HostStat.zeroing p) busy

/-- The PCI Express configuration space of function p returns to its reset values. -/
def State.resetConfig (s : State) (p : Nat) : State :=
  let q := s.part p
  s.setPart p { q with d3hot := false, aerStatus := 0, aerMask := 0, msixPending := [], msix := [] }

/-- Tributaries, windows and slicer engines of a partition are disabled and their registers reset, and their admissions end. -/
def State.clearResources (s : State) (p : Nat) : State :=
  let n := s.mget (BootMapTrib.count p)
  let b := s.mget (BootMapTrib.base p)
  let s1 := s.forEach ((List.range n).map (b + ·)) fun s t => if s.fbit (TribCfg.en t) then doTribDisable t s else s.endAdmission t
  let s2 := s1.resetRange (0x200000 + b * 0x40) (0x200000 + (b + n) * 0x40)
  let wn := s2.mget (BootMapWin.count p)
  let wb := s2.mget (BootMapWin.base p)
  let s3 := (s2.forEach ((List.range wn).map (wb + ·)) fun s w => s.setWin w {}).resetRange (0x61000 + wb * 0x40) (0x61000 + (wb + wn) * 0x40)
  s3.forEach (s3.clustersOf p) fun s c =>
    let s1 := s.forEach ((List.range 16).map (16 * c + ·)) fun s e => s.slcStop e
    let committed := (List.range 16).map fun i => s1.fget (SlcStat.committed (16 * c + i))
    let s2 := s1.resetRange (0x300000 + 16 * c * 0x100) (0x300000 + 16 * (c + 1) * 0x100)
    (committed.zipIdx).foldl (fun s e => s.fset (SlcStat.committed (16 * c + e.2)) e.1) s2

/-- Function-level reset of partition p (R375, R376): the host interface of p, its resources, the semaphores of its host side and its
zeroing, with PART_RESET to partition 0; its configuration space too, unless a change of the map causes it (R477). -/
def State.partReset (s : State) (p : Nat) (config : Bool) : State :=
  let s1 := s.forEach (List.range 64) fun s r => s.onlyIf (s.ringIs p r 2) fun s => s.freeStaging p r
  let s2 := ((s1.dropHost p).clearResources p).semAbandon (32 + p)
  let s3 := (s2.resetHostRegs p config).onlyIf config fun s => s.resetConfig p
  let s4 := s3.raise 0 0x0F p 1 0
  let busy := s4.mem.zero.any fun j => j.part == p
  let q := s4.part p
  let s5 := ((s4.setPart p { q with resetZero := busy, lostEvents := 0 }).fsetB (HostStat.zeroing p) busy).syncLoads p
  (s5.onlyIf (!busy) fun s => s.raise 0 0x0F p 2 0).alarm

/-- FUNCTION_LEVEL_RESET (R376). -/
def doFunctionLevelReset (p : Nat) (s : State) : State := s.partReset p true

def execFunctionLevelReset (p : Part) (s : State) : Out := .next (doFunctionLevelReset p s)

/-- HOT_RESET (R375, R489): the host interface of every partition is reset; tributaries, admissions, windows and slicers go on. -/
def doHotReset (s : State) : State :=
  let s1 := s.forEach (List.range 16) fun s p => (((s.dropHost p).resetHostRegs p true).resetConfig p).syncLoads p
  (s1.rset HostLink.reg 0).alarm

def execHotReset (s : State) : Out := .next (doHotReset s)

/-! ## Boot (R482 to R486) -/

/-- Boot has started: it waits while PWRFAIL_N is low, and for 10 ms after its rise (R486). -/
def State.bootStarted (s : State) : Bool := match s.sys.bootAt with | some t => decide (t ≤ s.ticks) | none => false

/-- HOST_IMAGE_GO (R482): in mode 00 a write of BOOT_HOST_IMG_GO starts the fetch, and at a cold boot the watchdog. DESIGN CHOICE: log entry 138. -/
def doHostImageGo (m : Nat) (value : Word) (s : State) : State :=
  s.writeThen m BootHostImgGo.reg value.toNat fun s =>
    let warm := s.sys.warm
    if !s.fbit BootHostImgGo.go || s.fget GlbStrap.mode != 0 || s.fget BootStat.stage != 0 || !s.bootStarted
        || (s.fbit GlbPhase.bootDone && !warm) then s
    else
      let s1 := (s.fset BootStat.stage 1).emit (.hostRead 0 (s.fwide (BootHostImg.addr 0) (BootHostImg.addr 1)) (s.fget BootHostImgLen.len)
        1024)
      if warm then s1 else { s1 with sys := { s1.sys with wdStart := some s1.ticks } }

def execHostImageGo (m : Master) (value : Word) (s : State) : Out := .next (doHostImageGo m value s)

/-- The records of an image: targets with their data, in order; whether all of them are well formed: a target in the Sepia memories, and
a count that is a multiple of 4 and stays in the image and in those memories. DEDUCED: log entry 129. -/
def bootRecords : Nat → List Byte → List (Nat × List Byte) × Bool
  | 0, _ => ([], true)
  | n + 1, bs =>
    if bs.isEmpty then ([], true)
    else
      let target := leAt bs 0 4
      let count := leAt bs 4 4
      if bs.length < 8 + count || count % 4 != 0 || decide (target < 0x400000) || decide (0x580000 < target + count) then ([], false)
      else
        let (rs, ok) := bootRecords n (bs.drop (8 + count))
        ((target, (bs.drop 8).take count) :: rs, ok)

/-- The Sepia memory a BAR1 address lies in: 2c for the instruction memory of core c, 2c + 1 for its data memory. -/
def sepMemory (a : Nat) : Nat := 2 * ((a - 0x400000) / 0xC000) + (if (a - 0x400000) % 0xC000 < 0x4000 then 0 else 1)

/-- First byte and length of a Sepia memory. -/
def sepSpan (k : Nat) : Nat × Nat := (sepBase (k / 2) + (if k % 2 = 0 then 0 else 0x4000), if k % 2 = 0 then 0x4000 else 0x8000)

/-- A record is written; a warm re-boot writes only those in core 0's memories (R488). DEDUCED: log entry 122. -/
def State.loadRecord (s : State) (r : Nat × List Byte) : State :=
  if s.sys.warm && decide (0x40C000 ≤ r.1) then s
  else
    let s1 := s.twriteN r.1 r.2
    let ms := ((List.range r.2.length).map fun i => sepMemory (r.1 + i)).eraseDups
    { s1 with sys := { s1.sys with loaded := (s1.sys.loaded ++ ms).eraseDups } }

/-- A boot fails (R486): BOOT_STAT.err is set, what the loader wrote is refilled with poison, and core 0 idles in the ROM. DEDUCED: log entry 130. -/
def State.bootFail (s : State) (err : Nat) : State :=
  let s1 := s.forEach s.sys.loaded fun s k => s.tfill (sepSpan k).1 (sepSpan k).2
  (({ s1 with sys := { s1.sys with loaded := [] } }.fset BootStat.err err).fset BootStat.stage 5).alarm

/-- The image as far as its own length reaches, where magic and length are right (R484). -/
def imageBody (bs : List Byte) : Option (List Byte) :=
  let len := leAt bs 4 4
  if bs.length < 208 || leAt bs 0 4 != 0x9600B007 || decide (len < 4096) || decide (4194304 < len) || len % 4 != 0
      || decide (bs.length < len) then none
  else some (bs.take len)

/-- The checks of step 3, in their order: key hash, secver, signature; 0 where all pass. DESIGN CHOICE: log entry 18. DESIGN CHOICE: log entry 19.
DEDUCED: log entry 129. -/
def State.authenticate (s : State) (bs : List Byte) : Nat :=
  let n := bs.length
  let key := (bs.drop 16).take 96
  if Config.sha384 key ≠ s.sys.keyHash then 4
  else if leAt bs 8 4 < s.fget BootSecver.min then 6
  else if !Config.ecdsaP384 key (Config.sha384 (bs.take (n - 96))) (bs.drop (n - 96)) then 5
  else 0

/-- IMAGE_AUTHENTICATE (R485 steps 2 to 4): the loader has read the image, or the source has timed out; records are written, the image is
checked, and core 0 jumps to its instruction memory or the boot fails. -/
def doImageAuthenticate (image : Option (List Byte)) (s : State) : State :=
  if s.fget BootStat.stage ≠ 1 ∨ !s.bootStarted then s
  else
    match image with
    | none => s.bootFail 1
    | some all =>
      match imageBody all with
      | none => s.bootFail 2
      | some bs =>
        let n := bs.length
        let (rs, ok) := bootRecords n ((bs.take (n - 96)).drop 112)
        let s1 := (rs.foldl State.loadRecord s).fset BootStat.stage 2
        if !ok then s1.bootFail 3
        else
          let e := s1.authenticate bs
          if e ≠ 0 then s1.bootFail e
          else
            let s2 := (s1.fset BootSecver.image (leAt bs 8 2)).fset BootStat.stage 3
            let s3 := { s2 with sys := { s2.sys with loaded := [] } }
            if s3.coreState 0 = 1 then s3.setCore 0 { s3.core 0 with pc := 0 } else s3

def execImageAuthenticate (image : Option (List Byte)) (s : State) : Out := .next (doImageAuthenticate image s)

/-- BOOT_REBOOT (R488): the D-class write of BOOT_REBOOT; accepted in DAY in modes 00 and 10, where it resets core 0. DEDUCED: log entry 132. -/
def doBootReboot (s : State) : State :=
  let s0 := s.fset BootReboot.req 1
  let mode := s.fget GlbStrap.mode
  if s.fget GlbPhase.phase ≠ 1 ∨ (mode ≠ 0 ∧ mode ≠ 2) then s0
  else
    let s1 := (s0.coreReset 0).coreStart 0
    let s2 := (((s1.fset BootCtl.done 0).fsetB BootStat.warm true).fset BootStat.err 0).fset BootStat.stage (if mode = 2 then 1 else 0)
    ({ s2 with sys := { s2.sys with warm := true, loaded := [], ledgerOn := false } }).alarm

def execBootReboot (s : State) : Out := .next (doBootReboot s)

/-- PWRFAIL_RISE (R486): boot, where it waits, starts 10 ms later. -/
def doPwrfailRise (s : State) : State :=
  let s1 := { s with sys := { s.sys with pwrfailN := true } }
  match s.sys.bootAt with
  | some _ => s1
  | none => ({ s1 with sys := { s1.sys with bootAt := some (s.ticks + ms10) } }).onlyIf (!s1.inReset) State.bootStart

def execPwrfailRise (s : State) : Out := .next (doPwrfailRise s)

/-! ## The protection map (R476, R477) -/

/-- A range put in its place among others, by base and then by end. -/
def insertRange (a : Nat × Nat × Nat) : List (Nat × Nat × Nat) → List (Nat × Nat × Nat)
  | [] => [a]
  | b :: bs => if a.1 < b.1 ∨ (a.1 = b.1 ∧ a.2.1 ≤ b.2.1) then a :: b :: bs else b :: insertRange a bs

/-- The first partition whose range leaves the limit or meets the range before it, in the order of the ranges. -/
def badRange (limit : Nat) (rs : List (Nat × Nat × Nat)) : Option Nat :=
  ((rs.foldr insertRange []).foldl (fun (a : Option Nat × Nat) r =>
    match a.1 with
    | some p => (some p, a.2)
    | none => if limit < r.1 + r.2.1 || decide (r.1 < a.2) then (some r.2.2, a.2) else (none, max a.2 (r.1 + r.2.1))) (none, 0)).1

/-- The partition with which a sum over the partitions passes a limit. -/
def overLimit (limit : Nat) (vs : List Nat) : Option Nat :=
  (vs.zipIdx.foldl (fun (a : Option Nat × Nat) v =>
    match a.1 with
    | some p => (some p, a.2)
    | none => if limit < a.2 + v.1 then (some v.2, a.2) else (none, a.2 + v.1)) (none, 0)).1

/-- The check of the written map: the failure's code and the partition it names (R476). DEDUCED: log entry 113. -/
def State.checkMap (s : State) : Option (Nat × Nat) :=
  let ps := List.range 16
  let ranges (base count : Nat → Nat) := (ps.map fun p => (base p, count p, p)).filter fun r => r.2.1 != 0
  match badRange 4096 (ranges (fun p => s.fget (BootMapTrib.base p)) (fun p => s.fget (BootMapTrib.count p))) with
  | some p => some (1, p)
  | none =>
    match badRange 256 (ranges (fun p => s.fget (BootMapWin.base p)) (fun p => s.fget (BootMapWin.count p))) with
    | some p => some (2, p)
    | none =>
      match overLimit 12288 (ps.map fun p => s.fget (BootMapPages.pages p)) with
      | some p => some (3, p)
      | none =>
        match overLimit 20480 (ps.map fun p => s.fget (BootMapDeep.s0 p)) with
        | some p => some (4, p)
        | none => (overLimit 20480 (ps.map fun p => s.fget (BootMapDeep.s1 p))).map fun p => (4, p)

/-- The grants of a partition under the map in force. DEDUCED: log entry 131. -/
def State.grants (s : State) (p : Nat) : List Nat :=
  [(s.mword (BootMapTrib.reg p)).toNat, (s.mword (BootMapWin.reg p)).toNat, (s.mword (BootMapPages.reg p)).toNat,
   (s.mword (BootMapDeep.reg p)).toNat, (s.mword (BootMapRate.reg p)).toNat]
  ++ (List.range 24).map (fun g => if s.groupOwner g = p then 1 else 0)
  ++ (List.range 16).map (fun c => if s.clusterOwner c = p then 1 else 0)
  ++ (List.range 64).map (fun i => if s.semOwner? i = some p then 1 else 0)

/-- Pages and granules that a partition's share gains from others are zeroed (R437). -/
def State.zeroGained (old s : State) (p : Nat) : State :=
  let gain (st : Nat) : Nat := s.shareGranules p st - old.shareGranules p st
  ((s.pushZero p (s.mget (BootMapPages.pages p) - old.mget (BootMapPages.pages p)) 0 0 0).pushZero p 0 (gain 0) 0 0).pushZero p 0 (gain 1) 1 0

/-- The registers that show a partition's grants follow the map in force. -/
def State.showGrants (s : State) (p : Nat) : State :=
  ((s.fset (GlbCap2.tribs p) (s.mget (BootMapTrib.count p))).rset (HostRateLim.reg p) (s.mword (BootMapRate.reg p))).syncLoads p

/-- A checked map takes effect: a partition whose grants change is reset first, and what moves between shares of a running device is
zeroed. DEDUCED: log entry 113. DEDUCED: log entry 131. -/
def State.activateMap (s : State) (warm : Bool) : State :=
  let map := s.regs.filter fun e => decide (0x11000 ≤ e.1 ∧ e.1 < 0x112F0)
  let next := { s with sys := { s.sys with mapInForce := map } }
  let changed := (List.range 16).filter fun p => decide (s.grants p ≠ next.grants p)
  let s1 := s.forEach changed fun s p => s.partReset p false
  let s2 := { s1 with sys := { s1.sys with mapInForce := map } }
  let s3 := s2.onlyIf warm fun x => x.forEach changed fun x p => State.zeroGained s1 x p
  s3.forEach (List.range 16) State.showGrants

/-- In mode 01 the ROM firmware switches on and enables every lane in auto mode (R483). DEDUCED: log entry 136. -/
def State.standAlone (s : State) : State :=
  (doOn 112 s).forEach (List.range 24) fun s g =>
    let s1 := (doOn g s).fset (GrpCfg.mode g) 2
    let s2 := s1.forEach (List.range 4) fun s i => s.fsetB (LaneCfg.en (4 * g + i)) true
    (s2.fsetB (GrpCfg.en g) true).groupUp g

/-- BOOT_DONE (R485 step 5, R488): core 0 writes BOOT_CTL.done at a cold boot or in a warm re-boot; the map is checked and takes effect or
not. Mode 11 requests NIGHT, and mode 01 starts the stand-alone regenerator. DEDUCED: log entry 130. DEDUCED: log entry 136. -/
def doBootDone (s : State) : State :=
  let warm := s.sys.warm
  if s.fbit GlbPhase.bootDone && !warm then s
  else
    let s1 := (s.fset BootCtl.done 1).fsetB GlbPhase.bootDone true
    let s2 := { s1 with sys := { s1.sys with wdStart := none, wdExpiries := 0, warm := false } }.fset BootStat.wdCount 0
    match s2.checkMap with
    | some (e, p) =>
      let s3 := ((s2.fset BootMapStat.err e).fset BootMapStat.part p).onlyIf (!warm) fun s => s.fsetB BootMapStat.inForce false
      ((s3.fset BootStat.err 8).fset BootStat.stage 5).syncPace.alarm
    | none =>
      let s3 := ((s2.fset BootMapStat.err 0).fset BootMapStat.part 0).fsetB BootMapStat.inForce true
      let s4 := ((s3.activateMap warm).fset BootStat.stage 4).fset BootStat.err 0
      let s5 := (s4.onlyIf (!warm) fun s => s.fset GlbPhase.phase 1).syncPace
      let mode := s.fget GlbStrap.mode
      let s6 := s5.onlyIf (mode == 1 && !warm) State.standAlone
      (s6.onlyIf (mode == 3 && !warm) doNight).alarm

def execBootDone (s : State) : Out := .next (doBootDone s)

/-! ## The last gasp (R377, R499) -/

/-- Every waiting entry of a ring that the host has room for is written, and the ring is signalled. DEDUCED: log entry 137. -/
def State.flushRing (s : State) (p r : Nat) : State :=
  (List.range (s.ring p r).waiting.length).foldl (fun s _ => doRingEntryWrite p r s) s

/-- A LAST_GASP event on every event ring of a partition that takes its kind. DEDUCED: log entry 137. -/
def State.gaspEvent (s : State) (p : Nat) : State :=
  let data1 := s.fget CasEpoch.epoch + s.fget IntegDigVal.val * 2 ^ 32 + s.sys.powerOns % 2 ^ 32 * 2 ^ 64
  s.forEach (s.eventRings p 0x10) fun s r =>
    s.pushEvent p r s.now [eventEntry 0x10 0 (1 + s.fget RefselStat.state * 2) s.now data1]

/-- The buffers being filled by a ring are dropped without a record. -/
def State.dropCaps (s : State) (k : Nat) : State :=
  let g := s.ring (k / 64) (k % 64)
  s.setRing (k / 64) (k % 64) { g with caps := [] }

/-- LAST_GASP (R499): PWRFAIL_N has been low for 100 ns: alarm and claim wire, the host interface's last writes (R377), the cascade's
last message, then lg_done. DEDUCED: log entry 137. -/
def doLastGasp (s : State) : State :=
  let waits := if s.bootStarted && !s.inReset then s.sys.bootAt else none
  if s.inReset || s.sys.lastGasp then { s with sys := { s.sys with pwrfailN := false, bootAt := waits } }
  else
    let x := { s.sys with lastGasp := true, gaspTime := s.now, pwrfailN := false, bootAt := waits }
    let s1 := ({ s with sys := { x with wdStart := if waits.isSome then x.wdStart else none } }.alarm).driveWire false
    let s2 := (s1.forEach (s1.rings.map Prod.fst) State.dropCaps).forEach (s1.tribs.map Prod.fst) fun s t =>
      let r := s.trib t
      s.setTrib t { r with egress := r.egress.filter fun x => !isCaptureDest x.dest }
    let flush (s : State) : State := s.forEach (s.rings.map Prod.fst) fun s k => s.flushRing (k / 64) (k % 64)
    let s5 := flush ((flush s2).forEach (List.range 16) State.gaspEvent)
    let t := timeWord s1.sys.gaspTime
    let s6 := s5.onlyIf (s5.fbit CasCfg.en) fun s =>
      s.casSendBoth 9 true 0 [0x4C47 * 2 ^ 16 + s.fget CasCfg.devId, t % 2 ^ 32, t / 2 ^ 32 % 2 ^ 32, t / 2 ^ 64]
    s6.fsetB PwrStat.lgDone true

def execLastGasp (s : State) : Out := .next (doLastGasp s)

end Sys2Proof.Machine
end

