-- ==== Sys2Proof/Machine/Flags.lean ====
section
/-! DEFINITION. What a Sepia core computes as conditions (comparisons, R390), and its status and control registers (R388). -/

namespace Sys2Proof.Machine

/-! ## Comparisons -/

/-- ra < rb as signed numbers. -/
def ltSigned (a b : Word) : Bool := BitVec.slt a b

/-- ra < rb as unsigned numbers. -/
def ltUnsigned (a b : Word) : Bool := BitVec.ult a b

/-- A condition as the result of SLT or SLTU. -/
def flagWord (b : Bool) : Word := if b then 1 else 0

/-! ## Control and status registers -/

/-- STATUS: ie, pie, in_trap, in_atom, atom_abort. -/
def CoreSt.status (q : CoreSt) : Word :=
  let b (x : Bool) (i : Nat) : Nat := if x then 2 ^ i else 0
  BitVec.ofNat 32 (b q.ie 0 + b q.pie 1 + b q.inTrap 2 + b q.atom.isSome 3 + b q.atomAbort 4)

/-- CSR n of core c; none where the number is not listed. DEDUCED: log entry 162. -/
def CoreSt.csr (q : CoreSt) (c n : Nat) : Option Word :=
  match n with
  | 0x00 => some q.status
  | 0x01 => some q.cause
  | 0x02 => some q.epc
  | 0x03 => some q.tval
  | 0x04 => some q.tvec
  | 0x05 => some (BitVec.ofNat 32 q.ieMask)
  | 0x06 => some (BitVec.ofNat 32 q.evpend)
  | 0x07 => some (BitVec.ofNat 32 q.tickUs)
  | 0x08 => some (BitVec.ofNat 32 c)
  | 0x09 => some q.steps
  | 0x0A => some q.scratch0
  | 0x0B => some q.scratch1
  | _ => none

/-- The last instant at or before a time whose nanoseconds are a whole multiple of the tick period, counted in each second anew.
DEDUCED: log entry 164. -/
def tickInstant (tickUs now : Nat) : Nat :=
  let sec := 65536000000000
  let per := tickUs * 65536000
  now / sec * sec + now % sec / per * per

/-- A write of CSR n at time now: read-only CSRs and bits ignore it; atom_abort is cleared by 0, a pending event by 1; a tick period over
1,000,000 is not defined and leaves the register unchanged. None where the number is not listed. DEDUCED: log entry 163. -/
def CoreSt.setCsr (q : CoreSt) (n : Nat) (v : Word) (now : Nat) : Option CoreSt :=
  match n with
  | 0x00 => some { q with ie := v.toNat.testBit 0, pie := v.toNat.testBit 1, atomAbort := q.atomAbort && v.toNat.testBit 4 }
  | 0x01 | 0x08 | 0x09 => some q
  | 0x02 => some { q with epc := v }
  | 0x03 => some { q with tval := v }
  | 0x04 => some { q with tvec := v &&& ~~~3 }
  | 0x05 => some { q with ieMask := v.toNat % 128 }
  | 0x06 => some { q with evpend := q.evpend - (q.evpend &&& v.toNat % 128) }
  | 0x07 =>
    let t := v.toNat % 2 ^ 20
    some (if t ≤ 1000000 then { q with tickUs := t, lastTick := tickInstant t now } else q)
  | 0x0A => some { q with scratch0 := v }
  | 0x0B => some { q with scratch1 := v }
  | _ => none

end Sys2Proof.Machine
end

