-- ==== Sys2Proof/Machine/Mailbox.lean ====
section
/-! DEFINITION. Mailboxes (R456 to R458) with their items, and the reads with a side effect (R18). -/

namespace Sys2Proof.Machine

/-! ## Mailboxes -/

/-- A 48-bit counter as the value words of its mailbox. -/
def counterWords (v : Nat) : List Word := [BitVec.ofNat 32 v, BitVec.ofNat 32 (v / 2 ^ 32)]

/-- A time as three value words. DESIGN CHOICE: log entry 143. -/
def timeWords (t : Nat) : List Word :=
  let w := timeWord t
  [BitVec.ofNat 32 w, BitVec.ofNat 32 (w / 2 ^ 32), BitVec.ofNat 32 (w / 2 ^ 64)]

/-- The device number of a tributary that a master names: local to a host side's partition. DEDUCED: log entry 144. -/
def State.namedTrib (s : State) (m x : Nat) : Option Nat :=
  if isHost m then s.tribDevice (viewPart m) x else if x < 4096 then some x else none

/-- The register of a mailbox's request, its width in bits, and whether an item it names is defined: the encodings that R106, R168, R170,
R175, R238, R253, R336, R378 and R446 leave are reserved. DEDUCED: log entry 144. -/
def State.mailDefined (s : State) (m : Nat) (b : Mailbox) (w : Nat) : Bool :=
  let i := w % 64
  let named := (s.namedTrib m (w / 2 ^ 16 % 2 ^ 12)).isSome
  match b with
  | .timeRd => decide (w % 8 ≤ 3)
  | .timeLag => (s.namedTrib m (w % 2 ^ 12)).isSome
  | .tribCnt => named && decide (i ≤ 13 ∨ (16 ≤ i ∧ i ≤ 23))
  | .laneCnt _ => decide (i ≤ 20 ∨ (32 ≤ i ∧ i ≤ 40))
  | .slcCnt _ => decide (i ≤ 11)
  | .protCnt => named && decide (i ≤ 12)
  | .hostCnt => decide (i ≤ 12)
  | .casCnt => decide (i ≤ 11)
  | .memCnt => decide (i ≤ 18)
  | .perfCnt | .dcoRd => true

/-- The bits of a mailbox's request register that are not reserved. -/
def mbxMask : Mailbox → Nat
  | .timeRd => 0x7
  | .timeLag => 0xFFF
  | .tribCnt | .protCnt => 0xFFF003F
  | .laneCnt _ | .slcCnt _ | .memCnt => 0x3F
  | .hostCnt => 0xFFF
  | .casCnt => 0x13F
  | .perfCnt => 0xF
  | .dcoRd => 0x1

/-- What a snapshot holds: its value words, whether the item has not occurred (R170), and the state after open values were drawn.
DESIGN CHOICE: log entry 143. -/
def State.mailItem (s : State) (m : Nat) (b : Mailbox) (w : Nat) : List Word × Bool × State :=
  let i := w % 64
  let t := (s.namedTrib m (w / 2 ^ 16 % 2 ^ 12)).getD 0
  let p := viewPart m
  let edge (e : Option Nat) : List Word × Bool × State :=
    match e with
    | some t => (timeWords t, false, s)
    | none =>
      let (a, s1) := s.free 32
      let (b, s2) := s1.free 32
      let (c, s3) := s2.free 32
      ([BitVec.ofNat 32 a, BitVec.ofNat 32 b, BitVec.ofNat 32 c], true, s3)
  match b with
  | .timeRd =>
    match w % 8 with
    | 0 => let (x, s1) := s.stamp; (timeWords x, false, s1)
    | 1 => edge s.tim.ppsOut0
    | 2 => edge s.tim.ppsIn0
    | _ => edge s.tim.ppsIn1
  | .timeLag => ([], false, s)
  | .tribCnt => (counterWords (s.ctr .trib t i), false, s)
  | .laneCnt n => (counterWords (s.ctr .lane n i), false, s)
  | .slcCnt e => (counterWords (s.ctr .slc e i), false, s)
  | .protCnt => (counterWords (s.ctr .prot t i), false, s)
  | .hostCnt => (counterWords (s.ctr .host (p * 64 + (if 8 ≤ i ∧ i ≤ 10 then w / 64 % 64 else 0)) i), false, s)
  | .casCnt => (counterWords (s.ctr .cas (w / 256 % 2) i), false, s)
  | .memCnt => (counterWords (s.ctr .mem 0 i), false, s)
  | .perfCnt => (counterWords (s.ctr .perf p (w % 16)), false, s)
  | .dcoRd => (BitVec.ofInt 32 s.tim.d :: BitVec.ofNat 32 (ofSigned 40 s.tim.d / 2 ^ 32) :: timeWords s.tim.dAt, false, s)

/-- A lag in 2^-16 ns as a count of ns, rounded down or up, saturated to 32 bits (R175). DEDUCED: log entry 145. -/
def lagNs (up : Bool) (v : Int) : Word :=
  let q := if up then -((-v) / 65536) else v / 65536
  BitVec.ofInt 32 (max (-2147483648) (min 2147483647 q))

/-- The lag probe of a tributary is snapshot and its tracking restarts (R175); without an observed unit the snapshot never becomes
valid. DEDUCED: log entry 145. -/
def State.lagProbe (s : State) (m w : Nat) : State :=
  let t := (s.namedTrib m (w % 2 ^ 12)).getD 0
  let r := s.trib t
  let x := s.mailOf m .timeLag
  let x1 : Mail := match r.lag with
    | none => { x with req := w, valid := false, waiting := false }
    | some (lo, hi) => { x with req := w, words := [lagNs false lo, lagNs true hi], valid := false, waiting := true }
  (s.setMail m .timeLag x1).setTrib t { r with lag := none }

/-- A request (R457): valid is cleared and the item's snapshot is taken at the write. A request of 0 to REFSEL_DCO_RD_REQ takes none.
DEDUCED: log entry 142. -/
def State.mailTake (s : State) (m : Nat) (b : Mailbox) (w0 : Nat) : State :=
  let w := w0 &&& mbxMask b
  match b with
  | .timeLag => s.lagProbe m w
  | _ =>
    let x := s.mailOf m b
    if b = .dcoRd ∧ w = 0 then s.setMail m b { x with req := 0 }
    else
      let (ws, miss, s1) := s.mailItem m b w
      s1.setMail m b { req := w, words := ws, none := miss, valid := false, waiting := true }

/-- MAILBOX_REQUEST (R457): a write of a mailbox's request register; an item that is not defined is a reserved encoding. -/
def doMailboxRequest (m : Nat) (b : Mailbox) (req : Word) (s : State) : State :=
  let key := mailboxKey (viewPart m) b
  s.access m key true fun s =>
    if s.mailDefined m b (req.toNat &&& mbxMask b) then s.mailTake m b req.toNat
    else s.busErr m 3 true 0 (s.viewOff m key)

def execMailboxRequest (m : Master) (mbx : Mailbox) (req : Word) (s : State) : Out := .next (doMailboxRequest m mbx req s)

/-- LAG_PROBE_REQUEST (R175). -/
def execLagProbeRequest (m : Master) (req : Word) (s : State) : Out := .next (doMailboxRequest m .timeLag req s)

/-- MAILBOX_SNAPSHOT_READY (R457): valid becomes 1. DEDUCED: log entry 142. -/
def doMailboxSnapshotReady (m : Nat) (b : Mailbox) (s : State) : State :=
  let x := s.mailOf m b
  if x.waiting then s.setMail m b { x with valid := true, waiting := false } else s

def execMailboxSnapshotReady (m : Master) (mbx : Mailbox) (s : State) : Out := .next (doMailboxSnapshotReady m mbx s)

/-- The number of value words of a mailbox. -/
def mbxCount : Mailbox → Nat
  | .timeRd => 3 | .dcoRd => 5 | _ => 2

/-- Value word i of a master's snapshot; 0 before any snapshot. -/
def State.mailWord (s : State) (m : Nat) (b : Mailbox) (i : Nat) : Word := ((s.mailOf m b).words[i]?).getD 0

/-- A read of a value word: that of the highest-numbered clears valid, unless the master peeks (R457). -/
def State.mailRead (s : State) (m : Nat) (b : Mailbox) (i : Nat) : State :=
  if i + 1 = mbxCount b ∧ !s.peeks m then s.setMail m b { s.mailOf m b with valid := false } else s

/-- MAILBOX_LAST_READ (R457). -/
def doMailboxLastRead (m : Nat) (b : Mailbox) (s : State) : State :=
  s.access m (mailboxKey (viewPart m) b) false fun s =>
    (s.mailRead m b (mbxCount b - 1)).emit (.readData m (s.mailWord m b (mbxCount b - 1)))

def execMailboxLastRead (m : Master) (mbx : Mailbox) (s : State) : Out := .next (doMailboxLastRead m mbx s)

/-! ## Reads with a side effect -/

/-- A read of a register whose read has the side effect `after`, free of it for a master that peeks (R18). DEDUCED: log entry 190. -/
def State.rsRead (s : State) (m key : Nat) (after : State → State) : State :=
  s.access m key false fun s => (s.onlyIf (!s.peeks m) after).emit (.readData m (s.rget key))

/-- LANE_DEF_IVL shows again only what is present now, after the read of the core that serves the lane (R114). DEDUCED: log entry 190. -/
def State.ivlRead (s : State) (m n : Nat) : State :=
  if m = laneCore n then s.fset (LaneDefIvl.ivl n) (s.fget (LaneDef.defs n)) else s

/-- LANE_DEF_IVL_READ (R114). -/
def doLaneDefIvlRead (m n : Nat) (s : State) : State := s.rsRead m (LaneDefIvl.reg n) (·.ivlRead m n)

def execLaneDefIvlRead (m : Master) (lane : Lane) (s : State) : Out := .next (doLaneDefIvlRead m lane s)

/-- LANE_DSK_STAT keeps fill_min and fill_max from the current fill on (R93). -/
def State.dskRead (s : State) (n : Nat) : State :=
  let f := s.fget (LaneDskStat.fill n)
  (s.fset (LaneDskStat.fillMin n) f).fset (LaneDskStat.fillMax n) f

/-- DESKEW_STAT_READ (R93). -/
def doDeskewStatRead (m n : Nat) (s : State) : State := s.rsRead m (LaneDskStat.reg n) (·.dskRead n)

def execDeskewStatRead (m : Master) (lane : Lane) (s : State) : Out := .next (doDeskewStatRead m lane s)

/-- ETH_UNMATCHED_READ (R167). -/
def doEthUnmatchedRead (m n : Nat) (s : State) : State := s.rsRead m (LaneEthUnm.reg n) (·.fset (LaneEthUnm.count n) 0)

def execEthUnmatchedRead (m : Master) (lane : Lane) (s : State) : Out := .next (doEthUnmatchedRead m lane s)

/-- ACTION_MISS_READ (R182). -/
def doActionMissRead (m : Nat) (s : State) : State :=
  s.rsRead m (TimeActMiss.reg (viewPart m)) (·.fset (TimeActMiss.count (viewPart m)) 0)

def execActionMissRead (m : Master) (s : State) : Out := .next (doActionMissRead m s)

/-- URGENT_LOG_READ (R344): the read clears valid. -/
def doUrgentLogRead (m : Nat) (s : State) : State :=
  s.rsRead m (HostUrgLog.reg (viewPart m)) (·.fset (HostUrgLog.valid (viewPart m)) 0)

def execUrgentLogRead (m : Master) (s : State) : Out := .next (doUrgentLogRead m s)

/-- CTO_LOG_READ (R344): the read clears valid. -/
def doCtoLogRead (m : Nat) (s : State) : State :=
  s.rsRead m (HostCtoLog.reg (viewPart m)) (·.fset (HostCtoLog.valid (viewPart m)) 0)

def execCtoLogRead (m : Master) (s : State) : Out := .next (doCtoLogRead m s)

/-- MEM_LOG_READ (R445): a read of MEM_LOG_1 clears MEM_LOG_0.valid, and with it the alarm source. -/
def doMemLogRead (m : Nat) (s : State) : State := s.rsRead m MemLog1.reg fun s => (s.fset MemLog0.valid 0).alarm

def execMemLogRead (m : Master) (s : State) : Out := .next (doMemLogRead m s)

/-- The log of bus errors or of failed D pairs is free for the next (R461). -/
def State.logRead (s : State) (p : Nat) (dw : Bool) : State :=
  if dw then s.fset (IntegDwlog0.word p) (s.fget (IntegDwlog0.word p) % 2 ^ 15) else s.fset (IntegBuserr0.valid p) 0

/-- BUSERR_LOG_READ (R461): a read of INTEG_BUSERR_1 or INTEG_DWLOG_1 clears valid. -/
def doBuserrLogRead (m : Nat) (dw : Bool) (s : State) : State :=
  let p := viewPart m
  s.rsRead m (if dw then IntegDwlog1.reg p else IntegBuserr1.reg p) (·.logRead p dw)

def execBuserrLogRead (m : Master) (dw : Bool) (s : State) : Out := .next (doBuserrLogRead m dw s)

/-- ERROR_COUNT_READ (R479). DEDUCED: log entry 190. -/
def doErrorCountRead (m : Nat) (dw : Bool) (s : State) : State :=
  let p := viewPart m
  let r := if dw then IntegDwlogCnt.count p else IntegBuserrCnt.count p
  s.rsRead m r.key (·.fset r 0)

def execErrorCountRead (m : Master) (dw : Bool) (s : State) : Out := .next (doErrorCountRead m dw s)

/-- FIFO_COUNT_READ (R422): the read clears all three fields. -/
def doFifoCountRead (m c : Nat) (s : State) : State := s.rsRead m (SepFifoCnt.reg c) (·.rset (SepFifoCnt.reg c) 0)

def execFifoCountRead (m : Master) (c : CoreN) (s : State) : Out := .next (doFifoCountRead m c s)

/-- VT_STAT_READ (R518): the read clears lost and skipped. -/
def doVtStatRead (m : Nat) (s : State) : State :=
  let p := viewPart m
  s.rsRead m (PerfVtStat.reg p) fun s => (s.fset (PerfVtStat.lost p) 0).fset (PerfVtStat.skipped p) 0

def execVtStatRead (m : Master) (s : State) : Out := .next (doVtStatRead m s)

/-- PACE_EXTREME_READ (R518): the read sets the extreme to the current pace. -/
def doPaceExtremeRead (m : Nat) (max : Bool) (s : State) : State :=
  let r := if max then PerfPaceMax.period else PerfPaceMin.period
  s.rsRead m r.key fun s => s.fset r (s.fget PerfPaceNow.period)

def execPaceExtremeRead (m : Master) (max : Bool) (s : State) : Out := .next (doPaceExtremeRead m max s)

end Sys2Proof.Machine
end

