-- ==== Sys2Proof/Machine/Access.lean ====
section
/-! DEFINITION. Accesses of a master to the control bus (R447 to R461): which register an offset names in its view, what a read
returns, what a write does, the D-class pairs, and the tables of BAR1. -/

namespace Sys2Proof.Machine

/-- A register that an offset names: its block, device number, description, array index and key. -/
structure RegAt where
  block : Block
  inst : Nat
  desc : RegDesc
  idx : Nat
  key : Nat
  deriving DecidableEq, Repr

/-- The register at an offset of a master's view; none where the location is reserved (R448). -/
def State.resolve (s : State) (m off : Nat) : Option RegAt :=
  match locate off with
  | none => none
  | some (b, x, o) =>
    match findDesc b.regs o, (if isHost m then s.toDevice (viewPart m) b x else some x) with
    | some (d, i), some inst =>
      let key := match d.scope with
        | .part => partKey (viewPart m) + off
        | _ => off - x * b.pitch + inst * b.pitch
      if s.reaches m key then some ⟨b, inst, d, i, key⟩ else none
    | _, _ => none

/-- The mailbox that a register belongs to, with its place: 0 the request, 1 the status, 2 and up the value words. -/
def mailboxAt (name : String) (inst : Nat) : Option (Mailbox × Nat) :=
  match name with
  | "TIME_RD_REQ" => some (.timeRd, 0)
  | "TIME_RD_STAT" => some (.timeRd, 1)
  | "TIME_RD_0" => some (.timeRd, 2)
  | "TIME_RD_1" => some (.timeRd, 3)
  | "TIME_RD_2" => some (.timeRd, 4)
  | "TIME_LAG_REQ" => some (.timeLag, 0)
  | "TIME_LAG_STAT" => some (.timeLag, 1)
  | "TIME_LAG_MIN" => some (.timeLag, 2)
  | "TIME_LAG_MAX" => some (.timeLag, 3)
  | "TRIB_CNT_REQ" => some (.tribCnt, 0)
  | "TRIB_CNT_STAT" => some (.tribCnt, 1)
  | "TRIB_CNT_LO" => some (.tribCnt, 2)
  | "TRIB_CNT_HI" => some (.tribCnt, 3)
  | "LANE_CNT_REQ" => some (.laneCnt (Fin.ofNat 100 inst), 0)
  | "LANE_CNT_STAT" => some (.laneCnt (Fin.ofNat 100 inst), 1)
  | "LANE_CNT_LO" => some (.laneCnt (Fin.ofNat 100 inst), 2)
  | "LANE_CNT_HI" => some (.laneCnt (Fin.ofNat 100 inst), 3)
  | "SLC_CNT_REQ" => some (.slcCnt (Fin.ofNat 256 inst), 0)
  | "SLC_CNT_STAT" => some (.slcCnt (Fin.ofNat 256 inst), 1)
  | "SLC_CNT_LO" => some (.slcCnt (Fin.ofNat 256 inst), 2)
  | "SLC_CNT_HI" => some (.slcCnt (Fin.ofNat 256 inst), 3)
  | "PROT_CNT_REQ" => some (.protCnt, 0)
  | "PROT_CNT_STAT" => some (.protCnt, 1)
  | "PROT_CNT_LO" => some (.protCnt, 2)
  | "PROT_CNT_HI" => some (.protCnt, 3)
  | "HOST_CNT_REQ" => some (.hostCnt, 0)
  | "HOST_CNT_STAT" => some (.hostCnt, 1)
  | "HOST_CNT_LO" => some (.hostCnt, 2)
  | "HOST_CNT_HI" => some (.hostCnt, 3)
  | "CAS_CNT_REQ" => some (.casCnt, 0)
  | "CAS_CNT_STAT" => some (.casCnt, 1)
  | "CAS_CNT_LO" => some (.casCnt, 2)
  | "CAS_CNT_HI" => some (.casCnt, 3)
  | "MEM_CNT_REQ" => some (.memCnt, 0)
  | "MEM_CNT_STAT" => some (.memCnt, 1)
  | "MEM_CNT_LO" => some (.memCnt, 2)
  | "MEM_CNT_HI" => some (.memCnt, 3)
  | "PERF_CNT_REQ" => some (.perfCnt, 0)
  | "PERF_CNT_STAT" => some (.perfCnt, 1)
  | "PERF_CNT_LO" => some (.perfCnt, 2)
  | "PERF_CNT_HI" => some (.perfCnt, 3)
  | "REFSEL_DCO_RD_REQ" => some (.dcoRd, 0)
  | "REFSEL_DCO_RD_STAT" => some (.dcoRd, 1)
  | "REFSEL_DCO_RD_0" => some (.dcoRd, 2)
  | "REFSEL_DCO_RD_1" => some (.dcoRd, 3)
  | "REFSEL_DCO_RD_2" => some (.dcoRd, 4)
  | "REFSEL_DCO_RD_3" => some (.dcoRd, 5)
  | "REFSEL_DCO_RD_4" => some (.dcoRd, 6)
  | _ => none

/-! ## Reads -/

/-- A word whose bit i says f (base + i), for i below 32. -/
def bitmap (base : Nat) (f : Nat → Bool) : Nat := ((List.range 32).map fun i => if f (base + i) then 2 ^ i else 0).sum

/-- Words of an overhead FIFO that its reader sees: the true figure less a synchroniser lag of 0 to 3, but at least those announced by
NOTICE (R410, R411). DESIGN CHOICE: log entry 166. -/
def State.fifoAvail (s : State) (g : Nat) : Nat × State :=
  let (lag, s1) := s.free 2
  let q := s.group g
  (max (q.noticed - q.rd) (q.wr - q.rd - lag), s1)

/-- TRIB_STAT.receiving (R127): a good head block within two multiframe durations, or a unit within the longer of two multiframes of
KLF-200 and two units. -/
def State.tribReceiving (s : State) (t : Nat) : Bool :=
  let r := s.trib t
  let src := s.fget (TribCfg.src t)
  let within (e : Option Nat) (d : Nat) : Bool := match e with | some x => decide (s.now < x + d) | none => false
  let copy (c : CopySt) : Bool :=
    within c.lastGoodHead (2 * mfFifths (match c.lane with | some n => s.fget (LaneKlfCfg.rxRate n) | none => 0) / 5)
  if src = 0 ∨ src = 4 then copy r.copyA || copy r.copyB
  else within r.lastUnitAt (max (2 * mfFifths 0 / 5) (to16 (2 * s.unitDur t)))

/-- The register that SEP_DBG_SEL selects, while the core is halted (R422); its value is open where the selection names none.
DESIGN CHOICE: log entry 152. -/
def State.dbgRead (s : State) (c : Nat) (csr : Bool) (i : Nat) : Word × State :=
  if s.coreState c ≠ 4 then (0, s)
  else
    let q := s.core c
    let named := if csr then q.csr c i else if i < 16 then some (q.reg i) else none
    match named with
    | some w => (w, s)
    | none => let (v, s1) := s.free 32; (BitVec.ofNat 32 v, s1)

/-- What a register reads as for a master: a derived figure, or the stored word. -/
def State.regValue (s : State) (m : Nat) (r : RegAt) : Word × State :=
  let p := viewPart m
  let w := s.rget r.key
  match mailboxAt r.desc.name r.inst with
  | some (b, 0) => (BitVec.ofNat 32 (s.mailOf m b).req, s)
  | some (b, 1) =>
    let x := s.mailOf m b
    (BitVec.ofNat 32 ((if x.valid then 1 else 0) + (if x.none then 2 else 0)), s)
  | some (b, k + 2) => (s.mailWord m b k, s)
  | none =>
    match r.desc.name with
    | "SEM_STAT" =>
      let q := s.sem r.idx
      if isHost m && s.semOwner? r.idx != some p then (0, s)
      else
        (BitVec.ofNat 32 ((if q.waiters.isEmpty then 0 else 256) + (q.holder.getD 0) * 4 + (if q.abandoned then 2 else 0)
          + (if q.holder.isSome then 1 else 0)), s)
    | "SEM_HELD" => (BitVec.ofNat 32 (bitmap (32 * r.idx) fun i => (s.sem i).holder == some (32 + p)), s)
    | "SEM_REL" => (0, s)
    | "SEP_SEM_HELD" => (BitVec.ofNat 32 (bitmap (32 * r.idx) fun i => (s.sem i).holder == some r.inst), s)
    | "SEP_FIFO" =>
      let (free, s1) := s.fifoFree (r.inst - 1)
      let (avail, s2) := s1.fifoAvail (r.inst - 1)
      (BitVec.ofNat 32 ((if s.fifoOn (r.inst - 1) then 2 ^ 31 else 0) + free * 2 ^ 11 + avail), s2)
    | "SEP_DBG_DATA" => s.dbgRead r.inst (s.fbit (SepDbgSel.csr r.inst)) (s.fget (SepDbgSel.index r.inst))
    | "GLB_DEBUG" =>
      let all := bitmap 0 fun i => decide (i < 16) && s.fbit (GlbDebug.peekHost i)
      (BitVec.ofNat 32 (w.toNat + (if p = 0 then all * 2 ^ 16 else 0)), s)
    | "TRIB_STAT" => (BitVec.ofNat 32 (w.toNat + (if s.tribReceiving r.inst then 2 else 0)), s)
    | "CAS_AGR_WORD" | "CAS_AGR_EXP" | "CAS_AGR_CTL" => (if s.leads then w else 0, s)
    | _ => (w, s)

/-- The side effect of a read by a master that does not peek (R18). -/
def State.readEffect (s : State) (m : Nat) (r : RegAt) : State :=
  let p := viewPart m
  match mailboxAt r.desc.name r.inst with
  | some (b, k + 2) => s.mailRead m b k
  | some _ => s
  | none =>
    match r.desc.name with
    | "LANE_DEF_IVL" => s.ivlRead m r.inst
    | "LANE_DSK_STAT" => s.dskRead r.inst
    | "LANE_ETH_UNM" => s.rset r.key 0
    | "TIME_ACT_MISS" => s.rset r.key 0
    | "HOST_URG_LOG" => s.fset (HostUrgLog.valid p) 0
    | "HOST_CTO_LOG" => s.fset (HostCtoLog.valid p) 0
    | "MEM_LOG_1" => (s.fset MemLog0.valid 0).alarm
    | "INTEG_BUSERR_1" => s.logRead p false
    | "INTEG_DWLOG_1" => s.logRead p true
    | "INTEG_BUSERR_CNT" | "INTEG_DWLOG_CNT" | "SEP_FIFO_CNT" => s.rset r.key 0
    | "PERF_VT_STAT" => (s.fset (PerfVtStat.lost p) 0).fset (PerfVtStat.skipped p) 0
    | "PERF_PACE_MAX" => s.fset PerfPaceMax.period (s.fget PerfPaceNow.period)
    | "PERF_PACE_MIN" => s.fset PerfPaceMin.period (s.fget PerfPaceNow.period)
    | _ => s

/-- The debug policy of core 0 (R487): none where closed, else whether it is open. DEDUCED: log entry 150. -/
def State.debugPolicy (s : State) : Option Bool :=
  match s.fget BootDbg.policy with | 1 => some false | 2 => some true | _ => none

/-- JTAG may not access core 0 in this way (R487). DEDUCED: log entry 150. -/
def State.jtagBarred (s : State) (m c : Nat) (write : Bool) : Bool :=
  m = 49 && c = 0 && (match s.debugPolicy with | none => true | some opened => write && !opened)

/-- The result of a read of a register by a master, with its side effects; SEM_ACQ requests the semaphore (R480). DESIGN CHOICE: log entry 172. -/
def State.readReg (s : State) (m : Nat) (r : RegAt) : Word × State :=
  if r.desc.name = "SEM_ACQ" then
    if s.peeks m then (7, s)
    else
      let (res, s1) := s.semTry (32 + viewPart m) r.idx
      (BitVec.ofNat 32 res, s1)
  else
    let (v, s1) := s.regValue m r
    (v, if s.peeks m then s1 else s1.readEffect m r)

/-- The offset holds a D-class register 4 bytes below, whose complement it takes (R454). -/
def RegDesc.isD (d : RegDesc) : Bool := d.fields.any fun f => f.acc == .dng

def State.complementOf (s : State) (m off : Nat) : Option RegAt :=
  match s.resolve m (off - 4) with
  | some r => if 4 ≤ off && r.desc.isD then some r else none
  | none => none

/-- A read of BAR0 by a master: the word, or none where it is answered with an error (R459). -/
def State.busRead (s : State) (m addr len : Nat) : Option Word × State :=
  let off := addr % 2 ^ 22
  if s.deaf m then (none, s)
  else if addr % 4 ≠ 0 ∨ len ≠ 4 then (none, s.busErr m 2 false 0 addr)
  else
    match s.resolve m off with
    | some r =>
      if r.block = .sep ∧ s.jtagBarred m r.inst false then (none, s.busErr m 8 false 0 addr)
      else
        let (v, s1) := s.readReg m r
        (some v, s1)
    | none => if (s.complementOf m off).isSome then (some 0, s) else (none, s.busErr m 1 false 0 addr)

/-! ## Writes -/

/-- A host side or JTAG may not write this SEP register (R422, R487). DEDUCED: log entry 150. -/
def State.sepBarred (s : State) (m : Nat) (r : RegAt) : Bool :=
  let c := r.inst
  let name := r.desc.name
  s.jtagBarred m c true || (isHost m && name != "SEP_MBOX_IN" &&
    (c = 0 || !(if name = "SEP_CTL" then s.fbit (SepCfg.hostCtl c)
      else (name == "SEP_STAT" || name.startsWith "SEP_DBG") && s.fbit (SepCfg.hostDbg c))))

/-- A range of BAR1 of n bytes holds no reserved location (R449). -/
def tblWhole (lo n : Nat) : Bool :=
  [(0, 0x3C0000), (0x400000, 0x580000), (0x600000, 0x620000), (0x700000, 0x780000), (0x800000, 0xBC0000), (0xC00000, 0xC50000)].any
    fun e => decide (e.1 ≤ lo ∧ lo + n ≤ e.2)

/-- The ranges of the digest engine are legal: at most 4 MiB together, and no reserved location (R470). -/
def State.digRangesOk (s : State) : Bool :=
  let len (i : Nat) : Nat := s.fget (IntegDigRngLen.len i) * 64
  decide (((List.range 8).map len).sum ≤ 2 ^ 22)
    && (List.range 8).all fun i => len i == 0 || tblWhole (s.fget (IntegDigRngBase.base i) * 64) (len i)

/-- The cause of R460 for which a write of v by a master is refused; v is the value after the alias. -/
def State.writeError (s : State) (m : Nat) (r : RegAt) (v : Nat) : Option Nat :=
  match mailboxAt r.desc.name r.inst with
  | some (b, 0) => if s.mailDefined m b (v &&& mbxMask b) then none else some 3
  | some _ => none
  | none =>
    if r.block = .sep ∧ s.sepBarred m r then some 8
    else if !r.desc.legal r.inst r.idx v || reservedInView r.desc.name (viewPart m) v then some 3
    else
      match r.desc.name with
      | "WIN_CFG" => if v % 2 = 1 ∧ !s.fbit (WinCfg.en r.inst) ∧ s.winBad r.inst then some 3 else none
      | "REFSEL_IN_CFG" =>
        if v % 2 = 1 ∧ !s.fbit (RefselInCfg.en r.inst) ∧ s.fget (RefselInLim.reject r.inst) ≤ s.fget (RefselInLim.accept r.inst) then some 3
        else none
      | "SLC_CTL" => if (s.fget (SlcStat.committed r.inst)).testBit (v % 2) then none else some 3
      | "SLC_CFG" => if v % 2 = 1 ∧ !s.fbit (SlcCfg.en r.inst) ∧ malformed (s.slcAnchorWord r.inst) then some 3 else none
      | "INTEG_DIG_CFG" => if v % 2 = 1 ∧ !s.fbit IntegDigCfg.en ∧ !s.digRangesOk then some 3 else none
      | "SEP_DBG_DATA" => if s.coreState r.inst = 4 then none else some 8
      | _ => none

/-- SEP_MBOX_IN is written: MBOX is raised on the core (R401). -/
def State.mboxIn (s : State) (c : Nat) (v : Word) : State := (s.rset (SepMboxIn.reg c) v).coreEvent c 2

/-- A core resumes at DPC; only this clears halt_req (R421). A deferred halt is withdrawn. DEDUCED: log entry 153. -/
def State.coreResume (s : State) (c : Nat) : State :=
  let s1 := s.fsetB (SepDbgCtl.haltReq c) false
  let q := { s1.core c with haltPend := none }
  if s1.coreState c = 4 then (s1.setCore c { q with pc := s1.rget (SepDpc.reg c) }).coreRun c else s1.setCore c q

/-- A halt is requested (R420): it is taken up when the access is done, or deferred in an atomic sequence. A core that does not run keeps
only halt_req. DEDUCED: log entry 153. -/
def State.askHalt (s : State) (c : Nat) : State :=
  let s1 := s.fsetB (SepDbgCtl.haltReq c) true
  let q := s1.core c
  let st := s1.coreState c
  if (st = 1 ∨ st = 2 ∨ st = 3) ∧ q.haltPend = none then s1.setCore c { q with haltPend := some 256 } else s1

/-- A step is asked of a halted core; of another it has no effect (R421). DEDUCED: log entry 153. -/
def State.askStep (s : State) (c : Nat) : State :=
  if s.coreState c = 4 then s.setCore c { s.core c with stepPend := true } else s

/-- SEP_DBG_CTL is written: breakpoint enables, resume, step, halt request. Nothing but resume clears halt_req. DEDUCED: log entry 153. -/
def State.dbgCtl (s : State) (c v : Nat) : State :=
  let s1 := (s.fsetB (SepDbgCtl.bp0En c) (v.testBit 8)).fsetB (SepDbgCtl.bp1En c) (v.testBit 9)
  if v.testBit 1 then s1.coreResume c
  else (s1.onlyIf (v.testBit 2) fun s => s.askStep c).onlyIf (v.testBit 0) fun s => s.askHalt c

/-- A register of a halted core is written (R421). DESIGN CHOICE: log entry 152. -/
def State.dbgWrite (s : State) (c : Nat) (csr : Bool) (i : Nat) (v : Word) : State :=
  let q := s.core c
  if csr then match q.setCsr i v s.now with | some q1 => s.setCore c q1 | none => s
  else if i < 16 then s.setCore c (q.setReg i v) else s

/-- The cascade is enabled (R307, R314): its lanes start, and a manager that may lead leads; after a duplicate dev_id was heard only under
another one (R308). DEDUCED: log entry 174. -/
def State.casUp (s : State) : State :=
  let s1 := s.forEach [96, 97, 98, 99] fun s n => s.onlyIf (s.laneEnabled n) fun s => s.laneUp n
  let barred := s1.cas.noLead && s1.fget CasCfg.devId == s1.cas.dupDev
  let s2 := { s1 with cas := { s1.cas with lfsr := (s1.now % 65536) ||| 1, leaderAt := s1.ticks, noLead := barred } }
  (s2.fsetB CasStat.leading (s2.casRole == 1 && !s2.cas.noLead)).forEach [0, 1] fun s p => s.syncPort p

/-- The cascade is disabled: its lanes stop, and what it heard and had queued is gone (R308). DEDUCED: log entry 174. -/
def State.casDown (s : State) : State :=
  let s1 := (s.forEach [96, 97, 98, 99] fun s n => s.laneDown n).forEach [0, 1] fun s p => s.syncPort p
  let s2 := ((((s1.setUpstream none).fsetB CasMgr.dupId false).fsetB CasStat.clash false).fsetB CasStat.leading false).fsetB CasStat.intact
    false
  ({ s2 with cas := { s2.cas with ports := [], asm := [], inbox := [], provisional := none, tags := [], enumAt := none
                                  fewerSince := none } }).alarm

/-- A timing input's configuration was written: one that is no longer enabled is disqualified, candidates follow enable and priority,
and a selected input that is no candidate is lost (R276, R279, R280). A line input follows the clock of the group it is put on (R274). -/
def State.inputChanged (s : State) (n : Nat) : State :=
  let s1 := if s.fbit (RefselInCfg.en n) then s.judgeB n else (s.stopSoak n).disqualify n
  let s2 := (s1.onlyIf (decide (6 ≤ n ∧ n ≤ 13)) fun s => s.followClock n).syncCand n
  if s2.fbit RefselStat.selValid && s2.fget RefselStat.sel == n && !s2.fbit (RefselInStat.candidate n) then s2.lossOfSelected else s2

/-- REFSEL_HOST was written: mode B of input 15 follows its clockClass, and while it is selected it is LOCKED as long as the host says so
(R276, R285, R290). -/
def State.hostServo (s : State) : State :=
  let s1 := s.judgeB 15
  let st := s1.fget RefselStat.state
  let now := if s1.fbit RefselHost.locked then 2 else 1
  if s1.fbit RefselStat.selValid && s1.fget RefselStat.sel == 15 && (st == 1 || st == 2) && st != now then s1.setTiming now else s1.syncQl

/-- The bits of word w of LANE_KLF_TXOH that the page owns (R64, R80): swap_pending, SWAP_MF, the BDI bits, PROT_REQ, PROT_STATE, QL and
GCC. -/
def txohMask (w : Nat) : Nat :=
  if w = 5 then 0xFF020000 else if w = 6 then 0x07FFFFFF else if w = 7 then 0xFFFF0000 else if w = 8 then 0xFF
  else if 9 ≤ w ∧ w ≤ 14 then 0xFFFFFFFF else 0

/-- A write that is not refused, of a register that is not of class D. What the write sets off follows it. DEDUCED: log entry 151. -/
def State.writeEffect (s : State) (m : Nat) (r : RegAt) (off : Nat) (a : Alias) (w : Nat) : State :=
  let v := a.value (s.rget r.key).toNat w
  let vw : Word := BitVec.ofNat 32 v
  let n := r.inst
  let p := viewPart m
  let put (x : Nat) : State := (s.writeReg m r.key off .plain x).getD s
  let keepEn (was : Bool) : Nat := v / 2 * 2 + (if was then 1 else 0)
  match mailboxAt r.desc.name n with
  | some (b, 0) => s.mailTake m b v
  | some _ => s
  | none =>
    match r.desc.name with
    | "LANE_CFG" =>
      let was := s.fbit (LaneCfg.en n)
      if 96 ≤ n then put v
      else
        let s1 := put (keepEn was)
        if was = v.testBit 0 then s1 else if was then doLaneDisable n s1 else doLaneEnable n s1
    | "LANE_KLF_CFG" => ((s.writeReg m r.key off a w).getD s).syncMismatch n
    | "LANE_KLF_TXOH" => let mask := txohMask r.idx; put ((s.rget r.key).toNat - ((s.rget r.key).toNat &&& mask) + (v &&& mask))
    | "GRP_CFG" => doGroupEnable m n vw s
    | "TRIB_CFG" =>
      let was := s.fbit (TribCfg.en n)
      let s1 := put (keepEn was)
      if was = v.testBit 0 then s1 else if was then doTribDisable n s1 else doTribEnable n s1
    | "WIN_CFG" =>
      let was := s.fbit (WinCfg.en n)
      let s1 := put (keepEn was)
      if was = v.testBit 0 then s1
      else if was then (s1.fsetB (WinCfg.en n) false).syncWin n (s1.winSt n).nextOcc
      else doWindowEnable m n s1
    | "SLC_CFG" => if v.testBit 0 then doSlicerEnable m n vw s else doSlicerDisable m n vw s
    | "SLC_NCO_HI" => doNcoStage m n vw s
    | "SLC_COEF_CRC" => doCoefCommit m n r.idx vw s
    | "SLC_CTL" => doCoefBankSelect m n (v % 2) s
    | "SLC_CLU_CFG" =>
      if (List.range 16).any fun i => s.fbit (SlcCfg.en (n + i)) then
        s.onlyIf (s.fget (SlcCluCfg.gang n) != v % 4) fun s => s.cfgWhileEn p .slc off
      else put v
    | "HOST_CTL" => if v.testBit 0 then doGoSet m s else doGoClear m s
    | "HOST_RING_CFG" => if v.testBit 0 then doRingEnable m n vw s else doRingDisable m n vw s
    | "HOST_RING_BASE_LO" => put (v - v % 4096)
    | "LANE_CAL_CRC" => doCalCommit m n (r.idx / 2) (r.idx % 2) vw s
    | "LANE_CAL_RX_CTL" =>
      let s1 := put (v % 2 + 2 * s.fget (LaneCalRxCtl.rxBank n))
      doRxBankSelect m n (v / 2 % 2) s1
    | "LANE_FAIL_MASK" | "PWR_THERM" | "PROT_PAIR_STAT" | "PROT_OUT_CONT" =>
      ((s.writeReg m r.key off a w).getD s).alarm
    | "MGMT_ALARM_MASK" => (put (v - (v &&& 0x300))).alarm
    | "REFSEL_CFG" => (put v).applySelection.syncQl
    | "REFSEL_IN_CFG" => ((put v).inputChanged n).syncQl
    | "REFSEL_HOST" => (put v).hostServo
    | "REFSEL_OSC" => ((s.writeReg m r.key off a w).getD s).judgeSteer
    | "REFSEL_HO_CFG" => (put v).syncQl
    | "REFSEL_HIST" => doHistoryReset m vw s
    | "REFSEL_DCO_WR_HI" => s.dcoWrite m (v.testBit 31) (v % 256)
    | "REFSEL_OUT_CFG" =>
      if v.testBit 0 then doOutputEnable m n s
      else (((put v).rset (RefselOutStat.reg n) 0).setOutp n {})
    | "CAS_CFG" =>
      let was := s.fbit CasCfg.en
      let s1 := put v
      if was = v.testBit 0 then s1 else if was then s1.casDown else s1.casUp
    | "PWR_GRP_RST" => s.forEach ((List.range 24).filter v.testBit) fun s g => doLaneGroupReset g s
    | "PWR_AVS" => ((s.writeReg m r.key off a w).getD s).syncPace
    | "BOOT_CTL" =>
      let s1 := put v
      s1.onlyIf (v.testBit 0 && s.bootWrites m "BOOT_CTL") doBootDone
    | "BOOT_HOST_IMG_GO" => doHostImageGo m vw s
    | "INTEG_DIG_CFG" =>
      let s1 := put v
      if v.testBit 0 && !s.fbit IntegDigCfg.en then { s1 with mem := { s1.mem with digLapAt := s1.ticks } } else s1
    | "SEM_REL" => doSemReleaseWrite p r.idx s
    | "SEP_MBOX_IN" => s.mboxIn n vw
    | "SEP_DBG_CTL" => s.dbgCtl n v
    | "SEP_DBG_DATA" => s.dbgWrite n (s.fbit (SepDbgSel.csr n)) (s.fget (SepDbgSel.index n)) vw
    | "PERF_CTL" => doPerfClear m vw s
    | "PERF_CNT_CFG" => doCounterEnable m r.idx vw s
    | "PERF_VT_CFG" =>
      let was := s.fbit (PerfVtCfg.en p)
      let s1 := put v
      if was || !v.testBit 31 then s1 else s1.setPart p { s1.part p with vtLfsr := s1.fget (PerfVtSeed.seed p) }
    | _ => (s.writeReg m r.key off a w).getD s

/-! ## D-class pairs (R454) -/

/-- The value of an accepted pair takes effect: the operation that the register stands for. DEDUCED: log entry 148. -/
def State.dAccept (s : State) (m : Nat) (r : RegAt) (off v : Nat) : State :=
  if r.block = .sep ∧ s.sepBarred m r then s.busErr m 8 true 0 off
  else if !r.desc.legal r.inst r.idx v then s.busErr m 3 true 0 off
  else
    match r.desc.name with
    | "GLB_PHASE_CTL" => (match v % 4 with | 1 => doDusk s | 2 => doDay s | _ => doNight s)
    | "INTEG_DIG_REF" => doDigestCommit v s
    | "TIME_WR_CTL" => if v % 4 = 1 then doTimeStep (v.testBit 2) s else doTimeSet (v.testBit 2) s
    | "PROT_PAIR_CTL" =>
      (match v % 8 with | 1 => doEnable s | 2 => doDisable s | 3 => doHandover s | 4 => doClaim s | _ => doStandDown s)
    | "CAS_CTL" => (match v % 8 with | 1 => doEnumerate s | 2 => doPropose false s | 3 => doCancel s | _ => doAdopt s)
    | "SEP_CTL" => if v.testBit 0 then doCoreEnable r.inst s else doCoreReset r.inst s
    | "MEM_HBM_CTL" =>
      let st := v / 256 % 2
      let die := v / 16 % 16
      (match v % 8 with | 1 => doMarkDie st die s | 2 => doClearDies st die s | _ => doRestore st die s)
    | "BOOT_REBOOT" => if v.testBit 0 then doBootReboot s else s.fset BootReboot.req 0
    | "BOOT_RESET" => if v.testBit 0 then doSoftReset s else s.fset BootReset.soft 0
    | "PWR_DOM_CTL" =>
      let u := v % 256
      (match v / 256 % 4 with | 0 => doOff u s | 1 => doOn u s | _ => doSr u s)
    | "PWR_PACE_CTL" => doPaceChange (v.testBit 0) (v.testBit 1) s
    | _ => s

/-- A write examined against the pair that its master has under way in the block: whether the pair takes it, and the state after
that. DEDUCED: log entry 148. -/
def State.pairStep (s : State) (m row off : Nat) (a : Alias) (w : Word) : Bool × State :=
  match s.openPair m row with
  | none => (false, s)
  | some x =>
    let s1 := s.dropPair m row
    if s.pairLate x then (off == x.addr + 4, s1.pairExpire m x)
    else if off = x.addr + 4 ∧ a = .plain then
      if w = ~~~x.value then
        match s1.resolve m x.addr with
        | some r => (true, s1.dAccept m r x.addr x.value.toNat)
        | none => (true, s1.busErr m 1 true 0 off)
      else (true, s1.dwLog m 2 off)
    else if off = x.addr + 4 ∨ (off = x.addr ∧ a ≠ .plain) then (true, s1.dwLog m 3 off)
    else (false, s1.dwLog m 4 off)

/-- The alias that an address selects (R20). -/
def aliasOf (addr : Nat) : Alias :=
  match addr / 2 ^ 22 % 4 with | 0 => .plain | 1 => .set | 2 => .clear | _ => .toggle

/-- A write to a location of a master's view, the pairs examined: whether it is answered with an error, and the state after it. -/
def State.writeAt (s : State) (m off addr : Nat) (a : Alias) (w : Word) : Bool × State :=
  match s.resolve m off with
  | none =>
    match s.complementOf m off with
    | some r => if r.block = .sep ∧ s.sepBarred m r then (true, s.busErr m 8 true 0 addr) else (false, s.dwLog m 5 off)
    | none => (true, s.busErr m 1 true 0 addr)
  | some r =>
    if s.ignoresWrite m r.block then (false, s)
    else if r.desc.isD then
      if r.block = .sep ∧ s.sepBarred m r then (true, s.busErr m 8 true 0 addr)
      else if a ≠ .plain then (false, s.dwLog m 3 off)
      else (false, { s with pairs := s.pairs ++ [⟨m, r.block.row, off, w, s.ticks, false⟩] })
    else
      match s.writeError m r (a.value (s.rget r.key).toNat w.toNat) with
      | some cause => (true, s.busErr m cause true 0 addr)
      | none => (false, s.writeEffect m r off a w.toNat)

/-- A write of BAR0 by a master: whether it is answered with an error, and the state after it. -/
def State.busWrite (s : State) (m addr len : Nat) (w : Word) : Bool × State :=
  let off := addr % 2 ^ 22
  let a := aliasOf addr
  if s.deaf m then (false, s)
  else if addr % 4 ≠ 0 ∨ len ≠ 4 then (true, s.busErr m 2 true 0 addr)
  else
    match locate off with
    | none => (true, s.busErr m 1 true 0 addr)
    | some (b, _, _) =>
      let (taken, s1) := s.pairStep m b.row off a w
      if taken then (false, s1) else s1.writeAt m off addr a w

/-! ## Tables (R449, R450, R466) -/

/-- The device's offset of a BAR1 offset of a host side's view, where the partition has that table (R340, R449); other masters use the
device's. -/
def State.tblResolve (s : State) (m off : Nat) : Option Nat :=
  let p := viewPart m
  match tblRegion off with
  | none => none
  | some r =>
    if !isHost m then some off
    else
      match r with
      | .cal n _ _ _ => if s.laneOwner n = p then some off else none
      | .sepInstr _ _ | .sepData _ _ => if p = 0 then some off else none
      | .coef o => (s.slcDevice p (o / 0x200)).map fun e => 0x600000 + e * 0x200 + o % 0x200
      | .tmpl t o => (s.tribDevice p t).map fun d => tmplBase d + o

/-- A write to this table location is refused (R460 cause 5 or 8): an active or held calendar bank, an active coefficient bank, a core's
memory. -/
def State.tblRefused (s : State) (m : Nat) (r : TblRegion) : Option Nat :=
  match r with
  | .cal n d b _ => if s.calBusy n d b then some 5 else none
  | .coef o => if s.coefActive (o / 0x200) (o / 0x100 % 2) then some 5 else none
  | .sepInstr c _ =>
    if s.jtagBarred m c true then some 8
    else if isHost m && (!s.fbit (SepCfg.hostCtl c) || s.fbit (SepCtl.en c)) then some 5 else none
  | .sepData c _ =>
    if s.jtagBarred m c true then some 8 else if isHost m && !s.fbit (SepCfg.hostCtl c) then some 5 else none
  | .tmpl _ _ => none

/-- A bank was written: its committed bit falls and a check in progress ends (R154, R229). -/
def State.tblTouched (s : State) (r : TblRegion) : State :=
  match r with
  | .cal n d b o => s.calTouched n d b (o / 4)
  | .coef o => s.coefTouched (o / 0x200) (o / 0x100 % 2)
  | _ => s

/-- One piece of a table write, at most 64 bytes inside a 64-byte block: written whole, or refused and logged. -/
def State.tblPiece (s : State) (m off : Nat) (data : List (Option Byte)) : State :=
  let bytes := data.zipIdx.filterMap fun e => e.1.map fun b => (e.2, b)
  match bytes with
  | [] => s
  | (i, _) :: _ =>
    match s.tblResolve m (off + i) with
    | none => s.busErr m 1 true 1 (off + i)
    | some a =>
      match tblRegion a with
      | none => s.busErr m 1 true 1 (off + i)
      | some r =>
        match s.tblRefused m r with
        | some cause => s.busErr m cause true 1 (off + i)
        | none => (bytes.foldl (fun s e => s.twrite (a + (e.1 - i)) e.2) s).tblTouched r

/-- The pieces of a request (R466): each at most `fuel` bytes of data further, cut at 64-byte boundaries. -/
def State.tblWrite (s : State) (m off : Nat) (data : List (Option Byte)) : Nat → State
  | 0 => s
  | fuel + 1 =>
    if data.isEmpty then s
    else
      let n := 64 - off % 64
      (s.tblPiece m off (data.take n)).tblWrite m (off + n) (data.drop n) fuel

/-- One stored byte as JTAG sees it: its stored bits, open where they are poisoned or in error, and whether it is poisoned (R419). -/
def State.tblPeek (s : State) (a : Nat) : Byte × Bool × State :=
  let open' (bad : Bool) : Byte × Bool × State := let (v, s1) := s.free 8; (BitVec.ofNat 8 v, bad, s1)
  match s.tstored a with
  | none => open' true
  | some b => if SMap.getD s.tflip a 0 = 0 then (b, false, s) else open' false

end Sys2Proof.Machine
end

