-- ==== Sys2Proof/Machine/Operands.lean ====
section
/-! DEFINITION. The operand forms of the Sepia instructions (R389, R390): extensions, effective addresses, branch targets, the
regions of a core's address space (R383), the encodings of the instructions, and their decoding. -/

namespace Sys2Proof.Machine

/-! ## Operands -/

/-- An 18-bit field sign-extended. -/
def sext18 (x : BitVec 18) : Word := x.signExtend 32

/-- An 18-bit field zero-extended. -/
def zext18 (x : BitVec 18) : Word := x.zeroExtend 32

/-- The address of a load or store: ra + sext(off). -/
def memAddr (ra : Word) (off : BitVec 18) : Word := ra + sext18 off

/-- The target of a branch at pc. -/
def branchTarget (pc : Word) (off : BitVec 18) : Word := pc + sext18 off * 4

/-- The target of JMP or CALL at pc. -/
def jumpTarget (pc : Word) (off : BitVec 26) : Word := pc + off.signExtend 32 * 4

/-- The value that LUI loads. -/
def luiValue (imm : BitVec 14) : Word := imm.zeroExtend 32 <<< 18

/-- The regions of R383. -/
inductive Region where
  | instr | data | fifo | ck | ckf | rom | bus
  deriving DecidableEq, Repr

/-- The cores with an overhead FIFO (R379). -/
def hasFifo (c : Nat) : Bool := decide (1 ≤ c ∧ c ≤ 24)

/-- The cores with a fixed check unit (R379). -/
def hasFixed (c : Nat) : Bool := decide (c = 0 ∨ (25 ≤ c ∧ c ≤ 28))

/-- The region of an address for core c; none where any access raises BUS. -/
def regionOf (c : Nat) (a : Word) : Option Region :=
  let x := a.toNat
  if x < 0x4000 then some .instr
  else if 0x10000 ≤ x ∧ x < 0x18000 then some .data
  else if 0x20000 ≤ x ∧ x < 0x20020 ∧ hasFifo c then some .fifo
  else if 0x21000 ≤ x ∧ x < 0x21040 then some .ck
  else if 0x21100 ≤ x ∧ x < 0x21120 ∧ hasFixed c then some .ckf
  else if 0x80000 ≤ x ∧ x < 0x90000 ∧ c = 0 then some .rom
  else if 0x40000000 ≤ x ∧ x < 0x41000000 then some .bus
  else none

/-- The stores of a region are ordered with the loads of the same region (R396): the core-local devices are one region. -/
def Region.order : Region → Nat
  | .instr => 0 | .data => 1 | .fifo | .ck | .ckf => 2 | .bus => 3 | .rom => 4

/-- Core c fetches from this region (R383). -/
def fetchable (c : Nat) (a : Word) : Bool := regionOf c a == some .instr || regionOf c a == some .rom

/-! ## Encodings (R389) -/

/-- Format A: op, rd, ra, rb. -/
def encA (op : Nat) (rd ra rb : XReg) : Word := BitVec.ofNat 32 (op * 2 ^ 26 + rd * 2 ^ 22 + ra * 2 ^ 18 + rb * 2 ^ 14)

/-- Formats I, M and S: op, rd (or rs), ra, and 18 bits. -/
def encI (op : Nat) (rd ra : XReg) (imm : Nat) : Word := BitVec.ofNat 32 (op * 2 ^ 26 + rd * 2 ^ 22 + ra * 2 ^ 18 + imm)

/-- Format J: op and 26 bits. -/
def encJ (op : Nat) (off : BitVec 26) : Word := BitVec.ofNat 32 (op * 2 ^ 26 + off.toNat)

/-- The word of a Sepia instruction; none for the other commands. -/
def sepiaEncode : Instr → Option Word
  | .add _ rd ra rb => some (encA 0x01 rd ra rb)
  | .sub _ rd ra rb => some (encA 0x02 rd ra rb)
  | .and _ rd ra rb => some (encA 0x03 rd ra rb)
  | .or _ rd ra rb => some (encA 0x04 rd ra rb)
  | .xor _ rd ra rb => some (encA 0x05 rd ra rb)
  | .shl _ rd ra rb => some (encA 0x06 rd ra rb)
  | .shr _ rd ra rb => some (encA 0x07 rd ra rb)
  | .sra _ rd ra rb => some (encA 0x08 rd ra rb)
  | .mul _ rd ra rb => some (encA 0x09 rd ra rb)
  | .slt _ rd ra rb => some (encA 0x0A rd ra rb)
  | .sltu _ rd ra rb => some (encA 0x0B rd ra rb)
  | .addi _ rd ra imm => some (encI 0x10 rd ra imm.toNat)
  | .andi _ rd ra imm => some (encI 0x11 rd ra imm.toNat)
  | .ori _ rd ra imm => some (encI 0x12 rd ra imm.toNat)
  | .xori _ rd ra imm => some (encI 0x13 rd ra imm.toNat)
  | .shli _ rd ra sh => some (encI 0x14 rd ra sh.toNat)
  | .shri _ rd ra sh => some (encI 0x15 rd ra sh.toNat)
  | .srai _ rd ra sh => some (encI 0x16 rd ra sh.toNat)
  | .lui _ rd imm => some (encI 0x17 rd 0 imm.toNat)
  | .ldw _ rd ra off => some (encI 0x18 rd ra off.toNat)
  | .ldh _ rd ra off => some (encI 0x19 rd ra off.toNat)
  | .ldb _ rd ra off => some (encI 0x1A rd ra off.toNat)
  | .stw _ rs ra off => some (encI 0x1C rs ra off.toNat)
  | .sth _ rs ra off => some (encI 0x1D rs ra off.toNat)
  | .stb _ rs ra off => some (encI 0x1E rs ra off.toNat)
  | .beq _ ra rb off => some (encI 0x20 ra rb off.toNat)
  | .bne _ ra rb off => some (encI 0x21 ra rb off.toNat)
  | .blt _ ra rb off => some (encI 0x22 ra rb off.toNat)
  | .bge _ ra rb off => some (encI 0x23 ra rb off.toNat)
  | .jmp _ off => some (encJ 0x28 off)
  | .call _ off => some (encJ 0x29 off)
  | .jr _ ra => some (encA 0x2A 0 ra 0)
  | .csrr _ rd csr => some (encI 0x30 rd 0 csr.toNat)
  | .csrw _ ra csr => some (encI 0x31 0 ra csr.toNat)
  | .slock _ rd i nowait => some (encI 0x32 rd 0 (i + (if nowait then 64 else 0)))
  | .sfree _ rd i => some (encI 0x33 rd 0 i)
  | .atomBegin _ => some (encI 0x34 0 0 0)
  | .atomEnd _ => some (encI 0x35 0 0 0)
  | .fence _ => some (encI 0x36 0 0 0)
  | .wait _ rd mask => some (encI 0x37 rd 0 mask.toNat)
  | .trap _ imm => some (encI 0x38 0 0 imm.toNat)
  | .rett _ => some (encI 0x39 0 0 0)
  | .halt _ => some (encI 0x3A 0 0 0)
  | _ => none

/-! ## Decoding (R390, R391) -/

/-- Bits [lo + n - 1 : lo] of a word. -/
def wbits (w : Word) (lo n : Nat) : Nat := w.toNat / 2 ^ lo % 2 ^ n

/-- A register number from its place in a word. -/
def xregAt (w : Word) (lo : Nat) : XReg := Fin.ofNat 16 (wbits w lo 4)

/-- The instruction of core c that a word spells; none where it is illegal. -/
def sepiaDecode (c : CoreN) (w : Word) : Option Instr :=
  let rd := xregAt w 22
  let ra := xregAt w 18
  let rb := xregAt w 14
  let imm : BitVec 18 := BitVec.ofNat 18 (wbits w 0 18)
  let off26 : BitVec 26 := BitVec.ofNat 26 (wbits w 0 26)
  let a (i : Instr) : Option Instr := if wbits w 0 14 = 0 then some i else none
  let z (ok : Bool) (i : Instr) : Option Instr := if ok then some i else none
  let noRa : Bool := wbits w 18 4 == 0
  let noRd : Bool := wbits w 22 4 == 0
  let n := wbits w 0 18
  match wbits w 26 6 with
  | 0x01 => a (.add c rd ra rb)
  | 0x02 => a (.sub c rd ra rb)
  | 0x03 => a (.and c rd ra rb)
  | 0x04 => a (.or c rd ra rb)
  | 0x05 => a (.xor c rd ra rb)
  | 0x06 => a (.shl c rd ra rb)
  | 0x07 => a (.shr c rd ra rb)
  | 0x08 => a (.sra c rd ra rb)
  | 0x09 => a (.mul c rd ra rb)
  | 0x0A => a (.slt c rd ra rb)
  | 0x0B => a (.sltu c rd ra rb)
  | 0x10 => some (.addi c rd ra imm)
  | 0x11 => some (.andi c rd ra imm)
  | 0x12 => some (.ori c rd ra imm)
  | 0x13 => some (.xori c rd ra imm)
  | 0x14 => z (decide (n < 32)) (.shli c rd ra (BitVec.ofNat 5 n))
  | 0x15 => z (decide (n < 32)) (.shri c rd ra (BitVec.ofNat 5 n))
  | 0x16 => z (decide (n < 32)) (.srai c rd ra (BitVec.ofNat 5 n))
  | 0x17 => z (noRa && decide (n < 2 ^ 14)) (.lui c rd (BitVec.ofNat 14 n))
  | 0x18 => some (.ldw c rd ra imm)
  | 0x19 => some (.ldh c rd ra imm)
  | 0x1A => some (.ldb c rd ra imm)
  | 0x1C => some (.stw c rd ra imm)
  | 0x1D => some (.sth c rd ra imm)
  | 0x1E => some (.stb c rd ra imm)
  | 0x20 => some (.beq c rd ra imm)
  | 0x21 => some (.bne c rd ra imm)
  | 0x22 => some (.blt c rd ra imm)
  | 0x23 => some (.bge c rd ra imm)
  | 0x28 => some (.jmp c off26)
  | 0x29 => some (.call c off26)
  | 0x2A => z (noRd && n == 0) (.jr c ra)
  | 0x30 => z (noRa && decide (n < 256)) (.csrr c rd (BitVec.ofNat 8 n))
  | 0x31 => z (noRd && decide (n < 256)) (.csrw c ra (BitVec.ofNat 8 n))
  | 0x32 => z (noRa && decide (n < 128)) (.slock c rd (Fin.ofNat 64 n) (n / 64 == 1))
  | 0x33 => z (noRa && decide (n < 64)) (.sfree c rd (Fin.ofNat 64 n))
  | 0x34 => z (noRd && noRa && n == 0) (.atomBegin c)
  | 0x35 => z (noRd && noRa && n == 0) (.atomEnd c)
  | 0x36 => z (noRd && noRa && n == 0) (.fence c)
  | 0x37 => z (noRa && decide (n < 128)) (.wait c rd (BitVec.ofNat 7 n))
  | 0x38 => z (noRd && noRa) (.trap c imm)
  | 0x39 => z (noRd && noRa && n == 0) (.rett c)
  | 0x3A => z (noRd && noRa && n == 0) (.halt c)
  | _ => none

/-- The opcodes that R399 allows in an atomic sequence: formats A, I and B but JR, JMP, loads, stores and ATOM_END. -/
def atomAllows (op : Nat) : Bool :=
  decide ((0x01 ≤ op ∧ op ≤ 0x0B) ∨ (0x10 ≤ op ∧ op ≤ 0x1A) ∨ (0x1C ≤ op ∧ op ≤ 0x1E) ∨ (0x20 ≤ op ∧ op ≤ 0x23) ∨ op = 0x28 ∨ op = 0x35)

/-- The steps that an instruction takes apart from memory and the bus (R380). -/
def stepsOf (op : Nat) : Nat := if op = 0x09 then 2 else 1

end Sys2Proof.Machine
end

