-- ==== Sys2Proof/Machine/Sepia.lean ====
section
/-! DEFINITION. What a Sepia core does (R379 to R421): check units, the overhead FIFO's reader, stores and their draining, traps, halts,
loads, and the issue of one instruction. -/

namespace Sys2Proof.Machine

/-! ## Check units (R402 to R406) -/

/-- The CRC of the fixed unit by its selection: width, polynomial, initial value, reflection, inversion. -/
def fixedCrc (sel : Nat) : Nat × BitVec 64 × BitVec 64 × Bool × Bool :=
  match sel % 4 with
  | 0 => (32, 0x1EDC6F41, 0xFFFFFFFF, true, true)
  | 1 => (32, 0x04C11DB7, 0xFFFFFFFF, true, true)
  | 2 => (16, 0x1021, 0xFFFF, false, false)
  | _ => (64, 0x42F0E1EBA9EA3693, 0, false, false)

/-- A start of a unit: the settings are latched and the register takes I; none where the width is not 1 to 64. -/
def CrcUnit.start (u : CrcUnit) (fixed : Bool) : Option CrcUnit :=
  if fixed then
    let (w, p, i, refl, xor) := fixedCrc u.sel
    some { u with width := w, refin := refl, refout := refl, xorout := xor, lpoly := p, reg := some i }
  else
    let w := u.cfg.toNat % 128
    if 1 ≤ w ∧ w ≤ 64 then
      some { u with width := w, refin := u.cfg.toNat.testBit 8, refout := u.cfg.toNat.testBit 9, xorout := u.cfg.toNat.testBit 10
                    lpoly := BitVec.ofNat 64 (u.poly.toNat % 2 ^ w), reg := some (BitVec.ofNat 64 (u.init.toNat % 2 ^ w)) }
    else none

/-- Bytes fed to a unit, in address order. DESIGN CHOICE: log entry 170. -/
def CrcUnit.feed (u : CrcUnit) (bs : List Byte) : CrcUnit :=
  { u with reg := u.reg.map fun r => BitVec.ofNat 64 (crcFeed u.width u.lpoly.toNat u.refin r.toNat bs) }

/-- The unit of a core. -/
def CoreSt.unit (q : CoreSt) (fixed : Bool) : CrcUnit := if fixed then q.ckf else q.ck
def CoreSt.setUnit (q : CoreSt) (fixed : Bool) (u : CrcUnit) : CoreSt := if fixed then { q with ckf := u } else { q with ck := u }

/-- The result of a unit of core c, low or high word; open between a core reset and the next start (R406). DESIGN CHOICE: log entry 171. -/
def State.crcResult (s : State) (c : Nat) (fixed hi : Bool) : Word × State :=
  let u := (s.core c).unit fixed
  let (v, s1) := match u.reg with
    | some r => (crcOut u.width u.refout u.xorout r.toNat, s)
    | none => s.free u.width
  (BitVec.ofNat 32 (if hi then v / 2 ^ 32 else v), s1)

/-! ## The reader of an overhead FIFO (R409 to R414) -/

/-- A store to FIFO_MARK, FIFO_REWIND or FIFO_RELEASE of group g. -/
def State.fifoMark (s : State) (g : Nat) : State := let q := s.group g; s.setGroup g { q with mark := q.rd }
def State.fifoRewind (s : State) (g : Nat) : State := let q := s.group g; s.setGroup g { q with rd := q.mark }
def State.fifoRelease (s : State) (g : Nat) : State :=
  let q := s.group g
  s.setGroup g { q with rel := q.rd, mark := q.rd, words := q.words.filter fun e => decide (q.rd ≤ e.1) }

/-- FIFO_STAT of group g. -/
def State.fifoStat (s : State) (g : Nat) : Word × State :=
  let (avail, s1) := s.fifoAvail g
  (BitVec.ofNat 32 ((if s.fifoOn g then 2 ^ 31 else 0) + avail), s1)

/-- The outcome of a load: the word, a stall, or poison. -/
inductive Loaded where
  | word (v : Word)
  | stall
  | poison
  deriving DecidableEq, Repr

/-- A load of FIFO_DATA that meets no bit error, one (corrected), or more (uncorrectable): rd advances past the word in each case
(R413); with no word seen available the load stalls. DESIGN CHOICE: log entry 165. DESIGN CHOICE: log entry 168. -/
def State.fifoLoad (s : State) (g errs : Nat) : Loaded × State :=
  let (avail, s1) := s.fifoAvail g
  if avail = 0 then (.stall, s1)
  else
    let q := s1.group g
    let s2 := s1.setGroup g { q with rd := q.rd + 1 }
    if errs = 0 then (.word (SMap.getD q.words q.rd 0), s2)
    else if errs = 1 then (.word (SMap.getD q.words q.rd 0), s2.fsat (SepFifoCnt.corr (g + 1)) 1)
    else (.poison, s2.fsat (SepFifoCnt.uncorr (g + 1)) 1)

/-! ## Core-local devices -/

/-- A core-local device allows an access of this width at this offset of its region (R403 to R405, R412). -/
def devAllows (r : Region) (o width : Nat) (store : Bool) : Bool :=
  match r with
  | .fifo => width == 4 && decide (o ≤ 0x10) && !(store && o == 0)
  | .ck => decide (o ≤ 0x20) && (width == 4 || (store && o == 0x18))
  | .ckf => decide (o ≤ 0x10) && (width == 4 || (store && o == 0x08))
  | _ => false

/-- The offset of an address in its device's region. -/
def devOffset (r : Region) (a : Word) : Nat :=
  a.toNat - (match r with | .fifo => 0x20000 | .ck => 0x21000 | _ => 0x21100)

/-- A half of a 64-bit setting replaced. -/
def setHalf (x : BitVec 64) (hi : Bool) (w : Word) : BitVec 64 := if hi then w ++ x.extractLsb' 0 32 else x.extractLsb' 32 32 ++ w

/-- A store reaches a core-local device: whether it raises BUS, and the state after it. -/
def State.devStore (s : State) (c : Nat) (r : Region) (o : Nat) (bs : List Byte) : Bool × State :=
  let w : Word := BitVec.ofNat 32 (ofLe bs)
  let q := s.core c
  let put (u : CrcUnit) : Bool × State := (false, s.setCore c { q with ck := u })
  let putF (u : CrcUnit) : Bool × State := (false, s.setCore c { q with ckf := u })
  match r, o with
  | .fifo, 0x08 => (false, s.fifoMark (c - 1))
  | .fifo, 0x0C => (false, s.fifoRewind (c - 1))
  | .fifo, 0x10 => (false, s.fifoRelease (c - 1))
  | .ck, 0x00 => put { q.ck with cfg := w &&& 0x77F }
  | .ck, 0x04 => put { q.ck with poly := setHalf q.ck.poly false w }
  | .ck, 0x08 => put { q.ck with poly := setHalf q.ck.poly true w }
  | .ck, 0x0C => put { q.ck with init := setHalf q.ck.init false w }
  | .ck, 0x10 => put { q.ck with init := setHalf q.ck.init true w }
  | .ck, 0x14 => (match q.ck.start false with | some u => put u | none => (true, s))
  | .ck, 0x18 => put (q.ck.feed bs)
  | .ckf, 0x00 => putF { q.ckf with sel := w.toNat % 4 }
  | .ckf, 0x04 => (match q.ckf.start true with | some u => putF u | none => (true, s))
  | .ckf, 0x08 => putF (q.ckf.feed bs)
  | _, _ => (false, s)

/-- A load from a core-local device. -/
def State.devLoad (s : State) (c : Nat) (r : Region) (o errs : Nat) : Loaded × State :=
  let q := s.core c
  let half (x : BitVec 64) (hi : Bool) : Loaded × State := (.word (if hi then x.extractLsb' 32 32 else x.extractLsb' 0 32), s)
  let res (fixed hi : Bool) : Loaded × State := let (v, s1) := s.crcResult c fixed hi; (.word v, s1)
  match r, o with
  | .fifo, 0x00 => s.fifoLoad (c - 1) errs
  | .fifo, 0x04 => let (v, s1) := s.fifoStat (c - 1); (.word v, s1)
  | .ck, 0x00 => (.word q.ck.cfg, s)
  | .ck, 0x04 => half q.ck.poly false
  | .ck, 0x08 => half q.ck.poly true
  | .ck, 0x0C => half q.ck.init false
  | .ck, 0x10 => half q.ck.init true
  | .ck, 0x1C => res false false
  | .ck, 0x20 => res false true
  | .ckf, 0x00 => (.word (BitVec.ofNat 32 q.ckf.sel), s)
  | .ckf, 0x0C => res true false
  | .ckf, 0x10 => res true true
  | _, _ => (.word 0, s)

/-! ## Vermilion tags of instructions (R511 to R513) -/

/-- The tag of the instruction of core c at pc that has or has not retired. -/
def State.vtInstr (s : State) (c : Nat) (pc : Word) (retired : Bool) : Option VtTag :=
  (s.part 0).vtTags.find? fun t =>
    t.instr && t.unit == c && t.laneIn == pc.toNat && (SMap.find t.stamps 3).isSome == retired

/-- Stages of a tag are stamped; all are taken in the core and approximate (R512). -/
def State.vtStages (s : State) (t : VtTag) : List Nat → VtTag × State
  | [] => (t, s)
  | k :: ks =>
    let (x, s1) := s.vtStamp false
    s1.vtStages { t with stamps := SMap.ins t.stamps k x, approx := t.approx ||| 2 ^ k } ks

/-- The stages that an instruction in flight passes. -/
def State.vtPass (s : State) (c : Nat) (pc : Word) (retired : Bool) (ks : List Nat) : State :=
  match s.vtInstr c pc retired with
  | none => s
  | some t => let (t1, s1) := s.vtStages t ks; s1.vtPut 0 t1

/-- An instruction's trace ends with an outcome and the trap code, if any. -/
def State.vtDone (s : State) (c : Nat) (pc : Word) (retired : Bool) (outcome cause : Nat) : State :=
  match s.vtInstr c pc retired with
  | none => s
  | some t => s.vtEnd 0 { t with cause := cause } outcome

/-! ## Stores (R396 to R398) -/

/-- The BAR1 offset of an address of core c's own memories (R385). -/
def memOffset (c : Nat) (r : Region) (a : Word) : Nat :=
  sepBase c + (match r with | .data => 0x4000 + (a.toNat - 0x10000) | _ => a.toNat)

/-- A store reaches its target: whether it is answered with an error, and the state after it. -/
def State.storeOut (s : State) (c : Nat) (x : Store) : Bool × State :=
  match regionOf c x.addr with
  | some .instr => (false, s.twriteN (memOffset c .instr x.addr) x.bytes)
  | some .data => (false, s.twriteN (memOffset c .data x.addr) x.bytes)
  | some .bus =>
    let (err, s1) := s.busWrite c (x.addr.toNat - 0x40000000) 4 (BitVec.ofNat 32 (ofLe x.bytes))
    (err, s1.vtPass c x.pc true [4, 5, 6])
  | some r => s.devStore c r (devOffset r x.addr) x.bytes
  | none => (true, s)

/-- The oldest buffered store drains: the store, where it was answered with an error, and the state after it. -/
def State.drainOne (s : State) (c : Nat) : Option Store × State :=
  let q := s.core c
  match q.wbuf with
  | [] => (none, s)
  | x :: xs =>
    let (err, s1) := (s.setCore c { q with wbuf := xs }).storeOut c x
    (if err then some x else none, (s1.vtPass c x.pc true [7]).vtDone c x.pc true 0 0)

/-- Stores drain in program order while `more` holds of the buffer, at most `fuel` of them; with the first that was answered with an
error. The drain ends there unless it goes `on`. DEDUCED: log entry 160. -/
def State.drainWhile (s : State) (c : Nat) (more : List Store → Bool) (on : Bool) : Nat → Option Store × State
  | 0 => (none, s)
  | fuel + 1 =>
    if !more (s.core c).wbuf then (none, s)
    else
      match s.drainOne c with
      | (some x, s1) => if on then (some x, (s1.drainWhile c more on fuel).2) else (some x, s1)
      | (none, s1) => s1.drainWhile c more on fuel

/-- The whole buffer drains, whatever errors are met; with the first of them. -/
def State.drainAll (s : State) (c : Nat) : Option Store × State :=
  s.drainWhile c (fun b => !b.isEmpty) true (s.core c).wbuf.length

/-- The buffer drains up to the first error. -/
def State.drainFor (s : State) (c : Nat) (more : List Store → Bool) : Option Store × State :=
  s.drainWhile c more false (s.core c).wbuf.length

/-- The held stores of an atomic sequence are committed, oldest first, in one step (R398). -/
def State.commitAtom (s : State) (c : Nat) (a : Atom) : State :=
  a.stores.reverse.foldl (fun s x => (s.storeOut c x).2) s

/-! ## Traps (R392 to R395) -/

/-- A core no longer waits: a waiting semaphore request is withdrawn. -/
def State.endWait (s : State) (c : Nat) : State :=
  let q := s.core c
  let s1 := match q.wait with
    | .lock i _ => s.setSem i { s.sem i with waiters := (s.sem i).waiters.filter (· != c) }
    | _ => s
  s1.setCore c { s1.core c with wait := .none }

/-- The trap codes of R392. -/
def tIllegal : Nat := 1
def tFetch : Nat := 2
def tAlign : Nat := 3
def tBus : Nat := 4
def tPoisonFetch : Nat := 5
def tPoisonLoad : Nat := 6
def tAtom : Nat := 7
def tTrap : Nat := 8
def tEvent : Nat := 9

/-- A trap (R393): an open sequence is discarded and a synchronous trap resumes at its ATOM_BEGIN, the buffer drains, and the core enters
the handler; a synchronous trap in a handler stops the core (R395). A store that errs while the buffer drains raises BUS in its
place. cause holds the code and, for TRAP, the immediate. -/
def State.coreTrap (s : State) (c : Nat) (sync : Bool) (cause epc tval : Word) : State :=
  let q0 := s.core c
  let epc0 := match q0.atom with | some a => if sync then a.start else epc | none => epc
  let q1 := if q0.atom.isSome then { q0 with atom := none, atomAbort := true } else q0
  let s1 := ((s.setCore c { q1 with trapPend := none }).fsetB (SepStat.inAtom c) false).endWait c
  let (err, s2) := s1.drainAll c
  let (sync', cause', epc', tval') := match err with
    | some x => (true, BitVec.ofNat 32 tBus, x.pc, x.addr)
    | none => (sync, cause, epc0, tval)
  let q := s2.core c
  let s3 := s2.fset (SepStat.cause c) (cause'.toNat % 256)
  if sync' && q.inTrap then (s3.setCoreState c 5).alarm
  else
    (s3.setCore c { q with cause := cause', epc := epc', tval := tval', pie := q.ie, ie := false, inTrap := true, pc := q.tvec }).setCoreState
      c 1

/-! ## Halts (R400, R420, R421) -/

/-- A core halts, not forced: its buffer drains first, and a trap that this raises is taken before the halt. -/
def State.coreHalt (s : State) (c : Nat) : State :=
  let (err, s1) := (s.endWait c).drainAll c
  let s2 := match err with
    | some x => s1.coreTrap c true (BitVec.ofNat 32 tBus) x.pc x.addr
    | none => s1
  let s3 := s2.setCore c { s2.core c with haltPend := none, stepping := false }
  if s3.coreState c = 5 then s3 else (s3.setCoreState c 4).rset (SepDpc.reg c) (s3.core c).pc

/-- A forced halt: the sequence is discarded, the semaphores are abandoned, and the core halts at ATOM_BEGIN. -/
def State.forceHalt (s : State) (c : Nat) : State :=
  let q := s.core c
  match q.atom with
  | none => s
  | some a =>
    let s1 := (s.setCore c { q with atom := none, haltPend := none, stepping := false, pc := a.start }).fsetB (SepStat.inAtom c) false
    (((s1.semAbandon c).setCoreState c 4).rset (SepDpc.reg c) a.start).fset (SepStat.forced c) 1

/-- A breakpoint stands at this address (R420): outside a sequence, and in instruction memory only. DEDUCED: log entry 154. -/
def State.bpHit (s : State) (c : Nat) (pc : Word) : Bool :=
  let at' (i : Nat) : Bool := pc.toNat == 4 * s.fget (SepDbgBp.addr c i)
  (s.core c).atom.isNone && ((s.fbit (SepDbgCtl.bp0En c) && at' 0) || (s.fbit (SepDbgCtl.bp1En c) && at' 1))

/-- Something asked of a core elsewhere is due before its next instruction. -/
def CoreSt.due (q : CoreSt) : Bool := q.trapPend.isSome || (q.atom.isNone && (q.haltPend.isSome || q.stepping))

/-- A pending trap, a halt that is no longer deferred, or the end of a step is taken up. DEDUCED: log entry 169. DEDUCED: log entry 160. -/
def State.takeDue (s : State) (c : Nat) : State :=
  let q := s.core c
  let st := s.coreState c
  match q.trapPend with
  | some (cause, epc, tval) => if st = 1 then s.coreTrap c true (BitVec.ofNat 32 cause) epc tval else s.setCore c { q with trapPend := none }
  | none =>
    if q.atom.isSome then s
    else if q.haltPend.isSome ∧ (st = 1 ∨ st = 2 ∨ st = 3) then s.coreHalt c
    else if q.stepping ∧ st = 1 then s.coreHalt c
    else s

/-! ## The outcome of an instruction -/

/-- What follows an instruction: the next pc, a trap (code and immediate, EPC, TVAL), a halt at the next instruction, or neither
because the core waits. -/
inductive After where
  | go (pc : Word)
  | trap (cause epc tval : Word)
  | halt
  | stay
  deriving DecidableEq, Repr

/-- The meaning of an instruction's own effect: on the state, at the pc it is given. -/
abbrev Body := Word → State → State × After

/-- A trap at the instruction itself. DEDUCED: log entry 158. -/
def trapAt (cause : Nat) (pc tval : Word) : After := .trap (BitVec.ofNat 32 cause) pc tval

/-- The trap of a store that drained with an error. DEDUCED: log entry 160. -/
def storeTrap (x : Store) : After := trapAt tBus x.pc x.addr

/-- A result is written to rd and the next instruction follows. -/
def State.result (s : State) (c : Nat) (rd : Nat) (v pc : Word) : State × After := (s.setCore c ((s.core c).setReg rd v), .go (pc + 4))

/-- A register of a core. -/
def State.xreg (s : State) (c i : Nat) : Word := (s.core c).reg i

/-- Handshake steps are counted (R380, R388, R510). DESIGN CHOICE: log entry 161. -/
def State.coreSteps (s : State) (c n : Nat) : State :=
  let q := s.core c
  (s.setCore c { q with steps := q.steps + BitVec.ofNat 32 n }).perfHit 0 0x33 c n

/-! ## Loads -/

/-- The held stores of an open sequence that cover an address, newest first. -/
def Atom.covering (a : Atom) (x : Nat) : Option Byte :=
  a.stores.findSome? fun st => if st.addr.toNat ≤ x ∧ x < st.addr.toNat + st.bytes.length then st.bytes[x - st.addr.toNat]? else none

/-- n bytes of a core's memory as its load sees them: its own held stores before memory (R398); none where one is poisoned (R386).
DEDUCED: log entry 159. DESIGN CHOICE: log entry 17. -/
def State.memLoad (s : State) (c : Nat) (r : Region) (a : Word) (n : Nat) : Option Word × State :=
  let held (i : Nat) : Option Byte := match (s.core c).atom with | some t => t.covering (a.toNat + i) | none => none
  if (List.range n).all fun i => (held i).isNone then
    let (v, s1) := s.treadN 0 (memOffset c r a) n c 4
    (v.map (BitVec.ofNat 32), s1)
  else
    let step (acc : Option Nat × State) (i : Nat) : Option Nat × State :=
      match held i with
      | some b => (acc.1.map (· + b.toNat * 256 ^ i), acc.2)
      | none =>
        let (v, s1) := acc.2.treadN 0 (memOffset c r a + i) 1 c 4
        ((match acc.1, v with | some x, some y => some (x + y * 256 ^ i) | _, _ => none), s1)
    let (v, s1) := (List.range n).foldl step (some 0, s)
    (v.map (BitVec.ofNat 32), s1)

/-- The checks of an access before it starts (R383, R384, R399): the region, or the trap. -/
def State.accessRegion (s : State) (c : Nat) (a : Word) (width : Nat) (store : Bool) : Region ⊕ Nat :=
  let inAtom := (s.core c).atom.isSome
  match regionOf c a with
  | none => .inr (if a.toNat % width ≠ 0 then tAlign else tBus)
  | some r =>
    if inAtom ∧ r ≠ .instr ∧ r ≠ .data then .inr tAtom
    else if a.toNat % width ≠ 0 then .inr tAlign
    else
      match r with
      | .instr | .data => .inl r
      | .rom => if width = 4 ∧ !store then .inl r else .inr tBus
      | .bus => if width = 4 then .inl r else .inr tBus
      | _ => if devAllows r (devOffset r a) width store then .inl r else .inr tBus

/-- A load of `width` bytes to rd; `errs` are the bit errors that a load of FIFO_DATA meets. DEDUCED: log entry 159. DESIGN CHOICE: log entry 161. -/
def loadBody (c rd : Nat) (a : Word) (width errs : Nat) : Body := fun pc s =>
  match s.accessRegion c a width false with
  | .inr cause => (s, trapAt cause pc (if cause = tAtom then pc else a))
  | .inl r =>
    match s.drainFor c fun b => b.any fun x => (regionOf c x.addr).map Region.order == some r.order with
    | (some x, s1) => (s1, storeTrap x)
    | (none, s1) =>
      match r with
      | .instr | .data =>
        match s1.memLoad c r a width with
        | (some v, s2) => s2.result c rd v pc
        | (none, s2) => (s2, trapAt tPoisonLoad pc a)
      | .rom => s1.result c rd (Config.romWord a.toNat) pc
      | .bus =>
        let (n, s2) := s1.free 32
        match (s2.coreSteps c n).busRead c (a.toNat - 0x40000000) 4 with
        | (some v, s3) => (s3.vtPass c pc false [4, 5, 6]).result c rd v pc
        | (none, s3) => (s3, trapAt tBus pc a)
      | r =>
        match s1.devLoad c r (devOffset r a) errs with
        | (.word v, s2) => s2.result c rd v pc
        | (.stall, s2) => ((s2.setCore c { s2.core c with wait := .fifo rd }).setCoreState c 3, .stay)
        | (.poison, s2) => (s2, trapAt tPoisonLoad pc a)

/-- The register of a check unit that takes data (R404). -/
def isCkData (r : Region) (o : Nat) : Bool := (r == .ck && o == 0x18) || (r == .ckf && o == 0x08)

/-- A store of bytes: held in an open sequence, at most 16 of them (R398), else buffered, after a stall while 4 are (R396). DEDUCED: log entry 159. -/
def storeBody (c : Nat) (a : Word) (bs : List Byte) : Body := fun pc s =>
  match s.accessRegion c a bs.length true with
  | .inr cause => (s, trapAt cause pc (if cause = tAtom then pc else a))
  | .inl r =>
    let q := s.core c
    match q.atom with
    | some t =>
      if 16 ≤ t.stores.length then (s, trapAt tAtom pc pc)
      else (s.setCore c { q with atom := some { t with stores := ⟨a, bs, pc⟩ :: t.stores } }, .go (pc + 4))
    | none =>
      let extra := if isCkData r (devOffset r a) then bs.length - 1 else 0
      match (s.coreSteps c extra).drainFor c fun b => decide (4 ≤ b.length) with
      | (some x, s1) => (s1, storeTrap x)
      | (none, s1) =>
        let q1 := s1.core c
        (s1.setCore c { q1 with wbuf := q1.wbuf ++ [⟨a, bs, pc⟩] }, .go (pc + 4))

/-! ## Issue (R380, R387, R393, R399) -/

/-- The words that a fetch at pc may return: the stored word, or one with some of the buffered stores applied (R397). DESIGN CHOICE: log entry 17. -/
def State.fetchWords (s : State) (c : Nat) (pc : Word) : List Word :=
  let step (ws : List Nat) (x : Store) : List Nat :=
    match ws with
    | [] => []
    | v :: _ =>
      let byte (i : Nat) : Nat :=
        let k := pc.toNat + i
        if x.addr.toNat ≤ k ∧ k < x.addr.toNat + x.bytes.length then ((x.bytes[k - x.addr.toNat]?).getD 0).toNat else v / 256 ^ i % 256
      ((List.range 4).map fun i => byte i * 256 ^ i).sum :: ws
  match s.tpeekN (memOffset c .instr pc) 4 with
  | some v => ((s.core c).wbuf.foldl step [v]).map (BitVec.ofNat 32)
  | none => (s.core c).wbuf.filterMap fun x => if x.addr = pc ∧ x.bytes.length = 4 then some (BitVec.ofNat 32 (ofLe x.bytes)) else none

/-- What a fetch at pc comes to: the word that satisfies `ok`, a trap code, or nothing, where it does not return such a word. The boot ROM's
content is not given, so the command says what a fetch from it returns: w. DESIGN CHOICE: log entry 156. DEDUCED: log entry 157. -/
def State.fetch (s : State) (c : Nat) (pc w : Word) (ok : Word → Bool) : Option (Word ⊕ Nat) × State :=
  if pc.toNat % 4 ≠ 0 then (some (.inr tAlign), s)
  else
    match regionOf c pc with
    | some .rom => (some (.inl w), s)
    | some .instr =>
      match (s.fetchWords c pc).find? ok with
      | some v => let (_, s1) := s.treadN 0 (memOffset c .instr pc) 4 c 4; (some (.inl v), s1)
      | none =>
        match s.tpeekN (memOffset c .instr pc) 4 with
        | some _ => (none, s)
        | none => let (_, s1) := s.treadN 0 (memOffset c .instr pc) 4 c 4; (some (.inr tPoisonFetch), s1)
    | _ => (some (.inr tBus), s)

/-- A poisoned word of instruction memory stands at this address. -/
def State.poisonAt (s : State) (c : Nat) (pc : Word) : Bool :=
  regionOf c pc == some .instr && (s.tpeekN (memOffset c .instr pc) 4).isNone

/-- In forerunner mode a poisoned word that was fetched ahead, up to two of them, raises POISON_FETCH once older instructions are
done (R387); how far the core has fetched is open. DESIGN CHOICE: log entry 167. -/
def State.fetchAhead (s : State) (c : Nat) (pc next : Word) : State :=
  if !s.feature 0 1 || s.coreState c != 1 || !(s.poisonAt c (pc + 4) || s.poisonAt c (pc + 8)) then s
  else
    let (d, s1) := s.free 2
    let hit (a : Word) (s : State) : State :=
      let (_, s1) := s.treadN 0 (memOffset c .instr a) 4 c 4
      s1.coreTrap c true (BitVec.ofNat 32 tPoisonFetch) a a
    if 1 ≤ d ∧ s1.poisonAt c (pc + 4) then hit (pc + 4) s1
    else if 2 ≤ d ∧ next ≠ pc + 4 ∧ s1.poisonAt c (pc + 8) then hit (pc + 8) s1
    else s1

/-- The instruction follows its outcome: the pc moves, a trap is taken, or the core halts. DEDUCED: log entry 157. -/
def State.follow (s : State) (c : Nat) (pc : Word) (a : After) : State :=
  match a with
  | .go next =>
    let s1 := (s.setCore c { s.core c with pc := next }).vtPass c pc false [3]
    let s2 := if (s1.core c).wbuf.any fun x => x.pc == pc then s1 else s1.vtDone c pc true 0 0
    s2.fetchAhead c pc next
  | .trap cause epc tval => (s.vtDone c pc false 3 (cause.toNat % 256)).coreTrap c true cause epc tval
  | .halt => ((s.setCore c { s.core c with pc := pc + 4 }).vtDone c pc false 0 0).coreHalt c
  | .stay => s

/-- A halt that a sequence defers is forced when its steps have passed (R420). -/
def State.countHalt (s : State) (c n : Nat) : State :=
  let q := s.core c
  match q.haltPend, q.atom with
  | some k, some _ => if k ≤ n then s.forceHalt c else s.setCore c { q with haltPend := some (k - n) }
  | _, _ => s

/-- The rules of R399 on the word about to execute; none where they allow it. DEDUCED: log entry 158. -/
def CoreSt.atomRule (q : CoreSt) (w : Word) : Bool :=
  match q.atom with
  | none => true
  | some a => decide (a.count < 32) && (atomAllows (wbits w 26 6) || (sepiaDecode 0 w).isNone)

/-- A running core issues one instruction: what is due comes first, then a breakpoint, the fetch, the rules of a sequence, and the
instruction's own effect with what follows it. Where the fetch does not return the word the command names, nothing happens.
DESIGN CHOICE: log entry 156. -/
def State.issueWith (s : State) (c : Nat) (bp : Bool) (w : Word) (ok : Word → Bool) (body : Body) : State :=
  let q := s.core c
  if s.coreState c ≠ 1 then s
  else if q.due then s.takeDue c
  else if bp && s.bpHit c q.pc then s.coreHalt c
  else
    match s.fetch c q.pc w ok with
    | (none, _) => s
    | (some (.inr cause), s1) => s1.coreTrap c true (BitVec.ofNat 32 cause) q.pc q.pc
    | (some (.inl v), s1) =>
      let op := wbits v 26 6
      let s2 := (s1.vtCandidate 0 true c fun serial =>
        { serial := serial, instr := true, unit := c, instant := 0, idx := 0, laneIn := q.pc.toNat, word := v.toNat }).vtPass c q.pc false
          [0, 1, 2]
      if !q.atomRule v then (s2.vtDone c q.pc false 3 tAtom).coreTrap c true (BitVec.ofNat 32 tAtom) q.pc q.pc
      else
        let s3 := s2.setCore c { s2.core c with atom := q.atom.map fun a => { a with count := a.count + 1 } }
        let (s4, after) := body q.pc (s3.coreSteps c (stepsOf op))
        (s4.follow c q.pc after).countHalt c (stepsOf op)

/-- An instruction with its word. DESIGN CHOICE: log entry 156. -/
def State.issue (s : State) (c : Nat) (bp : Bool) (w : Word) (body : Body) : State := s.issueWith c bp w (· == w) body

end Sys2Proof.Machine
end

