-- ==== Sys2Proof/Machine/Cores.lean ====
section
/-! DEFINITION. The instructions of a Sepia core (R389 to R401, R417): the effect of each, and its command. -/

namespace Sys2Proof.Machine

/-! ## Arithmetic -/

/-- The amount of a shift by a register: rb[4:0]. -/
def shiftBy (b : Word) : Nat := b.toNat % 32

/-- A computed result goes to rd. -/
def aluBody (c rd : Nat) (f : State → Word) : Body := fun pc s => s.result c rd (f s) pc

/-- ADD: rd := ra + rb. -/
def bodyAdd (c : CoreN) (rd ra rb : XReg) : Body := aluBody c rd fun s => s.xreg c ra + s.xreg c rb

/-- SUB: rd := ra − rb. -/
def bodySub (c : CoreN) (rd ra rb : XReg) : Body := aluBody c rd fun s => s.xreg c ra - s.xreg c rb

/-- AND: rd := ra and rb. -/
def bodyAnd (c : CoreN) (rd ra rb : XReg) : Body := aluBody c rd fun s => s.xreg c ra &&& s.xreg c rb

/-- OR: rd := ra or rb. -/
def bodyOr (c : CoreN) (rd ra rb : XReg) : Body := aluBody c rd fun s => s.xreg c ra ||| s.xreg c rb

/-- XOR: rd := ra xor rb. -/
def bodyXor (c : CoreN) (rd ra rb : XReg) : Body := aluBody c rd fun s => s.xreg c ra ^^^ s.xreg c rb

/-- SHL: rd := ra << rb[4:0]. -/
def bodyShl (c : CoreN) (rd ra rb : XReg) : Body := aluBody c rd fun s => s.xreg c ra <<< shiftBy (s.xreg c rb)

/-- SHR: rd := ra >> rb[4:0], zero fill. -/
def bodyShr (c : CoreN) (rd ra rb : XReg) : Body := aluBody c rd fun s => s.xreg c ra >>> shiftBy (s.xreg c rb)

/-- SRA: rd := ra >> rb[4:0], sign fill. -/
def bodySra (c : CoreN) (rd ra rb : XReg) : Body := aluBody c rd fun s => (s.xreg c ra).sshiftRight (shiftBy (s.xreg c rb))

/-- MUL: rd := (ra × rb)[31:0], in two steps. -/
def bodyMul (c : CoreN) (rd ra rb : XReg) : Body := aluBody c rd fun s => s.xreg c ra * s.xreg c rb

/-- SLT: rd := 1 if ra < rb, signed, else 0. -/
def bodySlt (c : CoreN) (rd ra rb : XReg) : Body := aluBody c rd fun s => flagWord (ltSigned (s.xreg c ra) (s.xreg c rb))

/-- SLTU: rd := 1 if ra < rb, unsigned, else 0. -/
def bodySltu (c : CoreN) (rd ra rb : XReg) : Body := aluBody c rd fun s => flagWord (ltUnsigned (s.xreg c ra) (s.xreg c rb))

/-- ADDI: rd := ra + sext(imm). -/
def bodyAddi (c : CoreN) (rd ra : XReg) (imm : BitVec 18) : Body := aluBody c rd fun s => s.xreg c ra + sext18 imm

/-- ANDI: rd := ra and zext(imm). -/
def bodyAndi (c : CoreN) (rd ra : XReg) (imm : BitVec 18) : Body := aluBody c rd fun s => s.xreg c ra &&& zext18 imm

/-- ORI: rd := ra or zext(imm). -/
def bodyOri (c : CoreN) (rd ra : XReg) (imm : BitVec 18) : Body := aluBody c rd fun s => s.xreg c ra ||| zext18 imm

/-- XORI: rd := ra xor zext(imm). -/
def bodyXori (c : CoreN) (rd ra : XReg) (imm : BitVec 18) : Body := aluBody c rd fun s => s.xreg c ra ^^^ zext18 imm

/-- SHLI: rd := ra << imm[4:0]. -/
def bodyShli (c : CoreN) (rd ra : XReg) (sh : BitVec 5) : Body := aluBody c rd fun s => s.xreg c ra <<< sh.toNat

/-- SHRI: rd := ra >> imm[4:0], zero fill. -/
def bodyShri (c : CoreN) (rd ra : XReg) (sh : BitVec 5) : Body := aluBody c rd fun s => s.xreg c ra >>> sh.toNat

/-- SRAI: rd := ra >> imm[4:0], sign fill. -/
def bodySrai (c : CoreN) (rd ra : XReg) (sh : BitVec 5) : Body := aluBody c rd fun s => (s.xreg c ra).sshiftRight sh.toNat

/-- LUI: rd := imm << 18. -/
def bodyLui (c : CoreN) (rd : XReg) (imm : BitVec 14) : Body := aluBody c rd fun _ => luiValue imm

/-! ## Memory -/

/-- LDW: rd := word at ra + sext(off). -/
def bodyLdw (c : CoreN) (rd ra : XReg) (off : BitVec 18) : Body := fun pc s => loadBody c rd (memAddr (s.xreg c ra) off) 4 0 pc s

/-- LDH: rd := zext(half-word) at ra + sext(off). -/
def bodyLdh (c : CoreN) (rd ra : XReg) (off : BitVec 18) : Body := fun pc s => loadBody c rd (memAddr (s.xreg c ra) off) 2 0 pc s

/-- LDB: rd := zext(byte) at ra + sext(off). -/
def bodyLdb (c : CoreN) (rd ra : XReg) (off : BitVec 18) : Body := fun pc s => loadBody c rd (memAddr (s.xreg c ra) off) 1 0 pc s

/-- STW: word at ra + sext(off) := rs. -/
def bodyStw (c : CoreN) (rs ra : XReg) (off : BitVec 18) : Body := fun pc s =>
  storeBody c (memAddr (s.xreg c ra) off) (leBytes 4 (s.xreg c rs).toNat) pc s

/-- STH: half-word at ra + sext(off) := rs. -/
def bodySth (c : CoreN) (rs ra : XReg) (off : BitVec 18) : Body := fun pc s =>
  storeBody c (memAddr (s.xreg c ra) off) (leBytes 2 (s.xreg c rs).toNat) pc s

/-- STB: byte at ra + sext(off) := rs. -/
def bodyStb (c : CoreN) (rs ra : XReg) (off : BitVec 18) : Body := fun pc s =>
  storeBody c (memAddr (s.xreg c ra) off) (leBytes 1 (s.xreg c rs).toNat) pc s

/-! ## Branches and jumps -/

/-- Control goes to a target; one that is misaligned or outside the fetchable regions raises FETCH (R391). -/
def goTo (c : Nat) (pc target : Word) : After :=
  if target.toNat % 4 = 0 ∧ fetchable c target then .go target else trapAt tFetch pc target

/-- A branch, taken on a condition. -/
def branchBody (c : Nat) (off : BitVec 18) (cond : State → Bool) : Body := fun pc s =>
  (s, if cond s then goTo c pc (branchTarget pc off) else .go (pc + 4))

/-- BEQ: taken if ra = rb. -/
def bodyBeq (c : CoreN) (ra rb : XReg) (off : BitVec 18) : Body := branchBody c off fun s => s.xreg c ra == s.xreg c rb

/-- BNE: taken if ra ≠ rb. -/
def bodyBne (c : CoreN) (ra rb : XReg) (off : BitVec 18) : Body := branchBody c off fun s => s.xreg c ra != s.xreg c rb

/-- BLT: taken if ra < rb, signed. -/
def bodyBlt (c : CoreN) (ra rb : XReg) (off : BitVec 18) : Body := branchBody c off fun s => ltSigned (s.xreg c ra) (s.xreg c rb)

/-- BGE: taken if ra ≥ rb, signed. -/
def bodyBge (c : CoreN) (ra rb : XReg) (off : BitVec 18) : Body := branchBody c off fun s => !ltSigned (s.xreg c ra) (s.xreg c rb)

/-- JMP. -/
def bodyJmp (c : CoreN) (off : BitVec 26) : Body := fun pc s => (s, goTo c pc (jumpTarget pc off))

/-- CALL: x15 := pc + 4, then as JMP; nothing is written where the jump traps (R393). -/
def bodyCall (c : CoreN) (off : BitVec 26) : Body := fun pc s =>
  match goTo c pc (jumpTarget pc off) with
  | .go next => (s.setCore c ((s.core c).setReg 15 (pc + 4)), .go next)
  | a => (s, a)

/-- JR: pc := ra. -/
def bodyJr (c : CoreN) (ra : XReg) : Body := fun pc s => (s, goTo c pc (s.xreg c ra))

/-! ## Control and status registers -/

/-- ILLEGAL, with the instruction word. -/
def illegal (pc w : Word) : After := trapAt tIllegal pc w

/-- CSRR: rd := CSR; an unlisted number is illegal (R388). DEDUCED: log entry 162. -/
def bodyCsrr (c : CoreN) (rd : XReg) (csr : BitVec 8) : Body := fun pc s =>
  match (s.core c).csr c csr.toNat with
  | some v => s.result c rd v pc
  | none => (s, illegal pc (encI 0x30 rd 0 csr.toNat))

/-- CSRW: CSR := ra. -/
def bodyCsrw (c : CoreN) (ra : XReg) (csr : BitVec 8) : Body := fun pc s =>
  match (s.core c).setCsr csr.toNat (s.xreg c ra) s.now with
  | some q => (s.setCore c q, .go (pc + 4))
  | none => (s, illegal pc (encI 0x31 0 ra csr.toNat))

/-! ## Semaphores, sequences, waiting, traps -/

/-- A core waits in an instruction, which ends elsewhere. -/
def State.waitIn (s : State) (c : Nat) (w : CoreWait) : State × After :=
  ((s.setCore c { s.core c with wait := w }).setCoreState c 2, .stay)

/-- SLOCK (R416, R417): the request is answered at once, but that it waits while the semaphore is held, unless nowait. -/
def bodySlock (c : CoreN) (rd : XReg) (i : SemN) (nowait : Bool) : Body := fun pc s =>
  let (r, s1) := s.semTry c i
  if r = 4 && !nowait then
    let m := s1.sem i
    (s1.setSem i { m with waiters := m.waiters ++ [c.val] }).waitIn c (.lock i rd)
  else s1.result c rd (BitVec.ofNat 32 r) pc

/-- SFREE (R417). -/
def bodySfree (c : CoreN) (rd : XReg) (i : SemN) : Body := fun pc s =>
  let (r, s1) := s.semFree c i
  s1.result c rd (BitVec.ofNat 32 r) pc

/-- What follows once the write buffer is empty; a store that drains with an error raises BUS first. -/
def drained (c : Nat) (next : State → State × After) (s : State) : State × After :=
  match s.drainFor c fun b => !b.isEmpty with
  | (some x, s1) => (s1, storeTrap x)
  | (none, s1) => next s1

/-- ATOM_BEGIN (R398): a sequence opens. -/
def bodyAtomBegin (c : CoreN) : Body := fun pc s =>
  drained c (fun s => ((s.setCore c { s.core c with atom := some { start := pc, count := 1, stores := [] } }).fsetB (SepStat.inAtom c) true,
    .go (pc + 4))) s

/-- ATOM_END (R398): the held stores are committed; outside a sequence it raises ATOM (R399). -/
def bodyAtomEnd (c : CoreN) : Body := fun pc s =>
  match (s.core c).atom with
  | none => (s, trapAt tAtom pc pc)
  | some a =>
    let s1 := s.commitAtom c a
    ((s1.setCore c { s1.core c with atom := none }).fsetB (SepStat.inAtom c) false, .go (pc + 4))

/-- FENCE (R397). -/
def bodyFence (c : CoreN) : Body := fun pc s => drained c (fun s => (s, .go (pc + 4))) s

/-- Pending events that WAIT takes: they are written to rd and cleared (R401). -/
def State.takeEvents (s : State) (c rd pend : Nat) (pc : Word) : State × After :=
  let q := s.core c
  (s.setCore c { q with evpend := q.evpend - pend }).result c rd (BitVec.ofNat 32 pend) pc

/-- WAIT (R401): for an event of the mask, of which an empty one is illegal. -/
def bodyWait (c : CoreN) (rd : XReg) (mask : BitVec 7) : Body := fun pc s =>
  if mask = 0 then (s, illegal pc (encI 0x37 rd 0 0))
  else drained c (fun s =>
    let pend := (s.core c).evpend &&& mask.toNat
    if pend = 0 then s.waitIn c (.event mask.toNat rd) else s.takeEvents c rd pend pc) s

/-- TRAP (R392): the trap code with the immediate, resuming at the next instruction. -/
def bodyTrap (imm : BitVec 18) : Body := fun pc s => (s, .trap (BitVec.ofNat 32 (tTrap + imm.toNat * 256)) (pc + 4) 0)

/-- RETT (R394): back from a trap; outside one it is illegal. -/
def bodyRett (c : CoreN) : Body := fun pc s =>
  let q := s.core c
  if !q.inTrap then (s, illegal pc (encI 0x39 0 0 0)) else (s.setCore c { q with ie := q.pie, inTrap := false }, .go q.epc)

/-- HALT (R421). -/
def bodyHalt : Body := fun _ s => (s, .halt)

/-- A word that spells no instruction (R391). -/
def bodyIllegal (w : Word) : Body := fun pc s => (s, illegal pc w)

/-- The effect of an instruction; none of the other commands. -/
def sepiaBody : Instr → Option Body
  | .add c rd ra rb => some (bodyAdd c rd ra rb)
  | .sub c rd ra rb => some (bodySub c rd ra rb)
  | .and c rd ra rb => some (bodyAnd c rd ra rb)
  | .or c rd ra rb => some (bodyOr c rd ra rb)
  | .xor c rd ra rb => some (bodyXor c rd ra rb)
  | .shl c rd ra rb => some (bodyShl c rd ra rb)
  | .shr c rd ra rb => some (bodyShr c rd ra rb)
  | .sra c rd ra rb => some (bodySra c rd ra rb)
  | .mul c rd ra rb => some (bodyMul c rd ra rb)
  | .slt c rd ra rb => some (bodySlt c rd ra rb)
  | .sltu c rd ra rb => some (bodySltu c rd ra rb)
  | .addi c rd ra imm => some (bodyAddi c rd ra imm)
  | .andi c rd ra imm => some (bodyAndi c rd ra imm)
  | .ori c rd ra imm => some (bodyOri c rd ra imm)
  | .xori c rd ra imm => some (bodyXori c rd ra imm)
  | .shli c rd ra sh => some (bodyShli c rd ra sh)
  | .shri c rd ra sh => some (bodyShri c rd ra sh)
  | .srai c rd ra sh => some (bodySrai c rd ra sh)
  | .lui c rd imm => some (bodyLui c rd imm)
  | .ldw c rd ra off => some (bodyLdw c rd ra off)
  | .ldh c rd ra off => some (bodyLdh c rd ra off)
  | .ldb c rd ra off => some (bodyLdb c rd ra off)
  | .stw c rs ra off => some (bodyStw c rs ra off)
  | .sth c rs ra off => some (bodySth c rs ra off)
  | .stb c rs ra off => some (bodyStb c rs ra off)
  | .beq c ra rb off => some (bodyBeq c ra rb off)
  | .bne c ra rb off => some (bodyBne c ra rb off)
  | .blt c ra rb off => some (bodyBlt c ra rb off)
  | .bge c ra rb off => some (bodyBge c ra rb off)
  | .jmp c off => some (bodyJmp c off)
  | .call c off => some (bodyCall c off)
  | .jr c ra => some (bodyJr c ra)
  | .csrr c rd csr => some (bodyCsrr c rd csr)
  | .csrw c ra csr => some (bodyCsrw c ra csr)
  | .slock c rd i nowait => some (bodySlock c rd i nowait)
  | .sfree c rd i => some (bodySfree c rd i)
  | .atomBegin c => some (bodyAtomBegin c)
  | .atomEnd c => some (bodyAtomEnd c)
  | .fence c => some (bodyFence c)
  | .wait c rd mask => some (bodyWait c rd mask)
  | .trap _ imm => some (bodyTrap imm)
  | .rett c => some (bodyRett c)
  | .halt _ => some (bodyHalt)
  | _ => none

/-! ## What an access or an instruction sets off at the cores -/

/-- The effect of whatever stands in a word. -/
def wordBody (c : CoreN) (w : Word) : Body :=
  match (sepiaDecode c w).bind sepiaBody with
  | some b => b
  | none => bodyIllegal w

/-- The core runs the instruction at its pc, as stored. -/
def State.runHere (s : State) (c : CoreN) : State :=
  let pc := (s.core c).pc
  let w : Word := if regionOf c pc = some .rom then Config.romWord pc.toNat
    else match s.tpeekN (memOffset c .instr pc) 4 with | some v => BitVec.ofNat 32 v | none => 0
  s.issue c false w (wordBody c w)

/-- A sequence that is open runs on, at most `fuel` instructions. -/
def State.runAtom (s : State) (c : CoreN) : Nat → State
  | 0 => s
  | fuel + 1 => if (s.core c).atom.isSome && s.coreState c == 1 then (s.runHere c).runAtom c fuel else s

/-- One instruction of a halted core, or one sequence (R421); the core halts again after it. -/
def State.stepCore (s : State) (c : CoreN) : State :=
  let s1 := (s.setCore c { s.core c with stepPend := false, pc := s.rget (SepDpc.reg c) }).setCoreState c 1
  let s2 := (s1.runHere c).runAtom c 32
  let st := s2.coreState c
  if st = 1 ∨ st = 2 ∨ st = 3 then s2.setCore c { s2.core c with stepping := true } else s2

/-- Core c has something to do that an access or another core asked of it: stores left when its domain went off, a step, a trap or a
halt. -/
def State.coreNeeds (s : State) (c : Nat) : Bool :=
  let q := s.core c
  let st := s.coreState c
  (st == 6 && !q.wbuf.isEmpty) || q.stepPend || q.trapPend.isSome
    || (q.atom.isNone && ((q.haltPend.isSome && (st == 1 || st == 2 || st == 3)) || (q.stepping && st == 1)))

/-- What core c has to do is done; stores left at power-off only drain. -/
def State.settleCore (s : State) (c : CoreN) : State :=
  let q := s.core c
  let st := s.coreState c
  if st = 6 ∧ !q.wbuf.isEmpty then (s.drainAll c).2
  else if q.stepPend then if st = 4 then s.stepCore c else s.setCore c { q with stepPend := false }
  else s.takeDue c

/-- The cores settle, one after the other, in at most `fuel` turns. -/
def State.settleN (s : State) : Nat → State
  | 0 => s
  | fuel + 1 =>
    match (s.cores.map (·.1)).find? s.coreNeeds with
    | none => s
    | some c => (s.settleCore (Fin.ofNat 32 c)).settleN fuel

def State.settle (s : State) : State := s.settleN 64

/-! ## The instructions as commands -/

/-- ADD. -/
def execAdd (c : CoreN) (rd ra rb : XReg) (s : State) : Out := .next (s.issue c true (encA 0x01 rd ra rb) (bodyAdd c rd ra rb)).settle

/-- SUB. -/
def execSub (c : CoreN) (rd ra rb : XReg) (s : State) : Out := .next (s.issue c true (encA 0x02 rd ra rb) (bodySub c rd ra rb)).settle

/-- AND. -/
def execAnd (c : CoreN) (rd ra rb : XReg) (s : State) : Out := .next (s.issue c true (encA 0x03 rd ra rb) (bodyAnd c rd ra rb)).settle

/-- OR. -/
def execOr (c : CoreN) (rd ra rb : XReg) (s : State) : Out := .next (s.issue c true (encA 0x04 rd ra rb) (bodyOr c rd ra rb)).settle

/-- XOR. -/
def execXor (c : CoreN) (rd ra rb : XReg) (s : State) : Out := .next (s.issue c true (encA 0x05 rd ra rb) (bodyXor c rd ra rb)).settle

/-- SHL. -/
def execShl (c : CoreN) (rd ra rb : XReg) (s : State) : Out := .next (s.issue c true (encA 0x06 rd ra rb) (bodyShl c rd ra rb)).settle

/-- SHR. -/
def execShr (c : CoreN) (rd ra rb : XReg) (s : State) : Out := .next (s.issue c true (encA 0x07 rd ra rb) (bodyShr c rd ra rb)).settle

/-- SRA. -/
def execSra (c : CoreN) (rd ra rb : XReg) (s : State) : Out := .next (s.issue c true (encA 0x08 rd ra rb) (bodySra c rd ra rb)).settle

/-- MUL. -/
def execMul (c : CoreN) (rd ra rb : XReg) (s : State) : Out := .next (s.issue c true (encA 0x09 rd ra rb) (bodyMul c rd ra rb)).settle

/-- SLT. -/
def execSlt (c : CoreN) (rd ra rb : XReg) (s : State) : Out := .next (s.issue c true (encA 0x0A rd ra rb) (bodySlt c rd ra rb)).settle

/-- SLTU. -/
def execSltu (c : CoreN) (rd ra rb : XReg) (s : State) : Out := .next (s.issue c true (encA 0x0B rd ra rb) (bodySltu c rd ra rb)).settle

/-- ADDI. -/
def execAddi (c : CoreN) (rd ra : XReg) (imm : BitVec 18) (s : State) : Out := .next (s.issue c true (encI 0x10 rd ra imm.toNat) (bodyAddi c rd ra imm)).settle

/-- ANDI. -/
def execAndi (c : CoreN) (rd ra : XReg) (imm : BitVec 18) (s : State) : Out := .next (s.issue c true (encI 0x11 rd ra imm.toNat) (bodyAndi c rd ra imm)).settle

/-- ORI. -/
def execOri (c : CoreN) (rd ra : XReg) (imm : BitVec 18) (s : State) : Out := .next (s.issue c true (encI 0x12 rd ra imm.toNat) (bodyOri c rd ra imm)).settle

/-- XORI. -/
def execXori (c : CoreN) (rd ra : XReg) (imm : BitVec 18) (s : State) : Out := .next (s.issue c true (encI 0x13 rd ra imm.toNat) (bodyXori c rd ra imm)).settle

/-- SHLI. -/
def execShli (c : CoreN) (rd ra : XReg) (sh : BitVec 5) (s : State) : Out := .next (s.issue c true (encI 0x14 rd ra sh.toNat) (bodyShli c rd ra sh)).settle

/-- SHRI. -/
def execShri (c : CoreN) (rd ra : XReg) (sh : BitVec 5) (s : State) : Out := .next (s.issue c true (encI 0x15 rd ra sh.toNat) (bodyShri c rd ra sh)).settle

/-- SRAI. -/
def execSrai (c : CoreN) (rd ra : XReg) (sh : BitVec 5) (s : State) : Out := .next (s.issue c true (encI 0x16 rd ra sh.toNat) (bodySrai c rd ra sh)).settle

/-- LUI. -/
def execLui (c : CoreN) (rd : XReg) (imm : BitVec 14) (s : State) : Out := .next (s.issue c true (encI 0x17 rd 0 imm.toNat) (bodyLui c rd imm)).settle

/-- LDW. -/
def execLdw (c : CoreN) (rd ra : XReg) (off : BitVec 18) (s : State) : Out := .next (s.issue c true (encI 0x18 rd ra off.toNat) (bodyLdw c rd ra off)).settle

/-- LDH. -/
def execLdh (c : CoreN) (rd ra : XReg) (off : BitVec 18) (s : State) : Out := .next (s.issue c true (encI 0x19 rd ra off.toNat) (bodyLdh c rd ra off)).settle

/-- LDB. -/
def execLdb (c : CoreN) (rd ra : XReg) (off : BitVec 18) (s : State) : Out := .next (s.issue c true (encI 0x1A rd ra off.toNat) (bodyLdb c rd ra off)).settle

/-- STW. -/
def execStw (c : CoreN) (rs ra : XReg) (off : BitVec 18) (s : State) : Out := .next (s.issue c true (encI 0x1C rs ra off.toNat) (bodyStw c rs ra off)).settle

/-- STH. -/
def execSth (c : CoreN) (rs ra : XReg) (off : BitVec 18) (s : State) : Out := .next (s.issue c true (encI 0x1D rs ra off.toNat) (bodySth c rs ra off)).settle

/-- STB. -/
def execStb (c : CoreN) (rs ra : XReg) (off : BitVec 18) (s : State) : Out := .next (s.issue c true (encI 0x1E rs ra off.toNat) (bodyStb c rs ra off)).settle

/-- BEQ. -/
def execBeq (c : CoreN) (ra rb : XReg) (off : BitVec 18) (s : State) : Out := .next (s.issue c true (encI 0x20 ra rb off.toNat) (bodyBeq c ra rb off)).settle

/-- BNE. -/
def execBne (c : CoreN) (ra rb : XReg) (off : BitVec 18) (s : State) : Out := .next (s.issue c true (encI 0x21 ra rb off.toNat) (bodyBne c ra rb off)).settle

/-- BLT. -/
def execBlt (c : CoreN) (ra rb : XReg) (off : BitVec 18) (s : State) : Out := .next (s.issue c true (encI 0x22 ra rb off.toNat) (bodyBlt c ra rb off)).settle

/-- BGE. -/
def execBge (c : CoreN) (ra rb : XReg) (off : BitVec 18) (s : State) : Out := .next (s.issue c true (encI 0x23 ra rb off.toNat) (bodyBge c ra rb off)).settle

/-- JMP. -/
def execJmp (c : CoreN) (off : BitVec 26) (s : State) : Out := .next (s.issue c true (encJ 0x28 off) (bodyJmp c off)).settle

/-- CALL. -/
def execCall (c : CoreN) (off : BitVec 26) (s : State) : Out := .next (s.issue c true (encJ 0x29 off) (bodyCall c off)).settle

/-- JR. -/
def execJr (c : CoreN) (ra : XReg) (s : State) : Out := .next (s.issue c true (encA 0x2A 0 ra 0) (bodyJr c ra)).settle

/-- CSRR. -/
def execCsrr (c : CoreN) (rd : XReg) (csr : BitVec 8) (s : State) : Out := .next (s.issue c true (encI 0x30 rd 0 csr.toNat) (bodyCsrr c rd csr)).settle

/-- CSRW. -/
def execCsrw (c : CoreN) (ra : XReg) (csr : BitVec 8) (s : State) : Out := .next (s.issue c true (encI 0x31 0 ra csr.toNat) (bodyCsrw c ra csr)).settle

/-- SLOCK. -/
def execSlock (c : CoreN) (rd : XReg) (i : SemN) (nowait : Bool) (s : State) : Out := .next (s.issue c true (encI 0x32 rd 0 (i + (if nowait then 64 else 0))) (bodySlock c rd i nowait)).settle

/-- SFREE. -/
def execSfree (c : CoreN) (rd : XReg) (i : SemN) (s : State) : Out := .next (s.issue c true (encI 0x33 rd 0 i) (bodySfree c rd i)).settle

/-- ATOM_BEGIN. -/
def execAtomBegin (c : CoreN) (s : State) : Out := .next (s.issue c true (encI 0x34 0 0 0) (bodyAtomBegin c)).settle

/-- ATOM_END. -/
def execAtomEnd (c : CoreN) (s : State) : Out := .next (s.issue c true (encI 0x35 0 0 0) (bodyAtomEnd c)).settle

/-- FENCE. -/
def execFence (c : CoreN) (s : State) : Out := .next (s.issue c true (encI 0x36 0 0 0) (bodyFence c)).settle

/-- WAIT. -/
def execWait (c : CoreN) (rd : XReg) (mask : BitVec 7) (s : State) : Out := .next (s.issue c true (encI 0x37 rd 0 mask.toNat) (bodyWait c rd mask)).settle

/-- TRAP. -/
def execTrap (c : CoreN) (imm : BitVec 18) (s : State) : Out := .next (s.issue c true (encI 0x38 0 0 imm.toNat) (bodyTrap imm)).settle

/-- RETT. -/
def execRett (c : CoreN) (s : State) : Out := .next (s.issue c true (encI 0x39 0 0 0) (bodyRett c)).settle

/-- HALT. -/
def execHalt (c : CoreN) (s : State) : Out := .next (s.issue c true (encI 0x3A 0 0 0) (bodyHalt)).settle

/-- ILLEGAL_OPCODE (R391): a word that spells no instruction would execute. -/
def execIllegalOpcode (c : CoreN) (word : Word) (s : State) : Out :=
  .next (if (sepiaDecode c word).isSome then s else (s.issue c true word (bodyIllegal word)).settle)

end Sys2Proof.Machine
end

