-- ==== Sys2Proof/Machine/Debug.lean ====
section
/-! DEFINITION. What happens at a Sepia core besides its instructions (R396, R401 to R406, R411 to R413, R419 to R421): events, the write
buffer, its FIFO reader and check units, halts, resumes, steps and breakpoints. -/

namespace Sys2Proof.Machine

/-! ## Events -/

/-- EVENT_TRAP (R393, R401): a pending enabled event is taken between instructions, outside a sequence. DEDUCED: log entry 169. -/
def doEventTrap (c : CoreN) (s : State) : State :=
  let q := s.core c
  let pend := q.evpend &&& q.ieMask
  if s.coreState c = 1 ∧ q.ie ∧ q.atom = none ∧ pend ≠ 0 ∧ !q.due then
    (s.coreTrap c false (BitVec.ofNat 32 tEvent) q.pc (BitVec.ofNat 32 pend)).settle
  else s

def execEventTrap (c : CoreN) (s : State) : Out := .next (doEventTrap c s)

/-- WAIT_WAKE (R401): an event of its mask ends a WAIT, with the events written to rd and cleared. -/
def doWaitWake (c : CoreN) (s : State) : State :=
  let q := s.core c
  match q.wait with
  | .event mask rd =>
    let pend := q.evpend &&& mask
    if s.coreState c = 2 ∧ pend ≠ 0 then
      let (s1, after) := ((s.setCore c { q with wait := .none }).setCoreState c 1).takeEvents c rd pend q.pc
      (s1.follow c q.pc after).settle
    else s
  | _ => s

def execWaitWake (c : CoreN) (s : State) : Out := .next (doWaitWake c s)

/-- CORE_TICK (R401): device time has come to another whole multiple of the tick period. DEDUCED: log entry 164. -/
def doCoreTick (c : CoreN) (s : State) : State :=
  let q := s.core c
  let t := tickInstant q.tickUs s.now
  if q.tickUs = 0 ∨ t = q.lastTick then s else (s.setCore c { q with lastTick := t }).coreEvent c 1

def execCoreTick (c : CoreN) (s : State) : Out := .next (doCoreTick c s)

/-- MBOX_WRITE (R401, R422): a write of SEP_MBOX_IN. -/
def doMboxWrite (m : Nat) (c : CoreN) (value : Word) (s : State) : State :=
  s.access m (SepMboxIn.reg c) true fun s =>
    if s.jtagBarred m c true then s.busErr m 8 true 0 (SepMboxIn.reg c) else s.mboxIn c value

def execMboxWrite (m : Master) (c : CoreN) (value : Word) (s : State) : Out := .next (doMboxWrite m c value s)

/-! ## The write buffer -/

/-- WRITE_BUFFER_DRAIN (R396): the oldest store drains; an error raises BUS, but at a core that is off (R400). -/
def doWriteBufferDrain (c : CoreN) (s : State) : State :=
  match s.drainOne c with
  | (none, s1) => s1.settle
  | (some x, s1) =>
    let st := s1.coreState c
    if st = 1 ∨ st = 2 ∨ st = 3 then (s1.coreTrap c true (BitVec.ofNat 32 tBus) x.pc x.addr).settle else s1.settle

def execWriteBufferDrain (c : CoreN) (s : State) : Out := .next (doWriteBufferDrain c s)

/-! ## Core-local devices -/

/-- A word that loads rd from an address. -/
def State.loadsFrom (s : State) (c : CoreN) (rd : XReg) (a w : Word) : Bool :=
  match sepiaDecode c w with
  | some (.ldw _ d ra off) => d == rd && memAddr (s.xreg c ra) off == a
  | _ => false

/-- A load that stalled on FIFO_DATA comes again. -/
def State.fifoRetry (s : State) (c : CoreN) (rd : XReg) (errs : Nat) : State :=
  let pc := (s.core c).pc
  match s.fifoLoad (c - 1) errs with
  | (.stall, s1) => s1
  | (l, s1) =>
    let s2 := (s1.setCore c { s1.core c with wait := .none }).setCoreState c 1
    match l with
    | .word v => let (s3, after) := s2.result c rd v pc; (s3.follow c pc after).settle
    | _ => (s2.follow c pc (trapAt tPoisonLoad pc 0x20000)).settle

/-- FIFO_DATA (R412, R413): the load of FIFO_DATA at the pc, or one that stalled, meets `errs` bit errors. DESIGN CHOICE: log entry 165.
DESIGN CHOICE: log entry 170. -/
def doFifoData (c : CoreN) (rd : XReg) (errs : Nat) (s : State) : State :=
  match (s.core c).wait with
  | .fifo r => if r = rd.val ∧ s.coreState c = 3 then s.fifoRetry c rd errs else s
  | _ => (s.issueWith c true (encI 0x18 rd 0 0) (s.loadsFrom c rd 0x20000) (loadBody c rd 0x20000 4 errs)).settle

def execFifoData (c : CoreN) (rd : XReg) (errs : Fin 3) (s : State) : Out := .next (doFifoData c rd errs s)

/-- A store reaches a core-local device of core c. A store that the device refuses raises BUS. DESIGN CHOICE: log entry 170. -/
def State.deviceStore (s : State) (c : CoreN) (r : Region) (o : Nat) (bs : List Byte) (a : Word) : State :=
  if regionOf c a ≠ some r ∨ s.coreState c = 0 ∨ s.coreState c = 6 then s
  else
    match s.devStore c r o bs with
    | (false, s1) => s1
    | (true, s1) => (s1.coreTrap c true (BitVec.ofNat 32 tBus) (s1.core c).pc a).settle

/-- FIFO_MARK (R412): a store to FIFO_MARK. -/
def execFifoMark (c : CoreN) (s : State) : Out := .next (s.deviceStore c .fifo 0x08 [0, 0, 0, 0] 0x20008)

/-- FIFO_REWIND (R412): a store to FIFO_REWIND. -/
def execFifoRewind (c : CoreN) (s : State) : Out := .next (s.deviceStore c .fifo 0x0C [0, 0, 0, 0] 0x2000C)

/-- FIFO_RELEASE (R412): a store to FIFO_RELEASE. -/
def execFifoRelease (c : CoreN) (s : State) : Out := .next (s.deviceStore c .fifo 0x10 [0, 0, 0, 0] 0x20010)

/-- CK_START (R403, R405): a store to CK_START or CK_F_START. -/
def execCkStart (c : CoreN) (fixedUnit : Bool) (s : State) : Out :=
  .next (if fixedUnit then s.deviceStore c .ckf 0x04 [0, 0, 0, 0] 0x21104 else s.deviceStore c .ck 0x14 [0, 0, 0, 0] 0x21014)

/-- CK_DATA (R404): a store to CK_DATA or CK_F_DATA. -/
def execCkData (c : CoreN) (fixedUnit : Bool) (bytes : List Byte) (s : State) : Out :=
  .next (if fixedUnit then s.deviceStore c .ckf 0x08 bytes 0x21108 else s.deviceStore c .ck 0x18 bytes 0x21018)

/-- The address of a result word of a check unit. -/
def crcAddr (fixed hi : Bool) : Word :=
  match fixed, hi with | false, false => 0x2101C | false, true => 0x21020 | true, false => 0x2110C | true, true => 0x21110

/-- CK_RESULT_LOAD (R404): the load of a check unit's result at the pc. -/
def doCkResultLoad (c : CoreN) (fixed hi : Bool) (rd : XReg) (s : State) : State :=
  let a := crcAddr fixed hi
  (s.issueWith c true (encI 0x18 rd 0 0) (s.loadsFrom c rd a) (loadBody c rd a 4 0)).settle

def execCkResultLoad (c : CoreN) (fixedUnit hi : Bool) (rd : XReg) (s : State) : Out := .next (doCkResultLoad c fixedUnit hi rd s)

/-! ## Debug -/

/-- HALT_REQUEST (R420): by halt_req or JTAG. -/
def execHaltRequest (c : CoreN) (s : State) : Out := .next (if s.inReset then s else (s.askHalt c).settle)

/-- FORCED_HALT (R420): 256 steps have passed since a halt was requested of a core whose sequence has not ended. -/
def execForcedHalt (c : CoreN) (s : State) : Out := .next (if (s.core c).haltPend.isSome then (s.forceHalt c).settle else s)

/-- RESUME (R421). -/
def execResume (c : CoreN) (s : State) : Out := .next (if s.inReset then s else (s.coreResume c).settle)

/-- STEP (R421). -/
def execStep (c : CoreN) (s : State) : Out := .next (if s.inReset then s else (s.askStep c).settle)

/-- BREAKPOINT (R420): a breakpoint stands at the instruction about to execute. -/
def doBreakpoint (c : CoreN) (s : State) : State :=
  let q := s.core c
  if s.coreState c = 1 ∧ !q.due ∧ s.bpHit c q.pc then (s.coreHalt c).settle else s

def execBreakpoint (c : CoreN) (s : State) : Out := .next (doBreakpoint c s)

end Sys2Proof.Machine
end

