-- ==== Sys2Proof/Machine/Bus.lean ====
section
/-! DEFINITION. The commands of the control bus (R447 to R468): writes of registers, D-class pairs, tables, the grant of a piece, JTAG (R419),
the I2C target port (R500), and the commands whose effect reaches the cores through power and reset. -/

namespace Sys2Proof.Machine

/-! ## Writes of registers -/

/-- REGISTER_WRITE (R451): a write of BAR0 by a master, with what it sets off. -/
def doRegisterWrite (m addr len : Nat) (value : Word) (s : State) : State := (s.busWrite m addr len value).2.settle

def execRegisterWrite (m : Master) (addr : BitVec 24) (len : Nat) (value : Word) (s : State) : Out :=
  .next (doRegisterWrite m addr.toNat len value s)

/-- D_PAIR_FIRST_WRITE (R454): the write that opens a pair. -/
def doDPairFirstWrite (m addr : Nat) (value : Word) (s : State) : State := (s.busWrite m addr 4 value).2.settle

def execDPairFirstWrite (m : Master) (addr : BitVec 24) (value : Word) (s : State) : Out := .next (doDPairFirstWrite m addr.toNat value s)

/-- D_PAIR_TIMEOUT (R454): 1 us has passed without the complement of the pair that a master opened in a block; it fails and is logged once. The
first write is kept, so that a late complement is known. -/
def doDPairTimeout (m row : Nat) (s : State) : State :=
  match s.openPair m row with
  | none => s
  | some x =>
    if x.expired then s
    else
      let s1 := s.dropPair m row
      ({ s1 with pairs := s1.pairs ++ [{ x with expired := true }] }).dwLog m 1 x.addr

def execDPairTimeout (m : Master) (row : Fin 19) (s : State) : Out := .next (doDPairTimeout m row s)

/-! ## Tables -/

/-- TABLE_WRITE (R450, R466): a write of BAR1 by a host side or JTAG; other masters have no way to the tables. -/
def doTableWrite (m off : Nat) (data : List (Option Byte)) (s : State) : State :=
  if s.deaf m then s
  else if isHost m || m = 49 then s.tblWrite m off data data.length
  else s.busErr m 1 true 1 off

def execTableWrite (m : Master) (off : BitVec 26) (data : List (Option Byte)) (s : State) : Out := .next (doTableWrite m off.toNat data s)

/-! ## Arbitration (R463, R464) -/

/-- The QoS value of a master (R462, R478). -/
def State.qos (s : State) (m : Nat) : Nat :=
  let nib (r i : Nat) : Nat := (s.rget r).toNat / 2 ^ (4 * i) % 8
  if m < 32 then nib (GlbQosCore.reg (m / 8)) (m % 8)
  else if m < 48 then nib (GlbQosHost.reg ((m - 32) / 8)) (m % 8)
  else if m = 48 then s.fget GlbQosMisc.cascade
  else if m = 49 then s.fget GlbQosMisc.jtag
  else if m = 50 then s.fget GlbQosMisc.digest
  else 0

/-- The masters in round-robin order after one. DESIGN CHOICE: log entry 178. -/
def robin (last : Nat) : List Nat := (List.range 52).map fun i => (last + 1 + i) % 52

/-- The QoS value with which a request competes: 7 after it has waited through 256 grants. -/
def State.qosNow (s : State) (p : PortSt) (m : Nat) : Nat := if 256 ≤ SMap.getD p.waited m 0 then 7 else s.qos m

/-- The masters that a port considers in this step: one step in 16 of ports 5 to 7 belongs to the scrubber, which requests only there; JTAG
requests only while the test port is in use. DESIGN CHOICE: log entry 178. -/
def State.contenders (s : State) (port : Nat) (p : PortSt) (requests : List Nat) : List Nat :=
  let reserved := decide (5 ≤ port) && p.stepNo % 16 == 15
  (robin p.last).filter fun m => requests.contains m && (m != 49 || s.sys.trstN) && ((m == 51) == reserved)

/-- The master that a port grants. -/
def State.winner (s : State) (port : Nat) (p : PortSt) (requests : List Nat) : Option Nat :=
  let ms := s.contenders port p requests
  if s.fget GlbPhase.phase = 1 then ms.head?
  else
    let best := (ms.map (s.qosNow p)).foldl max 0
    ms.find? fun m => s.qosNow p m == best

/-- BUS_PIECE_GRANT (R464): a port passes one step and grants one of the pieces that wait at it. DESIGN CHOICE: log entry 168.
DESIGN CHOICE: log entry 178. -/
def doBusPieceGrant (port : Nat) (requests : List Nat) (s : State) : State :=
  if s.inReset then s
  else
    let p := SMap.getD s.ports port {}
    let p1 : PortSt := { p with stepNo := (p.stepNo + 1) % 16 }
    match s.winner port p requests with
    | none => { s with ports := SMap.putD s.ports port {} p1 }
    | some m =>
      let waited := ((List.range 52).filter fun n => n != m && requests.contains n).map fun n => (n, SMap.getD p.waited n 0 + 1)
      let s1 := { s with ports := SMap.putD s.ports port {} { p1 with last := m, waited := waited } }
      (s1.onlyIf (isHost m) fun s => s.perfHit (viewPart m) 0x0D port 1).emit (.grant port m)

def execBusPieceGrant (port : Fin 8) (requests : List Master) (s : State) : Out :=
  .next (doBusPieceGrant port (requests.map Fin.val) s)

/-! ## JTAG (R419) -/

/-- A peek of n bytes of BAR1: the stored bytes, and whether one is poisoned; none where one lies at a reserved location. DEDUCED: log entry 176. -/
def State.tblPeekN (s : State) (off n : Nat) : Option (List Byte × Bool) × State :=
  if (List.range n).all fun i => (s.tblResolve 49 (off + i)).isSome then
    let r := (List.range n).foldl (fun (acc : List Byte × Bool × State) i =>
      let (b, bad, s1) := acc.2.2.tblPeek (off + i)
      (acc.1 ++ [b], acc.2.1 || bad, s1)) ([], false, s)
    (some (r.1, r.2.1), r.2.2)
  else (none, s)

/-- Bytes of core 0's memories lie in this range of BAR1. DEDUCED: log entry 176. -/
def inCore0 (off n : Nat) : Bool := decide (off < 0x400000 + 0xC000 ∧ 0x400000 < off + n)

/-- The offset in a core's debug registers that a refused debug access is logged with. -/
def dbgOff (c : Nat) : Nat := SepDbgData.reg c

/-- JTAG_ACCESS (R419, R487): an access through the test port, which answers nothing while TRST_N is low. A read is a peek. DEDUCED: log entry 176.
DESIGN CHOICE: log entry 194. -/
def doJtagAccess (a : JtagAccess) (s : State) : State :=
  if s.deaf 49 then s
  else
    match a with
    | .readReg addr =>
      match s.busRead 49 addr.toNat 4 with
      | (some v, s1) => s1.emit (.readData 49 v)
      | (none, s1) => s1
    | .writeReg addr value => (s.busWrite 49 addr.toNat 4 value).2.settle
    | .readTable off len =>
      if inCore0 off.toNat len && s.jtagBarred 49 0 false then s.busErr 49 8 false 1 off.toNat
      else
        match s.tblPeekN off.toNat len with
        | (some (bs, bad), s1) => s1.emit (.tableData 49 bs bad)
        | (none, s1) => s1.busErr 49 1 false 1 off.toNat
    | .writeTable off data => s.tblWrite 49 off.toNat data data.length
    | .readCore c csr i =>
      if s.jtagBarred 49 c false then s.busErr 49 8 false 0 (dbgOff c)
      else
        let (v, s1) := s.dbgRead c csr i.toNat
        s1.emit (.readData 49 v)
    | .writeCore c csr i value =>
      if s.jtagBarred 49 c true || s.coreState c != 4 then s.busErr 49 8 true 0 (dbgOff c) else s.dbgWrite c csr i.toNat value

def execJtagAccess (a : JtagAccess) (s : State) : Out := .next (doJtagAccess a s)

/-! ## The I2C target port (R500) -/

/-- I2C_TARGET_READ: the register as the host side of partition 0 reads it; what a controller reads where the access is an error is open.
DESIGN CHOICE: log entry 177. -/
def doI2cTargetRead (addr : Nat) (s : State) : State :=
  if s.inReset then s
  else
    match s.busRead 32 addr 4 with
    | (some v, s1) => s1.emit (.i2c (leBytes 4 v.toNat) true)
    | (none, s1) =>
      let (v, s2) := s1.free 32
      s2.emit (.i2c (leBytes 4 v) true)

def execI2cTargetRead (addr : BitVec 24) (s : State) : Out := .next (doI2cTargetRead addr.toNat s)

/-- I2C_TARGET_WRITE: refused with NACK without wr_en. -/
def doI2cTargetWrite (addr : Nat) (value : Word) (s : State) : State :=
  if s.inReset then s
  else if !s.fbit MgmtI2cTgt.wrEn then s.emit (.i2c [] false)
  else ((s.busWrite 32 addr 4 value).2.settle).emit (.i2c [] true)

def execI2cTargetWrite (addr : BitVec 24) (value : Word) (s : State) : Out := .next (doI2cTargetWrite addr.toNat value s)

/-! ## Power and reset -/

/-- OFF (R492). -/
def execOff (unit : Byte) (s : State) : Out := .next (doOff unit.toNat s).settle

/-- GROUP_ENABLE (R82): a write of GRP_CFG. -/
def execGroupEnable (m : Master) (g : Group) (value : Word) (s : State) : Out := .next (doGroupEnable m g value s).settle

/-- LANE_GROUP_RESET (R489): a bit of PWR_GRP_RST. -/
def execLaneGroupReset (g : Group) (s : State) : Out := .next (doLaneGroupReset g s).settle

end Sys2Proof.Machine
end

