-- ==== Sys2Proof/Machine/Framer.lean ====
section
/-! DEFINITION. The transmit framer (R50 to R74, R134 to R143, R157, R158) and stand-alone regeneration (R483). -/

namespace Sys2Proof.Machine

/-! ## The overhead of a multiframe -/

/-- Byte k of lane n's transmit page (R80). -/
def State.pageByte (s : State) (n k : Nat) : Byte := BitVec.ofNat 8 ((s.rget (LaneKlfTxoh.reg n (k / 4))).toNat / 2 ^ (8 * (k % 4)))

/-- SWAP_MF as the page holds it (R65, R74). -/
def State.pageSwapMf (s : State) (n : Nat) : Nat := ofBe ((List.range 4).map fun i => s.pageByte n (23 + i))

/-- CAL_STATE.swap_pending of the page. -/
def pageSwapPending (n : Nat) : FRef := ⟨LaneKlfTxoh.reg n 5, 17, 17⟩

/-- A number as n bytes, highest first (R65). -/
def beBytes (n v : Nat) : List Byte := (leBytes n v).reverse

/-- The 62 overhead bytes before the CRC (R64), from the framer's values and the page copy. -/
def State.overhead62 (s : State) (n seq time : Nat) (held : Option Nat) : List Byte :=
  let ctrl := 0x10 + s.fget (LaneKlfCfg.txRate n) * 4 + (if s.fbit (LaneKlfCfg.txFec n) then 2 else 0)
  let srcLane := if n < 96 then n else 0x80 + (n - 96)
  let cal := s.fget (LaneCalStat.txActive n) + (if held.isSome then 2 else 0)
  let epoch := s.fget CasEpoch.epoch
  let half := if seq % 2 = 0 then epoch / 65536 else epoch % 65536
  [0xE4, 0x1B, BitVec.ofNat 8 ctrl] ++ beBytes 4 seq ++ beBytes 2 (s.fget (LaneKlfSrc.srcDev n)) ++ [BitVec.ofNat 8 srcLane]
    ++ beBytes 12 (timeWord time) ++ [BitVec.ofNat 8 cal] ++ beBytes 4 (held.getD 0)
    ++ [s.pageByte n 27 &&& 7, BitVec.ofNat 8 (min 255 (s.lane n).rx.mfErrLast), 0, s.pageByte n 30, s.pageByte n 31, s.pageByte n 32]
    ++ beBytes 2 half ++ [0] ++ (List.range 24).map (fun i => s.pageByte n (36 + i)) ++ [0, 0]

/-- The 64 overhead bytes with LOH_CRC (R72). -/
def withCrc (bs : List Byte) : List Byte := bs ++ beBytes 2 (crc16 bs)

/-! ## What a tributary carries in a multiframe (R140) -/

/-- The admission in force of a tributary names a destination. -/
def State.releasesTo (s : State) (t : Nat) (d : Dest) : Bool :=
  match (s.trib t).adm with
  | some a => a.dests.any fun e => e.dest = d
  | none => false

/-- What lane n carries of tributary t in the multiframe that starts: units by the egress grid while it releases to this
lane, none otherwise. Units beyond C / g are missing there and set dfct (R140). A re-base due in the window takes place
(R183). DEDUCED: log entry 186. -/
def State.planTrib (s : State) (n t lo hi : Nat) : TxTrib × State :=
  let slots := s.slotsOf n 1 (s.calActive n 1) t
  let c := (grainSlots slots).length
  let g := unitGrains (s.tfmt t)
  if s.releasesTo t (laneDest n) then
    let s1 := ((s.takeRebase t hi).fixGrid t lo hi).txStarts t (carrierKey (laneDest n) (s.lane n).tx.grid)
    let (all, _, _) := s1.windowUnits t lo hi (2 ^ 20)
    let (units, f, k) := s1.windowUnits t lo hi (c / g)
    ({ trib := t, gcount := units * g, f := f, acc := c / 2, dfct := decide (units < all), r0 := (s1.trib t).grid.getD 0, k := k },
      s1.bump .trib t 18 (all - units))
  else ({ trib := t, gcount := 0, f := 2 ^ 30 - 1, acc := c / 2 }, s)

/-- The swap request is judged at the start of multiframe m (R69): an announcement due executes, one held is kept, a
request that passes is held, any other is refused. DEDUCED: log entry 184. -/
def State.judgeSwap (s : State) (n m : Nat) : State :=
  let l := s.lane n
  match l.tx.held with
  | some x =>
    if x = m then
      ((((s.setLane n { l with tx := { l.tx with held := none, placedBy := none } }).fset (LaneCalStat.txActive n)
        (1 - s.calActive n 1)).fsetB (pageSwapPending n) false).fsetB (LaneKlfStat.swapHeld n) false)
    else s
  | none =>
    if !s.fbit (pageSwapPending n) then s
    else
      let x := s.pageSwapMf n
      let lead := (x + 2 ^ 32 - m) % 2 ^ 32
      if 8 ≤ lead ∧ lead ≤ 65535 ∧ s.calCommitted n 1 (1 - s.calActive n 1) then
        (s.setLane n { l with tx := { l.tx with held := some x } }).fsetB (LaneKlfStat.swapHeld n) true
      else
        let s1 := s.stick (LaneKlfStat.swapRefused n) 1
        match l.tx.placedBy with
        | none => s1
        | some w =>
          let p := s1.winOwner w
          let x := s1.winSt w
          ((((s1.setLane n { l with tx := { l.tx with placedBy := none } }).fset (TimeActMiss.count p)
            (s1.fget (TimeActMiss.count p) + 1)).setWin w { x with missedOcc := some (x.placed - 1) }).raiseAt p 5
              (s1.winLocal w) (1 + 2 ^ 8) 0 (s1.winStart w + (x.placed - 1) * s1.winPeriod w))

/-- The multiframe that a regenerating lane repeats: the store's oldest, or one of fill with the next sequence and time
when the store has run dry, counted as a slip (R483). DESIGN CHOICE: log entry 187. -/
def State.regenStart (s : State) (n : Nat) : State :=
  let l := s.lane n
  let ctrl := BitVec.ofNat 8 (0x11 + s.fget (LaneKlfCfg.rxRate n) * 4 + (if s.fbit (LaneKlfCfg.rxFec n) then 2 else 0))
  match l.tx.regenQ with
  | (oh, bs) :: q =>
    s.setLane n { l with tx := { l.tx with regenQ := q, regenCur := bs, slot := 0
                                           oh := withCrc ([0xE4, 0x1B, ctrl] ++ (oh.drop 3).take 59) } }
  | [] =>
    let seq := (ofBe ((l.tx.oh.drop 3).take 4) + 1) % 2 ^ 32
    let rate := s.fget (LaneKlfCfg.rxRate n)
    let time := timeOf (ofBe ((l.tx.oh.drop 10).take 12))
    let t' := gridTime rate (gridIndex rate time + 1)
    let bs := [0xE4, 0x1B, ctrl] ++ beBytes 4 seq ++ List.replicate 3 0 ++ beBytes 12 (timeWord t') ++ List.replicate 40 0
    (s.setLane n { l with tx := { l.tx with regenCur := [], slot := 0, oh := withCrc bs } }).bump .lane n 14 1

/-- TX_MULTIFRAME_START (R73): when the multiframe before is sent and the grid instant is reached, the swap is judged,
the page copied, and each tributary of the active bank planned. DEDUCED: log entry 38. DEDUCED: log entry 184. -/
def doTxMultiframeStart (n : Nat) (s : State) : State :=
  let l := s.lane n
  if !l.tx.running || l.tx.slot < 5120 || s.now < l.tx.mfEnd || !s.laneEnabled n then s
  else if s.fget GlbStrap.mode = 1 ∧ n < 96 then s.regenStart n
  else
    let m := l.tx.seq
    let rate := s.fget (LaneKlfCfg.txRate n)
    let lo := gridTime rate l.tx.grid
    let hi := gridTime rate (l.tx.grid + 1)
    let (early, s0) := s.freeB
    let s1 := ((s0.onlyIf early fun s => s.coreWritesPage n).judgeSwap n m)
    let (plans, s2) := (s1.bankTribs n 1 (s1.calActive n 1)).foldl (fun (a : List TxTrib × State) t =>
        if s1.fbit (TribCfg.en t) then let (p, s') := a.2.planTrib n t lo hi; (a.1 ++ [p], s') else a) ([], s1)
    let l2 := s2.lane n
    let oh := withCrc (s2.overhead62 n m lo l2.tx.held)
    let s3 := s2.onlyIf (!early) fun s => s.coreWritesPage n
    s3.setLane n { l2 with tx := { l2.tx with seq := (m + 1) % 2 ^ 32, grid := l2.tx.grid + 1, mfTime := lo, mfEnd := hi, slot := 0
                                              oh := oh, tribs := plans, cw := [] } }

def execTxMultiframeStart (n : Lane) (s : State) : Out := .next (doTxMultiframeStart n s)

/-! ## Slots -/

/-- A line block leaves as its symbols, two-level at KLF-25 (R44, R46); while tx_idle holds the line in electrical idle nothing is seen
(R95). -/
def State.sendBlock (s : State) (n : Nat) (h : Hdr) (p : BitVec 64) : State :=
  if n < 96 && s.fbit (LaneCfg.txIdle n) then s else s.emit (.block n (blockSymbols (s.fget (LaneKlfCfg.txRate n) == 3) h p))

/-- A control block may stand in slot x: never in blocks 0 and 79 of a codeword, nor after another control block (R60, R61). -/
def State.controlMay (s : State) (n x : Nat) : Bool := decide (1 ≤ x % 80 ∧ x % 80 ≤ 78) && !(s.lane n).tx.ctlSent

/-- A data or control block of blocks 0 to 79 is scrambled and sent; after block 79 the tail pair follows (R50 to R58). A control block
that may not stand in its slot is sent as fill (R60, R61). DEDUCED: log entry 211. -/
def State.sendSlot (s : State) (n : Nat) (h0 : Hdr) (d0 : BitVec 64) : State :=
  let l := s.lane n
  let ok := h0 != .control || s.controlMay n l.tx.slot
  let h := if ok then h0 else .data
  let d := if ok then d0 else 0
  let (p, scr) := scramble l.tx.scr d
  let cw := l.tx.cw ++ [p]
  let last := cw.length = 80
  let tx : TxSt := { l.tx with scr := scr, cw := if last then [] else cw, slot := l.tx.slot + 1, ctlSent := h == .control }
  let s1 := (s.setLane n { l with tx := tx }).sendBlock n h p
  if last then
    let (a, b) := tailPair (s.fbit (LaneKlfCfg.txFec n)) ((l.tx.oh[l.tx.slot / 80]?).getD 0) cw
    (s1.sendBlock n .control a).sendBlock n .control b
  else s1

/-- The head block's payload (R136, R137). -/
def headBlock (txId gcount fmt f : Nat) : BitVec 64 :=
  let v := 0x1E + txId % 4096 * 2 ^ 8 + gcount % 8192 * 2 ^ 20 + fmt % 16 * 2 ^ 33 + f % 2 ^ 24 * 2 ^ 37
  BitVec.ofNat 64 (v + headCheck (BitVec.ofNat 64 v) * 2 ^ 61)

/-- The trail block's payload (R138, R139): tcrc over the head's bytes 1 to 7, the grains and the trail's other bytes. -/
def trailBlock (seq ovr f : Nat) (dfct : Bool) (fed : List Byte) : BitVec 64 :=
  let v := seq % 2 ^ 32 + ovr % 256 * 2 ^ 48 + f / 2 ^ 24 % 64 * 2 ^ 56 + (if dfct then 2 ^ 62 else 0)
  let bs := leBytes 8 v
  BitVec.ofNat 64 (v + crc16 (fed ++ bs.take 4 ++ bs.drop 6) * 2 ^ 32)

/-- The grain read for a destination that stands at a release time and place, and the others; older ones are gone. -/
def takeGrain (d : Dest) (rel idx : Nat) (es : List EgGrain) : Option EgGrain × List EgGrain :=
  let hit (e : EgGrain) : Bool := e.dest = d && e.rel == rel && e.idx == idx
  (es.find? hit, es.filter fun e => !hit e && !(e.dest = d && decide (e.rel < rel)))

/-- A grain slot that carries a grain: the grain read for it, or a blank one where none was read in time (R150, R198); with the
tributary's part of the multiframe as it goes on. A blank grain is one whose codes are all blank. DEDUCED: log entry 186. -/
def State.nextGrain (s : State) (n : Nat) (x : TxTrib) : BitVec 64 × TxTrib × State :=
  let r := s.trib x.trib
  let g := unitGrains (s.tfmt x.trib)
  let idx := x.sent % g
  let rel := s.gridPoint x.trib x.r0 (x.k + x.sent / g)
  let blank := blankGrain (s.tfmt x.trib) idx
  let go (p : BitVec 64) (y : TxTrib) (s : State) : BitVec 64 × TxTrib × State :=
    (p, { y with sent := x.sent + 1, fed := x.fed ++ payloadBytes p }, s.bump .trib x.trib 10 (if p == blank then 1 else 0))
  match takeGrain (laneDest n) rel idx r.egress with
  | (some e, es) =>
    let s1 := s.setTrib x.trib { r with egress := es }
    let s2 := (s1.vtGrain x.trib e.instant idx 5 true).vtGrain x.trib e.instant idx 6 true
    go e.payload { x with dfct := x.dfct || substituted e.cause, ovr := x.ovr + e.ovr
                          span := some ((x.span.map Prod.fst).getD e.instant, e.instant) }
      (s2.vtGrainEnd x.trib e.instant idx (if e.cause = 0 ∨ e.cause = 5 then 0 else 1) e.cause)
  | (none, es) => go blank { x with dfct := true } (s.setTrib x.trib { r with egress := es })

/-- The overrange codes that a span of instants stated upstream adds to instants a to b carried without substitution: all of them where it
lies inside, an open number where it lies partly there or its number is not stated (0) (R138). DESIGN CHOICE: log entry 25. -/
def State.spanOvr (s : State) (a b : Nat) (whole : Bool) (x : Nat × Nat × Nat) : Nat × State :=
  let (first, last, n) := x
  if last < a ∨ b < first then (0, s)
  else if whole && decide (a ≤ first ∧ last ≤ b ∧ n ≠ 0) then (n, s)
  else
    let (v, s1) := s.free 8
    (v % ((if n = 0 then 255 else n) + 1), s1)

/-- The overrange count of a tributary's part of a multiframe (R138): 0 in the tagged layout, else what its slicer counted and what the
spans stated upstream add, saturating. -/
def State.trailOvr (s : State) (y : TxTrib) : Nat × State :=
  if s.tfmt y.trib % 8 = 0 then (0, s)
  else
    match y.span with
    | none => (min 255 y.ovr, s)
    | some (a, b) =>
      let (n, s1) := (s.trib y.trib).ovr.foldl (fun (acc : Nat × State) x =>
        let (v, s') := acc.2.spanOvr a b (!y.dfct) x; (acc.1 + v, s')) (y.ovr, s)
      (min 255 n, s1)

/-- TX_SLOT (R135): the next slot of the multiframe in hand carries a head, grain, fill or trail block. An entry that is
invalid, poisoned, or of a tributary that is disabled or was not planned at the multiframe's start carries fill (R157). A cascade lane's reserved slots carry
control cells (R312). -/
def doTxSlot (n : Nat) (s : State) : State :=
  let l := s.lane n
  if !l.tx.running || 5120 ≤ l.tx.slot || !s.laneEnabled n then s
  else if s.fget GlbStrap.mode = 1 ∧ n < 96 then
    match l.tx.regenCur with
    | b :: bs => (s.setLane n { l with tx := { l.tx with regenCur := bs } }).sendSlot n (if b.control then .control else .data) b.payload
    | [] => s.sendSlot n .data 0
  else
    let x := l.tx.slot
    let fill := s.sendSlot n .data 0
    if 96 ≤ n ∧ (x % 80 = 20 ∨ x % 80 = 60) then
      match s.nextCell (n - 96) with
      | (some c, s1) => (s1.sendSlot n .control c).perfHit 0 0x35 0 1
      | (none, s1) => s1.sendSlot n .data 0
    else match s.slotTrib n 1 (s.calActive n 1) x with
    | none => fill
    | some t =>
      match if s.fbit (TribCfg.en t) then l.tx.tribs.find? fun y => y.trib == t else none with
      | none => fill
      | some y =>
        let slots := s.slotsOf n 1 (s.calActive n 1) t
        let put (s : State) (y' : TxTrib) : State :=
          let l := s.lane n
          s.setLane n { l with tx := { l.tx with tribs := l.tx.tribs.map fun z => if z.trib == t then y' else z } }
        match slotKind slots x with
        | .lead => fill
        | .head =>
          let b := headBlock (s.fget (TribId.txId t)) y.gcount (s.tfmt t) y.f
          (put s { y with fed := (payloadBytes b).drop 1 }).sendSlot n .control b
        | .grain _ =>
          let c := (grainSlots slots).length
          let (carries, acc) := rateStep c y.gcount y.acc
          if carries then
            let (p, y', s1) := s.nextGrain n y
            ((put s1 { y' with acc := acc }).bump .trib t 9 1).sendSlot n .data p
          else (put s { y with acc := acc }).sendSlot n .data 0
        | .trail =>
          let (ovr, s1) := s.trailOvr y
          s1.sendSlot n .data (trailBlock (l.tx.grid - 1) ovr y.f y.dfct y.fed)

def execTxSlot (n : Lane) (s : State) : Out := .next (doTxSlot n s)

end Sys2Proof.Machine
end

