-- ==== Sys2Proof/Machine/Manage.lean ====
section
/-! DEFINITION. The management ports: the I2C controller and the board sensor (R501, R502), and the lifetime ledger (R503, R504). -/

namespace Sys2Proof.Machine

/-! ## The I2C controller (R501, R502) -/

/-- I2C_ARBITRATION_LOST (R501): the controller retries, and abandons the transfer after 8 lost attempts in a row. -/
def doI2cArbitrationLost (s : State) : State :=
  let n := s.sys.i2cLost + 1
  if n < 8 then { s.fsetB MgmtI2cStat.busy true with sys := { s.sys with i2cLost := n } }
  else { (s.fsetB MgmtI2cStat.busy false).stick MgmtI2cStat.arbFail 1 with sys := { s.sys with i2cLost := 0 } }

def execI2cArbitrationLost (s : State) : Out := .next (doI2cArbitrationLost s)

/-- I2C_STUCK (R501): SCL has been held low for 25 ms: the controller clears the bus and sets stuck. -/
def doI2cStuck (s : State) : State :=
  ({ (s.fsetB MgmtI2cStat.busy false).stick MgmtI2cStat.stuck 1 with sys := { s.sys with i2cLost := 0 } }).emit .i2cClear

def execI2cStuck (s : State) : Out := .next (doI2cStuck s)

/-- SENSOR_POLL (R502): a read of the board sensor returns 2 bytes, or fails; after 3 failures in a row the value is stale.
DESIGN CHOICE: log entry 192. -/
def doSensorPoll (value : Option (BitVec 16)) (s : State) : State :=
  if !s.fbit MgmtSens.en then s
  else
    match value with
    | some v =>
      { ((s.fset MgmtSensVal.temp v.toNat).fsetB MgmtSensVal.stale false).fsetB MgmtI2cStat.busy false with
          sys := { s.sys with sensFails := 0, i2cLost := 0 } }
    | none =>
      let n := s.sys.sensFails + 1
      { s.onlyIf (decide (3 ≤ n)) fun s => s.fsetB MgmtSensVal.stale true with sys := { s.sys with sensFails := min 3 n } }

def execSensorPoll (value : Option (BitVec 16)) (s : State) : Out := .next (doSensorPoll value s)

/-! ## The lifetime ledger (R503, R504) -/

/-- Sequence a is ahead of b, as R66 compares. -/
def seqAhead (a b : Nat) : Bool := let d := (a + 2 ^ 32 - b) % 2 ^ 32; decide (0 < d ∧ d < 2 ^ 31)

/-- A slot whose CRC is good. -/
def slotGood (bs : List Byte) : Bool := bs.length == 64 && crc32c (bs.take 60) == leAt bs 60 4

/-- The good slot whose sequence no other good slot's is ahead of. -/
def State.ledgerNewest (s : State) : Option (List Byte) :=
  let good := ((List.range 16).filterMap fun i => SMap.find s.sys.ledger i).filter slotGood
  good.find? fun a => good.all fun b => !seqAhead (leAt b 0 4) (leAt a 0 4)

/-- Core 0 manages the ledger: after BOOT_DONE, while it runs and no re-boot is under way (R39, R488). -/
def State.ledgerRuns (s : State) : Bool := s.fbit GlbPhase.bootDone && s.coreRuns 0 && !s.sys.warm && !s.sys.lastGasp

/-- LEDGER_LOAD (R504): core 0 reads the slots, and counts a power-on reset. DEDUCED: log entry 139. -/
def doLedgerLoad (s : State) : State :=
  if !s.ledgerRuns || s.sys.ledgerOn then s
  else
    let cold := s.sys.coldPower
    let slot := s.ledgerNewest
    let bs := slot.getD []
    let s1 := s.onlyIf slot.isNone fun s => s.fsetB BootStat.ledgerNew true
    let tj := toSigned 16 (leAt bs 44 2)
    { s1 with sys := { s1.sys with
        coldPower := false, ledgerOn := true, ledgerSeq := leAt bs 0 4, ledgerAt := s.ticks, ledgerFirst := cold
        powerOns := leAt bs 4 4 + (if cold then 1 else 0), minutes := leAt bs 8 4, loadedAt := s.ticks
        tjBins := (List.range 8).map fun i => leAt bs (12 + 4 * i) 4, tjTicks := [], tjAt := s.ticks
        tjMax := if slot.isSome then max tj s1.sys.tjMax else s1.sys.tjMax } }

def execLedgerLoad (s : State) : Out := .next (doLedgerLoad s)

/-- Ticks in a minute. DEDUCED: log entry 139. -/
def minuteTicks : Nat := 60 * sec1

/-- The slot that is written next (R503). -/
def State.ledgerSlotBytes (s : State) (seq : Nat) : List Byte :=
  let x := s.sys
  let bins := ((List.range 8).map fun i => leBytes 4 ((x.tjBins[i]?).getD 0 + (x.tjTicks[i]?).getD 0 / minuteTicks)).flatten
  let body := leBytes 4 seq ++ leBytes 4 x.powerOns ++ leBytes 4 (x.minutes + (s.ticks - x.loadedAt) / minuteTicks) ++ bins
    ++ leBytes 2 (ofSigned 16 x.tjMax) ++ List.replicate 14 0
  body ++ leBytes 4 (crc32c body)

/-- LEDGER_WRITE (R504): the first write after a power-on reset, and one after every 60 min powered, into slot (seq + 1) mod 16. -/
def doLedgerWrite (s : State) : State :=
  if !s.ledgerRuns || !s.sys.ledgerOn || (!s.sys.ledgerFirst && decide (s.ticks < s.sys.ledgerAt + 60 * minuteTicks)) then s
  else
    let seq := (s.sys.ledgerSeq + 1) % 2 ^ 32
    let s1 := s.noteTj
    let bs := s1.ledgerSlotBytes seq
    let slot := seq % 16
    ({ s1 with sys := { s1.sys with ledger := SMap.ins s1.sys.ledger slot bs, ledgerSeq := seq, ledgerAt := s1.ticks
                                    ledgerFirst := false } }).emit
      (.eepromWrite (s1.fget MgmtEep.ledgerBase + 64 * slot) bs)

def execLedgerWrite (s : State) : Out := .next (doLedgerWrite s)

end Sys2Proof.Machine
end

