-- ==== Sys2Proof/Machine/Dispatch.lean ====
section
/-! DEFINITION. The dispatch: one arm per command, each a direct call of the command's meaning. -/

namespace Sys2Proof.Machine

/-- The effect of a command on everything but the queue. -/
def exec (i : Instr) (s : State) : Host.Outcome State Fault Refusal :=
  match i with
  | .registerWrite m addr len value => Sys2Proof.Machine.execRegisterWrite m addr len value s
  | .dPairFirstWrite m addr value => Sys2Proof.Machine.execDPairFirstWrite m addr value s
  | .dPairTimeout m row => Sys2Proof.Machine.execDPairTimeout m row s
  | .tableWrite m off data => Sys2Proof.Machine.execTableWrite m off data s
  | .busPieceGrant port requests => Sys2Proof.Machine.execBusPieceGrant port requests s
  | .jtagAccess a => Sys2Proof.Machine.execJtagAccess a s
  | .mailboxRequest m mbx req => Sys2Proof.Machine.execMailboxRequest m mbx req s
  | .mailboxSnapshotReady m mbx => Sys2Proof.Machine.execMailboxSnapshotReady m mbx s
  | .mailboxLastRead m mbx => Sys2Proof.Machine.execMailboxLastRead m mbx s
  | .lagProbeRequest m req => Sys2Proof.Machine.execLagProbeRequest m req s
  | .laneDefIvlRead m lane => Sys2Proof.Machine.execLaneDefIvlRead m lane s
  | .deskewStatRead m lane => Sys2Proof.Machine.execDeskewStatRead m lane s
  | .ethUnmatchedRead m lane => Sys2Proof.Machine.execEthUnmatchedRead m lane s
  | .actionMissRead m => Sys2Proof.Machine.execActionMissRead m s
  | .urgentLogRead m => Sys2Proof.Machine.execUrgentLogRead m s
  | .ctoLogRead m => Sys2Proof.Machine.execCtoLogRead m s
  | .memLogRead m => Sys2Proof.Machine.execMemLogRead m s
  | .buserrLogRead m dw => Sys2Proof.Machine.execBuserrLogRead m dw s
  | .errorCountRead m dw => Sys2Proof.Machine.execErrorCountRead m dw s
  | .fifoCountRead m c => Sys2Proof.Machine.execFifoCountRead m c s
  | .vtStatRead m => Sys2Proof.Machine.execVtStatRead m s
  | .paceExtremeRead m max => Sys2Proof.Machine.execPaceExtremeRead m max s
  | .semAcquireRead p k => Sys2Proof.Machine.execSemAcquireRead p k s
  | .semReleaseWrite p k value => Sys2Proof.Machine.execSemReleaseWrite p k value s
  | .paceWindow periods => Sys2Proof.Machine.execPaceWindow periods s
  | .losDeclare lane => Sys2Proof.Machine.execLosDeclare lane s
  | .losClear lane => Sys2Proof.Machine.execLosClear lane s
  | .cdrAcquire g inRange => Sys2Proof.Machine.execCdrAcquire g inRange s
  | .clockLaneReselect g => Sys2Proof.Machine.execClockLaneReselect g s
  | .freqMeasure lane offsets cdrLost fill => Sys2Proof.Machine.execFreqMeasure lane offsets cdrLost fill s
  | .deskewSlip fill => Sys2Proof.Machine.execDeskewSlip fill s
  | .rxBlock lane symbols arrival => Sys2Proof.Machine.execRxBlock lane symbols arrival s
  | .rxCodewordDecode cw => Sys2Proof.Machine.execRxCodewordDecode cw s
  | .rxMultiframeEnd lane arrival => Sys2Proof.Machine.execRxMultiframeEnd lane arrival s
  | .notice g => Sys2Proof.Machine.execNotice g s
  | .fecWindowEnd lane => Sys2Proof.Machine.execFecWindowEnd lane s
  | .formatDetect lane rate => Sys2Proof.Machine.execFormatDetect lane rate s
  | .formatDetectRetry g => Sys2Proof.Machine.execFormatDetectRetry g s
  | .defectSample g => Sys2Proof.Machine.execDefectSample g s
  | .groupEnable m g value => Sys2Proof.Machine.execGroupEnable m g value s
  | .laneEnable lane => Sys2Proof.Machine.execLaneEnable lane s
  | .laneDisable lane => Sys2Proof.Machine.execLaneDisable lane s
  | .framingStart lane => Sys2Proof.Machine.execFramingStart lane s
  | .txMultiframeStart lane => Sys2Proof.Machine.execTxMultiframeStart lane s
  | .txSlot lane => Sys2Proof.Machine.execTxSlot lane s
  | .demapSlot lane => Sys2Proof.Machine.execDemapSlot lane s
  | .fabricDeliver t => Sys2Proof.Machine.execFabricDeliver t s
  | .releaseBufferWrite t => Sys2Proof.Machine.execReleaseBufferWrite t s
  | .releaseRead t d => Sys2Proof.Machine.execReleaseRead t d s
  | .deepPrefetch t => Sys2Proof.Machine.execDeepPrefetch t s
  | .tribDefWindowEnd t => Sys2Proof.Machine.execTribDefWindowEnd t s
  | .tribEnable t => Sys2Proof.Machine.execTribEnable t s
  | .tribDisable t => Sys2Proof.Machine.execTribDisable t s
  | .calCommit m lane transmit bank crc => Sys2Proof.Machine.execCalCommit m lane transmit bank crc s
  | .calCheckDone lane transmit bank => Sys2Proof.Machine.execCalCheckDone lane transmit bank s
  | .rxBankSelect m lane bank => Sys2Proof.Machine.execRxBankSelect m lane bank s
  | .ethFrameRx port bytes arrival fecBad => Sys2Proof.Machine.execEthFrameRx port bytes arrival fecBad s
  | .esmcQlTimeout port => Sys2Proof.Machine.execEsmcQlTimeout port s
  | .ethPacketBuild t port => Sys2Proof.Machine.execEthPacketBuild t port s
  | .timeStep force => Sys2Proof.Machine.execTimeStep force s
  | .timeSet force => Sys2Proof.Machine.execTimeSet force s
  | .timeOpEffect => Sys2Proof.Machine.execTimeOpEffect s
  | .windowEnable m w => Sys2Proof.Machine.execWindowEnable m w s
  | .calSwapPlace w => Sys2Proof.Machine.execCalSwapPlace w s
  | .calSwap w => Sys2Proof.Machine.execCalSwap w s
  | .pulseAlign w => Sys2Proof.Machine.execPulseAlign w s
  | .epoch w => Sys2Proof.Machine.execEpoch w s
  | .ncoReset w => Sys2Proof.Machine.execNcoReset w s
  | .pace w => Sys2Proof.Machine.execPace w s
  | .event w => Sys2Proof.Machine.execEvent w s
  | .admitTrib p r => Sys2Proof.Machine.execAdmit p r s
  | .admissionTakesEffect t => Sys2Proof.Machine.execAdmissionTakesEffect t s
  | .withdraw p r => Sys2Proof.Machine.execWithdraw p r s
  | .withdrawTakesEffect t => Sys2Proof.Machine.execWithdrawTakesEffect t s
  | .zeroingDone seq => Sys2Proof.Machine.execZeroingDone seq s
  | .slicerEnable m e value => Sys2Proof.Machine.execSlicerEnable m e value s
  | .slicerDisable m e value => Sys2Proof.Machine.execSlicerDisable m e value s
  | .slicerInput e => Sys2Proof.Machine.execSlicerInput e s
  | .slicerOutput e => Sys2Proof.Machine.execSlicerOutput e s
  | .ncoStage m e value => Sys2Proof.Machine.execNcoStage m e value s
  | .coefCommit m e bank crc => Sys2Proof.Machine.execCoefCommit m e bank crc s
  | .coefCheckDone e bank => Sys2Proof.Machine.execCoefCheckDone e bank s
  | .coefBankSelect m e bank => Sys2Proof.Machine.execCoefBankSelect m e bank s
  | .prot p r => Sys2Proof.Machine.execProt p r s
  | .protCmdWrite p r => Sys2Proof.Machine.execProtCmdWrite p r s
  | .protCmdTimeout p r => Sys2Proof.Machine.execProtCmdTimeout p r s
  | .heartbeatSend => Sys2Proof.Machine.execHeartbeatSend s
  | .heartbeatRx cascade frame => Sys2Proof.Machine.execHeartbeatRx cascade frame s
  | .heartbeatPathLoss cascade => Sys2Proof.Machine.execHeartbeatPathLoss cascade s
  | .sameSideExpiry => Sys2Proof.Machine.execSameSideExpiry s
  | .claimVacancy => Sys2Proof.Machine.execClaimVacancy s
  | .claimQualified => Sys2Proof.Machine.execClaimQualified s
  | .claimProbe => Sys2Proof.Machine.execClaimProbe s
  | .claimProbeSample low => Sys2Proof.Machine.execClaimProbeSample low s
  | .claimActive => Sys2Proof.Machine.execClaimActive s
  | .claimFault => Sys2Proof.Machine.execClaimFault s
  | .enable => Sys2Proof.Machine.execEnable s
  | .disable => Sys2Proof.Machine.execDisable s
  | .handover => Sys2Proof.Machine.execHandover s
  | .claim => Sys2Proof.Machine.execClaim s
  | .standDown => Sys2Proof.Machine.execStandDown s
  | .handoverInstant => Sys2Proof.Machine.execHandoverInstant s
  | .handoverFail => Sys2Proof.Machine.execHandoverFail s
  | .roleOutputEnable o => Sys2Proof.Machine.execRoleOutputEnable o s
  | .contentionDetect o short => Sys2Proof.Machine.execContentionDetect o short s
  | .refActivityFault n => Sys2Proof.Machine.execRefActivityFault n s
  | .ppsEdge n milliPpm => Sys2Proof.Machine.execPpsEdge n milliPpm s
  | .ppsActivityFault n => Sys2Proof.Machine.execPpsActivityFault n s
  | .hostWatchdogExpiry => Sys2Proof.Machine.execHostWatchdogExpiry s
  | .freqMonitorMeasure n milliPpm => Sys2Proof.Machine.execFreqMonitorMeasure n milliPpm s
  | .qualifySoakEnd n => Sys2Proof.Machine.execQualifySoakEnd n s
  | .rankCandidates => Sys2Proof.Machine.execRankCandidates s
  | .waitToRestoreExpiry => Sys2Proof.Machine.execWaitToRestoreExpiry s
  | .dpllLock pherr => Sys2Proof.Machine.execDpllLock pherr s
  | .dpllLockLost pherr => Sys2Proof.Machine.execDpllLockLost pherr s
  | .historySample => Sys2Proof.Machine.execHistorySample s
  | .holdoverUpdate => Sys2Proof.Machine.execHoldoverUpdate s
  | .forceFreeRun m => Sys2Proof.Machine.execForceFreeRun m s
  | .forceInput m n => Sys2Proof.Machine.execForceInput m n s
  | .historyReset m value => Sys2Proof.Machine.execHistoryReset m value s
  | .dcoSet m hi => Sys2Proof.Machine.execDcoSet m hi s
  | .dcoAdd m hi => Sys2Proof.Machine.execDcoAdd m hi s
  | .dcoApply => Sys2Proof.Machine.execDcoApply s
  | .outputEnable m o => Sys2Proof.Machine.execOutputEnable m o s
  | .outputAligned o => Sys2Proof.Machine.execOutputAligned o s
  | .todTxMessage => Sys2Proof.Machine.execTodTxMessage s
  | .todRxMessage bytes => Sys2Proof.Machine.execTodRxMessage bytes s
  | .todRxStale => Sys2Proof.Machine.execTodRxStale s
  | .cascadeCellRx => Sys2Proof.Machine.execCascadeCellRx s
  | .discover => Sys2Proof.Machine.execDiscover s
  | .timeDist => Sys2Proof.Machine.execTimeDist s
  | .ttStamp => Sys2Proof.Machine.execTtStamp s
  | .report => Sys2Proof.Machine.execReport s
  | .propose ring => Sys2Proof.Machine.execPropose ring s
  | .decide => Sys2Proof.Machine.execDecide s
  | .ring => Sys2Proof.Machine.execRing s
  | .msg => Sys2Proof.Machine.execMsg s
  | .timeDistSend => Sys2Proof.Machine.execTimeDistSend s
  | .ttStampSend port => Sys2Proof.Machine.execTtStampSend port s
  | .reportSend => Sys2Proof.Machine.execReportSend s
  | .proposeSend => Sys2Proof.Machine.execProposeSend s
  | .commitPoint => Sys2Proof.Machine.execCommitPoint s
  | .decideSend => Sys2Proof.Machine.execDecideSend s
  | .epochActivate => Sys2Proof.Machine.execEpochActivate s
  | .pairEpochFollow => Sys2Proof.Machine.execPairEpochFollow s
  | .enumerate => Sys2Proof.Machine.execEnumerate s
  | .enumTimeout => Sys2Proof.Machine.execEnumTimeout s
  | .cancel => Sys2Proof.Machine.execCancel s
  | .adopt => Sys2Proof.Machine.execAdopt s
  | .agreementJudge => Sys2Proof.Machine.execAgreementJudge s
  | .reachTimeout port => Sys2Proof.Machine.execReachTimeout port s
  | .upstreamRevert => Sys2Proof.Machine.execUpstreamRevert s
  | .leadTakeover => Sys2Proof.Machine.execLeadTakeover s
  | .goSet m => Sys2Proof.Machine.execGoSet m s
  | .goClear m => Sys2Proof.Machine.execGoClear m s
  | .ringEnable m r value => Sys2Proof.Machine.execRingEnable m r value s
  | .ringDisable m r value => Sys2Proof.Machine.execRingDisable m r value s
  | .doorbell p off len value => Sys2Proof.Machine.execDoorbell p off len value s
  | .descriptorFetch p r => Sys2Proof.Machine.execDescriptorFetch p r s
  | .readCompletion tag status data => Sys2Proof.Machine.execReadCompletion tag status data s
  | .readTimeout tag => Sys2Proof.Machine.execReadTimeout tag s
  | .tagQuarantineExpiry tag => Sys2Proof.Machine.execTagQuarantineExpiry tag s
  | .ringEntryWrite p r => Sys2Proof.Machine.execRingEntryWrite p r s
  | .irqHoldoffExpiry p r => Sys2Proof.Machine.execIrqHoldoffExpiry p r s
  | .nop p r => Sys2Proof.Machine.execNop p r s
  | .sendFrame p r => Sys2Proof.Machine.execSendFrame p r s
  | .frameSent p r => Sys2Proof.Machine.execFrameSent p r s
  | .waitEpoch p r => Sys2Proof.Machine.execWaitEpoch p r s
  | .stopTrib p r => Sys2Proof.Machine.execStopTrib p r s
  | .muteLane p r => Sys2Proof.Machine.execMuteLane p r s
  | .captureHalt p r => Sys2Proof.Machine.execCaptureHalt p r s
  | .reservedCommand p r => Sys2Proof.Machine.execReservedCommand p r s
  | .urgentStopTrib p target => Sys2Proof.Machine.execUrgentStopTrib p target s
  | .urgentMuteLane p target => Sys2Proof.Machine.execUrgentMuteLane p target s
  | .urgentCaptureHalt p target => Sys2Proof.Machine.execUrgentCaptureHalt p target s
  | .urgentIgnored p value whole => Sys2Proof.Machine.execUrgentIgnored p value whole s
  | .captureStage t r => Sys2Proof.Machine.execCaptureStage t r s
  | .captureFlushExpiry p r index => Sys2Proof.Machine.execCaptureFlushExpiry p r index s
  | .playbackRead p r => Sys2Proof.Machine.execPlaybackRead p r s
  | .playbackRecord p r => Sys2Proof.Machine.execPlaybackRecord p r s
  | .functionLevelReset p => Sys2Proof.Machine.execFunctionLevelReset p s
  | .hotReset => Sys2Proof.Machine.execHotReset s
  | .busMasterDisable p d3hot => Sys2Proof.Machine.execBusMasterDisable p d3hot s
  | .add c rd ra rb => Sys2Proof.Machine.execAdd c rd ra rb s
  | .sub c rd ra rb => Sys2Proof.Machine.execSub c rd ra rb s
  | .and c rd ra rb => Sys2Proof.Machine.execAnd c rd ra rb s
  | .or c rd ra rb => Sys2Proof.Machine.execOr c rd ra rb s
  | .xor c rd ra rb => Sys2Proof.Machine.execXor c rd ra rb s
  | .shl c rd ra rb => Sys2Proof.Machine.execShl c rd ra rb s
  | .shr c rd ra rb => Sys2Proof.Machine.execShr c rd ra rb s
  | .sra c rd ra rb => Sys2Proof.Machine.execSra c rd ra rb s
  | .mul c rd ra rb => Sys2Proof.Machine.execMul c rd ra rb s
  | .slt c rd ra rb => Sys2Proof.Machine.execSlt c rd ra rb s
  | .sltu c rd ra rb => Sys2Proof.Machine.execSltu c rd ra rb s
  | .addi c rd ra imm => Sys2Proof.Machine.execAddi c rd ra imm s
  | .andi c rd ra imm => Sys2Proof.Machine.execAndi c rd ra imm s
  | .ori c rd ra imm => Sys2Proof.Machine.execOri c rd ra imm s
  | .xori c rd ra imm => Sys2Proof.Machine.execXori c rd ra imm s
  | .shli c rd ra sh => Sys2Proof.Machine.execShli c rd ra sh s
  | .shri c rd ra sh => Sys2Proof.Machine.execShri c rd ra sh s
  | .srai c rd ra sh => Sys2Proof.Machine.execSrai c rd ra sh s
  | .lui c rd imm => Sys2Proof.Machine.execLui c rd imm s
  | .ldw c rd ra off => Sys2Proof.Machine.execLdw c rd ra off s
  | .ldh c rd ra off => Sys2Proof.Machine.execLdh c rd ra off s
  | .ldb c rd ra off => Sys2Proof.Machine.execLdb c rd ra off s
  | .stw c rs ra off => Sys2Proof.Machine.execStw c rs ra off s
  | .sth c rs ra off => Sys2Proof.Machine.execSth c rs ra off s
  | .stb c rs ra off => Sys2Proof.Machine.execStb c rs ra off s
  | .beq c ra rb off => Sys2Proof.Machine.execBeq c ra rb off s
  | .bne c ra rb off => Sys2Proof.Machine.execBne c ra rb off s
  | .blt c ra rb off => Sys2Proof.Machine.execBlt c ra rb off s
  | .bge c ra rb off => Sys2Proof.Machine.execBge c ra rb off s
  | .jmp c off => Sys2Proof.Machine.execJmp c off s
  | .call c off => Sys2Proof.Machine.execCall c off s
  | .jr c ra => Sys2Proof.Machine.execJr c ra s
  | .csrr c rd csr => Sys2Proof.Machine.execCsrr c rd csr s
  | .csrw c ra csr => Sys2Proof.Machine.execCsrw c ra csr s
  | .slock c rd k nowait => Sys2Proof.Machine.execSlock c rd k nowait s
  | .sfree c rd k => Sys2Proof.Machine.execSfree c rd k s
  | .atomBegin c => Sys2Proof.Machine.execAtomBegin c s
  | .atomEnd c => Sys2Proof.Machine.execAtomEnd c s
  | .fence c => Sys2Proof.Machine.execFence c s
  | .wait c rd mask => Sys2Proof.Machine.execWait c rd mask s
  | .trap c imm => Sys2Proof.Machine.execTrap c imm s
  | .rett c => Sys2Proof.Machine.execRett c s
  | .halt c => Sys2Proof.Machine.execHalt c s
  | .illegalOpcode c word => Sys2Proof.Machine.execIllegalOpcode c word s
  | .eventTrap c => Sys2Proof.Machine.execEventTrap c s
  | .waitWake c => Sys2Proof.Machine.execWaitWake c s
  | .semaphoreGrant k => Sys2Proof.Machine.execSemaphoreGrant k s
  | .writeBufferDrain c => Sys2Proof.Machine.execWriteBufferDrain c s
  | .coreTick c => Sys2Proof.Machine.execCoreTick c s
  | .mboxWrite m c value => Sys2Proof.Machine.execMboxWrite m c value s
  | .fifoData c rd errs => Sys2Proof.Machine.execFifoData c rd errs s
  | .fifoMark c => Sys2Proof.Machine.execFifoMark c s
  | .fifoRewind c => Sys2Proof.Machine.execFifoRewind c s
  | .fifoRelease c => Sys2Proof.Machine.execFifoRelease c s
  | .ckStart c fixedUnit => Sys2Proof.Machine.execCkStart c fixedUnit s
  | .ckData c fixedUnit bytes => Sys2Proof.Machine.execCkData c fixedUnit bytes s
  | .ckResultLoad c fixedUnit hi rd => Sys2Proof.Machine.execCkResultLoad c fixedUnit hi rd s
  | .haltRequest c => Sys2Proof.Machine.execHaltRequest c s
  | .forcedHalt c => Sys2Proof.Machine.execForcedHalt c s
  | .resume c => Sys2Proof.Machine.execResume c s
  | .step c => Sys2Proof.Machine.execStep c s
  | .breakpoint c => Sys2Proof.Machine.execBreakpoint c s
  | .coreEnable c => Sys2Proof.Machine.execCoreEnable c s
  | .coreReset c => Sys2Proof.Machine.execCoreReset c s
  | .scrubRead cls upset raced => Sys2Proof.Machine.execScrubRead cls upset raced s
  | .scrubLapOver cls => Sys2Proof.Machine.execScrubLapOver cls s
  | .poisonFillDone d => Sys2Proof.Machine.execPoisonFillDone d s
  | .dieThresholdInterval => Sys2Proof.Machine.execDieThresholdInterval s
  | .hbmDieFailReport st die => Sys2Proof.Machine.execHbmDieFailReport st die s
  | .stackLost st => Sys2Proof.Machine.execStackLost st s
  | .markDie st die => Sys2Proof.Machine.execMarkDie st die s
  | .clearDies st die => Sys2Proof.Machine.execClearDies st die s
  | .restore st die => Sys2Proof.Machine.execRestore st die s
  | .memEventWindowEnd p cls happening => Sys2Proof.Machine.execMemEventWindowEnd p cls happening s
  | .digestLapEnd => Sys2Proof.Machine.execDigestLapEnd s
  | .digestCommit value => Sys2Proof.Machine.execDigestCommit value s
  | .dusk => Sys2Proof.Machine.execDusk s
  | .day => Sys2Proof.Machine.execDay s
  | .night => Sys2Proof.Machine.execNight s
  | .duskHoldExpiry => Sys2Proof.Machine.execDuskHoldExpiry s
  | .powerOnReset => Sys2Proof.Machine.execPowerOnReset s
  | .powerOnResetRelease => Sys2Proof.Machine.execPowerOnResetRelease s
  | .perstAssert => Sys2Proof.Machine.execPerstAssert s
  | .perstRelease => Sys2Proof.Machine.execPerstRelease s
  | .softReset => Sys2Proof.Machine.execSoftReset s
  | .bootWatchdog => Sys2Proof.Machine.execBootWatchdog s
  | .laneGroupReset g => Sys2Proof.Machine.execLaneGroupReset g s
  | .hostImageGo m value => Sys2Proof.Machine.execHostImageGo m value s
  | .imageAuthenticate image => Sys2Proof.Machine.execImageAuthenticate image s
  | .bootDone => Sys2Proof.Machine.execBootDone s
  | .bootReboot => Sys2Proof.Machine.execBootReboot s
  | .off unit => Sys2Proof.Machine.execOff unit s
  | .on unit => Sys2Proof.Machine.execOn unit s
  | .sr unit => Sys2Proof.Machine.execSr unit s
  | .unitReady unit => Sys2Proof.Machine.execUnitReady unit s
  | .paceChange efficient force => Sys2Proof.Machine.execPaceChange efficient force s
  | .paceRampDone => Sys2Proof.Machine.execPaceRampDone s
  | .thermalAlarm tj => Sys2Proof.Machine.execThermalAlarm tj s
  | .thermalTrip => Sys2Proof.Machine.execThermalTrip s
  | .lastGasp => Sys2Proof.Machine.execLastGasp s
  | .pwrfailRise => Sys2Proof.Machine.execPwrfailRise s
  | .i2cTargetRead addr => Sys2Proof.Machine.execI2cTargetRead addr s
  | .i2cTargetWrite addr value => Sys2Proof.Machine.execI2cTargetWrite addr value s
  | .i2cArbitrationLost => Sys2Proof.Machine.execI2cArbitrationLost s
  | .i2cStuck => Sys2Proof.Machine.execI2cStuck s
  | .sensorPoll value => Sys2Proof.Machine.execSensorPoll value s
  | .ledgerLoad => Sys2Proof.Machine.execLedgerLoad s
  | .ledgerWrite => Sys2Proof.Machine.execLedgerWrite s
  | .avsRequest => Sys2Proof.Machine.execAvsRequest s
  | .avsTimeout => Sys2Proof.Machine.execAvsTimeout s
  | .perfClear m value => Sys2Proof.Machine.execPerfClear m value s
  | .counterEnable m k value => Sys2Proof.Machine.execCounterEnable m k value s
  | .telemetryRecord p r => Sys2Proof.Machine.execTelemetryRecord p r s
  | .windowOccurrenceEdge w => Sys2Proof.Machine.execWindowOccurrenceEdge w s
  | .activityFaultClear n => Sys2Proof.Machine.execActivityFaultClear n s
  | .timeTransferTimeout => Sys2Proof.Machine.execTimeTransferTimeout s
  | .intactTimeout => Sys2Proof.Machine.execIntactTimeout s
  | .buildOutRemoved => Sys2Proof.Machine.execBuildOutRemoved s
  | .claimWireChange high => Sys2Proof.Machine.execClaimWireChange high s
  | .busMasterEnable p d0 => Sys2Proof.Machine.execBusMasterEnable p d0 s
  | .linkUp rate width flit => Sys2Proof.Machine.execLinkUp rate width flit s
  | .ethAlignmentChange port amLock aligned localFault remoteFault => Sys2Proof.Machine.execEthAlignmentChange port amLock aligned localFault remoteFault s
  | .avsResponse ok => Sys2Proof.Machine.execAvsResponse ok s
  | .trstNChange high => Sys2Proof.Machine.execTrstNChange high s
  | .transmitSystemClockLost => Sys2Proof.Machine.execTransmitSystemClockLost s

end Sys2Proof.Machine
end

