-- ==== Sys2Proof/Safety.lean ====
section
/-! DEFINITION. What counts as a safe run: the block answers every command with a next state, and a command touches the queue only by
leaving it. -/

namespace Sys2Proof.Machine

/-- The canonical form of the state: the register file, the counters, class T memory and its error masks. -/
def State.canonical (s : State) : Prop :=
  regsWf s.regs = true ∧ SMap.rising s.counters = true ∧ Memory.wf s.tbl = true ∧ SMap.rising s.tflip = true

/-- A command answers a next state, of which P holds. -/
def Answers (i : Instr) (s : State) (P : State → Prop) : Prop := ∃ t, exec i s = .next t ∧ P t

/-- No core has anything left to do that an access or another core asked of it. -/
abbrev State.quiet (s : State) : Prop := (s.cores.all fun e => !s.coreNeeds e.1) = true

/-- Every register but those listed reads as before. -/
def RegsBut (keys : List Nat) (s t : State) : Prop := ∀ k, k ∉ keys → t.rget k = s.rget k

/-- Nothing of the state has changed but the cores, and of those only core c. -/
def OnlyCore (c : Nat) (s t : State) : Prop := (∀ d, d ≠ c → t.core d = s.core d) ∧ t = { s with cores := t.cores }

/-- Core c is about to execute the word w of its instruction memory: it runs, nothing else is asked of it or of another core, no breakpoint
stands at its pc, the rules of an open sequence allow the word, and nothing beside it takes part (no stored error in class T memory, no
counter or trace of partition 0, no fetch ahead in forerunner mode). -/
structure CoreReady (s : State) (c : Nat) (w : Word) : Prop where
  running : s.coreState c = 1
  quiet : s.quiet
  noHalt : (s.core c).haltPend = none
  noStep : (s.core c).stepping = false
  noTrap : (s.core c).trapPend = none
  noBreak : s.bpHit c (s.core c).pc = false
  aligned : (s.core c).pc.toNat % 4 = 0
  place : regionOf c (s.core c).pc = some .instr
  word : s.tpeekN (memOffset c .instr (s.core c).pc) 4 = some w.toNat
  rule : (s.core c).atomRule w = true
  clean : s.tflip = []
  uncounted : s.fbit (PerfCtl.run 0) = false
  untagged : s.fbit (PerfVtCfg.en 0) = false
  traceless : (s.part 0).vtTags = []
  native : s.feature 0 1 = false

/-- A core after an instruction of n steps, with the next at pc: its steps counted, and those of an open sequence its instructions. -/
def CoreSt.passed (q : CoreSt) (n : Nat) (pc : Word) : CoreSt :=
  { q with pc := pc, steps := q.steps + BitVec.ofNat 32 n, atom := q.atom.map fun a => { a with count := a.count + 1 } }

/-- A core that has entered its trap handler from outside a sequence. -/
def CoreSt.trapped (q : CoreSt) (cause epc tval : Word) : CoreSt :=
  { q with cause := cause, epc := epc, tval := tval, pie := q.ie, ie := false, inTrap := true, pc := q.tvec }

/-- An access of master m reaches the register with this key: the device answers, the master's view has it, the master has no D-class pair
under way in its block, and the write is not one that mode 01 ignores. -/
abbrev Reached (s : State) (m key : Nat) : Prop :=
  s.deaf m = false ∧ s.reaches m key = true ∧
    (match locate (key % 0x1000000) with
      | some (b, _, _) => (s.openPair m b.row).isNone && !s.ignoresWrite m b
      | none => false) = true

/-- The plain write of w reaches the register, holds no reserved encoding, and leaves the state s1. -/
abbrev PlainWrite (s : State) (m key w : Nat) (s1 : State) : Prop :=
  Reached s m key ∧ s.writeReg m key (s.viewOff m key) .plain w = some s1

/-- The command d at the head of a ring has completed with this status, result and data, and the entries that follow them. -/
def Completed (s t : State) (p r : Nat) (d : List Byte) (status result : Nat) (data : List Byte) (more : List (List Byte)) : Prop :=
  (t.ring p r).descs = (s.ring p r).descs.tail ∧
    (t.ring p (s.fget (HostRingCfg.cpl p r))).waiting =
      (s.ring p (s.fget (HostRingCfg.cpl p r))).waiting ++ (cplEntry d r status result data :: more).map fun e => (e, decide (leAt d 1 1 % 2 = 1))

/-- An event of this kind and source with this data waits in every event ring of partition p that takes the kind and had room for one entry
and no loss to report. -/
def Reported (s t : State) (p kind source data0 data1 : Nat) : Prop :=
  ∀ r < 64, s.ringIs p r 4 = true → Nat.testBit (s.eventMask p r) kind = true → (s.ring p r).lost = 0 →
    s.ringUsed p r < s.ringSize p r →
    ∃ stamp, (eventEntry kind source data0 stamp data1, false) ∈ (t.ring p r).waiting

/-- The parts of the state beside its registers. -/
inductive Piece where
  | pending | counters | parts | sys | rings | out | tribs | lanes | groups | cas | tim | pair | mem | tbl | tflip | cores | sems | wins | slcs | reads | quarantine | mail | pairs | casErrs | digErrs | cellsIn | ports | fresh | clock | ticks
  deriving DecidableEq, Repr

/-- Two states agree in this part. -/
def Piece.same (s t : State) : Piece → Prop
  | .pending => t.pending = s.pending
  | .counters => t.counters = s.counters
  | .parts => t.parts = s.parts
  | .sys => t.sys = s.sys
  | .rings => t.rings = s.rings
  | .out => t.out = s.out
  | .tribs => t.tribs = s.tribs
  | .lanes => t.lanes = s.lanes
  | .groups => t.groups = s.groups
  | .cas => t.cas = s.cas
  | .tim => t.tim = s.tim
  | .pair => t.pair = s.pair
  | .mem => t.mem = s.mem
  | .tbl => t.tbl = s.tbl
  | .tflip => t.tflip = s.tflip
  | .cores => t.cores = s.cores
  | .sems => t.sems = s.sems
  | .wins => t.wins = s.wins
  | .slcs => t.slcs = s.slcs
  | .reads => t.reads = s.reads
  | .quarantine => t.quarantine = s.quarantine
  | .mail => t.mail = s.mail
  | .pairs => t.pairs = s.pairs
  | .casErrs => t.casErrs = s.casErrs
  | .digErrs => t.digErrs = s.digErrs
  | .cellsIn => t.cellsIn = s.cellsIn
  | .ports => t.ports = s.ports
  | .fresh => t.fresh = s.fresh
  | .clock => t.clock = s.clock
  | .ticks => t.ticks = s.ticks

/-- A set of registers: one, an array, or an array in each of several windows. -/
inductive RegSet where
  | one (key : Nat)
  | each (key : Nat → Nat)
  | each2 (key : Nat → Nat → Nat)
  | every

/-- The set has this register. -/
def RegSet.has (k : Nat) : RegSet → Prop
  | .one key => k = key
  | .each key => ∃ i, k = key i
  | .each2 key => ∃ i j, k = key i j
  | .every => True

/-- Whatever the state, a command that answers a next state leaves every part of the state but those listed, and every register but those of
the sets listed, as it was. -/
def Frame (i : Instr) (pieces : List Piece) (regs : List RegSet) : Prop :=
  ∀ s t, exec i s = .next t → (∀ p, p ∉ pieces → p.same s t) ∧ ∀ k, (∀ r ∈ regs, ¬ r.has k) → t.rget k = s.rget k

/-- What an event, a fault or an alarm touches. -/
def eventPieces : List Piece := [.counters, .parts, .sys, .rings, .out]

/-- What the actions and epoch activations due at one tick can touch (R180 to R183). -/
def actionPieces : List Piece := [.counters, .parts, .sys, .rings, .tribs, .tim, .mem, .wins, .slcs, .fresh]

/-- The registers that actions and epoch activations due at one tick can touch. -/
def actionRegs : List RegSet :=
  [.one CasEpoch.reg, .one CasPropStat.reg, .one CasStageCtl.reg, .one GlbPace.reg, .each HostOps.reg, .each2 HostRingStat.reg,
   .one IntegDigRef.reg, .one IntegDigStat.reg, .one PwrPaceStat.reg, .each RefselOutStat.reg, .each TimeActMiss.reg, .each TribLatHi.reg,
   .each WinCfg.reg, .each WinCount.reg]

/-- What an access of a master touches. -/
def accessPieces : List Piece := [.counters, .parts, .out, .casErrs, .digErrs]

/-- The alarm registers (R498). -/
def alarmRegs : List RegSet := [.one MgmtAlarmSrc.reg, .one MgmtAlarmStky.reg]

/-- Where bus errors are logged (R460, R461). -/
def accessRegs : List RegSet := [.each IntegBuserr0.reg, .each IntegBuserr1.reg, .each IntegBuserrCnt.reg]

/-- Where failed D pairs are logged (R454). -/
def pairLogRegs : List RegSet := [.each IntegDwlog0.reg, .each IntegDwlog1.reg, .each IntegDwlogCnt.reg]

/-- Where refused C-field writes are logged (R452). -/
def cfgLogRegs : List RegSet := [.each IntegCfgwe.reg, .each IntegCfgweAddr.reg]

/-- The selected input and its phase error (R279, R284). -/
def selectionRegs : List RegSet := [.one RefselPherr.reg, .one RefselStat.reg, .one RefselStky.reg]

/-- What the admitted load shows (R188, R192). -/
def loadRegs : List RegSet := [.each HostRate.reg, .each TimeDeepLoad.reg, .each TimeRelFree.reg, .each TimeRelLoad.reg]

/-- The acquisition and the defects of the lanes (R95, R105). -/
def laneDefectRegs : List RegSet := [.each LaneAcq.reg, .each LaneCalStat.reg, .each LaneDef.reg, .each LaneDefIvl.reg, .each LaneDefStky.reg]

/-- The block goes on from this state. -/
def SafeStep (s : State) : Prop := ∃ t, step s = .next t

/-- The state after n steps, where every one of them goes on. -/
def runFor : Nat → State → Option State
  | 0, s => some s
  | n + 1, s => match step s with | .next t => runFor n t | _ => none

/-- A run of n steps never stops. -/
def SafeRun (n : Nat) (s : State) : Prop := (runFor n s).isSome

-- Frames by family.

/-- What each of these commands of the control bus leaves unchanged. -/
def busFrames : Prop :=
  (∀ m row, Frame (.dPairTimeout m row) [.pairs] pairLogRegs) ∧
  (∀ m off data, Frame (.tableWrite m off data) (accessPieces.append [.tbl, .tflip]) (accessRegs.append [.each LaneCalStat.reg, .one MemFlipT.reg, .each SlcStat.reg])) ∧
  (∀ port requests, Frame (.busPieceGrant port requests) [.counters, .out, .ports] []) ∧
  (∀ addr, Frame (.i2cTargetRead addr) (accessPieces.append [.sys, .sems, .mail, .fresh]) [.every])

/-- What each of these commands of mailboxes and reads with side effects leaves unchanged. -/
def readFrames1 : Prop :=
  (∀ m mbx req, Frame (.mailboxRequest m mbx req) (accessPieces.append [.sys, .tribs, .mail, .pairs, .fresh]) (accessRegs.append pairLogRegs)) ∧
  (∀ m mbx, Frame (.mailboxSnapshotReady m mbx) [.mail] []) ∧
  (∀ m mbx, Frame (.mailboxLastRead m mbx) (accessPieces.append [.mail, .pairs]) (accessRegs.append pairLogRegs)) ∧
  (∀ m req, Frame (.lagProbeRequest m req) (accessPieces.append [.sys, .tribs, .mail, .pairs, .fresh]) (accessRegs.append pairLogRegs)) ∧
  (∀ m lane, Frame (.laneDefIvlRead m lane) (accessPieces.append [.pairs]) ((accessRegs.append pairLogRegs).append [.each LaneDefIvl.reg])) ∧
  (∀ m lane, Frame (.deskewStatRead m lane) (accessPieces.append [.pairs]) ((accessRegs.append pairLogRegs).append [.each LaneDskStat.reg])) ∧
  (∀ m lane, Frame (.ethUnmatchedRead m lane) (accessPieces.append [.pairs]) ((accessRegs.append pairLogRegs).append [.each LaneEthUnm.reg])) ∧
  (∀ m, Frame (.actionMissRead m) (accessPieces.append [.pairs]) ((accessRegs.append pairLogRegs).append [.each TimeActMiss.reg]))

/-- What each of these commands of mailboxes and reads with side effects leaves unchanged. -/
def readFrames2 : Prop :=
  (∀ m, Frame (.urgentLogRead m) (accessPieces.append [.pairs]) ((accessRegs.append pairLogRegs).append [.each HostUrgLog.reg])) ∧
  (∀ m, Frame (.ctoLogRead m) (accessPieces.append [.pairs]) ((accessRegs.append pairLogRegs).append [.each HostCtoLog.reg])) ∧
  (∀ m, Frame (.memLogRead m) (accessPieces.append [.sys, .pairs]) (((alarmRegs.append accessRegs).append pairLogRegs).append [.one MemLog0.reg])) ∧
  (∀ m dw, Frame (.buserrLogRead m dw) (accessPieces.append [.pairs]) (accessRegs.append pairLogRegs)) ∧
  (∀ m dw, Frame (.errorCountRead m dw) (accessPieces.append [.pairs]) (accessRegs.append pairLogRegs)) ∧
  (∀ m c, Frame (.fifoCountRead m c) (accessPieces.append [.pairs]) ((accessRegs.append pairLogRegs).append [.each SepFifoCnt.reg])) ∧
  (∀ m, Frame (.vtStatRead m) (accessPieces.append [.pairs]) ((accessRegs.append pairLogRegs).append [.each PerfVtStat.reg])) ∧
  (∀ m max, Frame (.paceExtremeRead m max) (accessPieces.append [.pairs]) ((accessRegs.append pairLogRegs).append [.one PerfPaceMax.reg, .one PerfPaceMin.reg, .one PerfPaceNow.reg]))

/-- What each of these commands of lanes and the framer leaves unchanged. -/
def laneFrames1 : Prop :=
  (∀ lane, Frame (.losDeclare lane) (eventPieces.append [.tribs, .lanes, .groups, .cas, .tim, .pair, .fresh]) (((alarmRegs.append selectionRegs).append laneDefectRegs).append [.each CasHopStat.reg, .one CasStat.reg, .one GlbPhase.reg, .each GrpStat.reg, .each2 HostRingStat.reg, .one ProtPairStat.reg, .each RefselInStat.reg, .each TribStat.reg])) ∧
  (∀ lane, Frame (.losClear lane) (eventPieces.append [.lanes, .cas, .tim, .pair, .fresh]) ((alarmRegs.append selectionRegs).append [.each CasHopStat.reg, .one CasStat.reg, .one GlbPhase.reg, .each GrpStat.reg, .each2 HostRingStat.reg, .each LaneAcq.reg, .each LaneDef.reg, .each LaneDefIvl.reg, .each LaneDefStky.reg, .one ProtPairStat.reg, .each RefselInStat.reg])) ∧
  (∀ g inRange, Frame (.cdrAcquire g inRange) (eventPieces.append [.tribs, .lanes, .groups, .cas, .tim, .pair, .fresh]) (((alarmRegs.append selectionRegs).append laneDefectRegs).append [.each CasHopStat.reg, .one CasStat.reg, .one GlbPhase.reg, .each GrpStat.reg, .each2 HostRingStat.reg, .one ProtPairStat.reg, .each RefselInStat.reg, .each TribStat.reg])) ∧
  (∀ g, Frame (.clockLaneReselect g) (eventPieces.append [.groups, .tim, .pair, .fresh]) ((alarmRegs.append selectionRegs).append [.one GlbPhase.reg, .each GrpStat.reg, .each2 HostRingStat.reg, .one ProtPairStat.reg, .each RefselInStat.reg])) ∧
  (∀ lane offsets cdrLost fill, Frame (.freqMeasure lane offsets cdrLost fill) (eventPieces.append [.tribs, .lanes, .groups, .cas, .tim, .pair, .fresh]) (((alarmRegs.append selectionRegs).append laneDefectRegs).append [.each CasHopStat.reg, .one CasStat.reg, .one GlbPhase.reg, .each GrpFreq.reg, .each GrpStat.reg, .each2 HostRingStat.reg, .each LaneDskStat.reg, .each LaneFreq.reg, .one ProtPairStat.reg, .each RefselInStat.reg, .each TribStat.reg]))

/-- What each of these commands of lanes and the framer leaves unchanged. -/
def laneFrames2 : Prop :=
  (∀ fill, Frame (.deskewSlip fill) (eventPieces.append [.tribs, .lanes, .cas, .tim, .pair, .fresh]) (((alarmRegs.append selectionRegs).append laneDefectRegs).append [.each CasHopStat.reg, .one CasStat.reg, .one GlbPhase.reg, .each2 HostRingStat.reg, .each LaneDskStat.reg, .one ProtPairStat.reg, .each RefselInStat.reg, .each TribStat.reg])) ∧
  (∀ lane symbols arrival, Frame (.rxBlock lane symbols arrival) (eventPieces.append [.tribs, .lanes, .cas, .tim, .pair, .fresh]) (((alarmRegs.append selectionRegs).append laneDefectRegs).append [.each CasHopStat.reg, .one CasStat.reg, .one GlbPhase.reg, .each2 HostRingStat.reg, .each LaneKlfStat.reg, .one ProtPairStat.reg, .each RefselInStat.reg, .each TribStat.reg])) ∧
  (∀ cw, Frame (.rxCodewordDecode cw) [.counters, .lanes] [.each LaneKlfStat.reg]) ∧
  (∀ lane, Frame (.txMultiframeStart lane) [.counters, .parts, .rings, .tribs, .lanes, .wins, .fresh] [.each2 HostRingStat.reg, .each LaneCalStat.reg, .each LaneKlfStat.reg, .each2 LaneKlfTxoh.reg, .each TimeActMiss.reg, .each TribDef.reg]) ∧
  (∀ lane, Frame (.txSlot lane) (eventPieces.append [.tribs, .lanes, .cas, .fresh]) [.each2 HostRingStat.reg, .each PerfVtStat.reg])

/-- What each of these commands of a lane's receiver and life leaves unchanged. -/
def laneRxFrames1 : Prop :=
  (∀ lane arrival, Frame (.rxMultiframeEnd lane arrival) (eventPieces.append [.tribs, .lanes, .groups, .cas, .tim, .pair, .fresh]) (((alarmRegs.append selectionRegs).append laneDefectRegs).append [.each CasHopStat.reg, .one CasStat.reg, .one GlbPhase.reg, .each2 HostRingStat.reg, .each LaneCalRxSwap.reg, .each LaneKlfCfg.reg, .each2 LaneKlfRxoh.reg, .each LaneKlfRxohCtl.reg, .each LaneKlfStat.reg, .each ProtLane.reg, .one ProtPairStat.reg, .each RefselInStat.reg, .each SepFifoCnt.reg, .each TribStat.reg])) ∧
  (∀ g, Frame (.notice g) [.groups, .cores] []) ∧
  (∀ lane, Frame (.fecWindowEnd lane) (eventPieces.append [.lanes, .cas, .tim, .pair, .fresh]) ((alarmRegs.append selectionRegs).append [.each CasHopStat.reg, .one CasStat.reg, .one GlbPhase.reg, .each2 HostRingStat.reg, .each LaneDef.reg, .each LaneDefIvl.reg, .each LaneDefStky.reg, .each LaneFecWinCorr.reg, .each LaneFecWinUnc.reg, .one ProtPairStat.reg, .each RefselInStat.reg])) ∧
  (∀ lane rate, Frame (.formatDetect lane rate) (eventPieces.append [.tribs, .lanes, .groups, .cas, .tim, .pair, .fresh]) (((alarmRegs.append selectionRegs).append laneDefectRegs).append [.each CasHopStat.reg, .one CasStat.reg, .one GlbPhase.reg, .each GrpStat.reg, .each2 HostRingStat.reg, .each LaneDskStat.reg, .each LaneKlfCfg.reg, .each LaneKlfStat.reg, .one ProtPairStat.reg, .each RefselInStat.reg, .each TribStat.reg])) ∧
  (∀ g, Frame (.formatDetectRetry g) [.groups] [.each GrpStat.reg, .each LaneAcq.reg])

/-- What each of these commands of a lane's receiver and life leaves unchanged. -/
def laneRxFrames2 : Prop :=
  (∀ g, Frame (.defectSample g) (eventPieces.append [.lanes, .groups, .fresh]) (alarmRegs.append [.each2 HostRingStat.reg, .each LaneDefIvl.reg, .each LaneFail.reg, .each2 LaneKlfTxoh.reg])) ∧
  (∀ lane, Frame (.laneEnable lane) [.lanes] [.each LaneAcq.reg, .each LaneCfg.reg, .each LaneDef.reg, .each LaneDefIvl.reg, .each LaneKlfStat.reg, .each2 LaneKlfTxoh.reg]) ∧
  (∀ lane, Frame (.laneDisable lane) (eventPieces.append [.tribs, .lanes, .groups, .cas, .tim, .pair, .fresh]) (((alarmRegs.append selectionRegs).append laneDefectRegs).append [.each CasHopStat.reg, .one CasStat.reg, .one GlbPhase.reg, .each GrpStat.reg, .each2 HostRingStat.reg, .each LaneCfg.reg, .each LaneEthStat.reg, .each LaneFail.reg, .each LaneKlfRxohCtl.reg, .each LaneKlfStat.reg, .each2 LaneKlfTxoh.reg, .one ProtPairStat.reg, .each RefselInStat.reg, .each TribStat.reg])) ∧
  (∀ lane, Frame (.framingStart lane) [.lanes] [])

/-- What each of these commands of demapping, tributaries, calendars, Ethernet ports and the release buffer leaves unchanged. -/
def tribFrames1 : Prop :=
  (∀ lane, Frame (.demapSlot lane) (eventPieces.append [.tribs, .lanes, .mem, .tbl, .tflip, .cellsIn, .fresh]) (alarmRegs.append [.one GlbPhase.reg, .each2 HostRingStat.reg, .one MemLog0.reg, .one MemLog1.reg, .each PerfVtStat.reg, .each ProtMrgStat.reg, .each TribDef.reg, .each TribDefStky.reg, .each TribRxSeq.reg, .each TribStat.reg])) ∧
  (∀ t, Frame (.tribDefWindowEnd t) [.counters, .parts, .rings, .tribs] [.each2 HostRingStat.reg]) ∧
  (∀ t, Frame (.fabricDeliver t) [.counters, .parts, .sys, .tribs, .slcs, .fresh] []) ∧
  (∀ t, Frame (.releaseBufferWrite t) [.counters, .parts, .sys, .rings, .tribs, .mem, .fresh] [.each2 HostRingStat.reg, .one MemFlipB.reg, .one MemFlipD.reg, .each PerfVtStat.reg, .each TribDef.reg, .each TribDefStky.reg]) ∧
  (∀ t d, Frame (.releaseRead t d) (eventPieces.append [.tribs, .cas, .mem, .fresh]) (alarmRegs.append [.one GlbPhase.reg, .each2 HostRingStat.reg, .one MemLog0.reg, .one MemLog1.reg, .one MemZeroPend.reg, .each PerfVtStat.reg, .each ProtMrgStat.reg, .each TribDef.reg, .each TribDefStky.reg])) ∧
  (∀ t, Frame (.deepPrefetch t) (eventPieces.append [.tribs, .mem, .fresh]) (alarmRegs.append [.one GlbPhase.reg, .each2 HostRingStat.reg, .one MemHbmStat.reg, .one MemLog0.reg, .one MemLog1.reg, .each ProtMrgStat.reg, .each TribDef.reg, .each TribDefStky.reg, .each TribLatHi.reg])) ∧
  (∀ t, Frame (.tribEnable t) [.counters, .sys, .out, .tribs, .mem, .tbl, .tflip, .fresh] (alarmRegs.append [.one GlbPhase.reg, .one MemLog0.reg, .one MemLog1.reg, .each TribCfg.reg, .each TribStat.reg])) ∧
  (∀ t, Frame (.tribDisable t) (eventPieces.append [.tribs, .groups, .mem, .tbl, .tflip, .cores, .sems, .fresh]) ((alarmRegs.append loadRegs).append [.each2 HostRingStat.reg, .each LaneCalStat.reg, .one MemZeroPend.reg, .each PerfVtStat.reg, .each PwrDomOn.reg, .each SepStat.reg, .each SlcStat.reg, .each TribCfg.reg, .each TribDef.reg, .each TribLatHi.reg, .each TribStat.reg]))

/-- What each of these commands of demapping, tributaries, calendars, Ethernet ports and the release buffer leaves unchanged. -/
def tribFrames2 : Prop :=
  (∀ m lane transmit bank crc, Frame (.calCommit m lane transmit bank crc) (accessPieces.append [.pairs]) (((accessRegs.append pairLogRegs).append cfgLogRegs).append [.each2 LaneCalCrc.reg, .each LaneCalStat.reg])) ∧
  (∀ lane transmit bank, Frame (.calCheckDone lane transmit bank) [.counters, .sys, .out, .mem, .tbl, .tflip, .fresh] (alarmRegs.append [.one GlbPhase.reg, .each LaneCalStat.reg, .one MemLog0.reg, .one MemLog1.reg])) ∧
  (∀ m lane bank, Frame (.rxBankSelect m lane bank) (accessPieces.append [.lanes, .pairs]) (((accessRegs.append pairLogRegs).append cfgLogRegs).append [.each LaneCalRxCtl.reg])) ∧
  (∀ port bytes arrival fecBad, Frame (.ethFrameRx port bytes arrival fecBad) (eventPieces.append [.tribs, .tim, .pair, .fresh]) ((alarmRegs.append selectionRegs).append [.one GlbPhase.reg, .each2 HostRingStat.reg, .each LaneEthUnm.reg, .each PerfVtStat.reg, .one ProtPairStat.reg, .each RefselInStat.reg, .each TribDef.reg, .each TribDefStky.reg])) ∧
  (∀ port, Frame (.esmcQlTimeout port) (eventPieces.append [.tim, .pair, .fresh]) ((alarmRegs.append selectionRegs).append [.one GlbPhase.reg, .each2 HostRingStat.reg, .one ProtPairStat.reg, .each RefselInStat.reg])) ∧
  (∀ t port, Frame (.ethPacketBuild t port) (eventPieces.append [.tribs, .mem, .tbl, .tflip, .fresh]) (alarmRegs.append [.one GlbPhase.reg, .each2 HostRingStat.reg, .one MemLog0.reg, .one MemLog1.reg, .each PerfVtStat.reg, .each TribDef.reg])) ∧
  (∀ port amLock aligned localFault remoteFault, Frame (.ethAlignmentChange port amLock aligned localFault remoteFault) (eventPieces.append [.lanes, .cas, .tim, .pair, .fresh]) ((alarmRegs.append selectionRegs).append [.each CasHopStat.reg, .one CasStat.reg, .one GlbPhase.reg, .each2 HostRingStat.reg, .each LaneDef.reg, .each LaneDefIvl.reg, .each LaneDefStky.reg, .each LaneEthStat.reg, .one ProtPairStat.reg, .each RefselInStat.reg]))

/-- What each of these commands of windows and device time leaves unchanged. -/
def windowFrames1 : Prop :=
  (∀ force, Frame (.timeStep force) [.sys] [.one TimeWrCtl.reg, .one TimeWrStat.reg]) ∧
  (∀ force, Frame (.timeSet force) [.sys] [.one TimeWrCtl.reg, .one TimeWrStat.reg]) ∧
  (∀ m w, Frame (.windowEnable m w) (accessPieces.append [.wins, .pairs]) ((accessRegs.append pairLogRegs).append [.each WinCfg.reg, .each WinCount.reg])) ∧
  (∀ w, Frame (.calSwapPlace w) [.counters, .parts, .rings, .lanes, .wins] [.each2 HostRingStat.reg, .each2 LaneKlfTxoh.reg, .each TimeActMiss.reg]) ∧
  (∀ w, Frame (.windowOccurrenceEdge w) [] [.each WinCfg.reg, .each WinCount.reg]) ∧
  Frame .timeOpEffect (actionPieces.append [.lanes, .groups, .cas, .clock]) (actionRegs.append [.each LaneKlfStat.reg, .each2 LaneKlfTxoh.reg, .each RefselOutMis.reg, .one TimeWrStat.reg])

/-- What each of these commands of windows and device time leaves unchanged. -/
def windowFrames2 : Prop :=
  (∀ w, Frame (.calSwap w) actionPieces actionRegs) ∧
  (∀ w, Frame (.pulseAlign w) actionPieces actionRegs) ∧
  (∀ w, Frame (.epoch w) actionPieces actionRegs) ∧
  (∀ w, Frame (.ncoReset w) actionPieces actionRegs) ∧
  (∀ w, Frame (.pace w) actionPieces actionRegs) ∧
  (∀ w, Frame (.event w) actionPieces actionRegs)

/-- What each of these commands of admission leaves unchanged. -/
def admissionFrames : Prop :=
  (∀ p r, Frame (.admitTrib p r) [.counters, .rings, .tribs, .fresh] (loadRegs.append [.each HostOps.reg, .each2 HostRingStat.reg])) ∧
  (∀ t, Frame (.admissionTakesEffect t) [.counters, .parts, .sys, .rings, .tribs, .mem, .fresh] (loadRegs.append [.each2 HostRingStat.reg, .one MemZeroPend.reg, .each TribLatHi.reg])) ∧
  (∀ p r, Frame (.withdraw p r) [.counters, .rings, .tribs] [.each HostOps.reg, .each2 HostRingStat.reg]) ∧
  (∀ t, Frame (.withdrawTakesEffect t) (eventPieces.append [.tribs, .groups, .mem, .tbl, .tflip, .cores, .sems, .fresh]) ((alarmRegs.append loadRegs).append [.each2 HostRingStat.reg, .each LaneCalStat.reg, .one MemZeroPend.reg, .each PerfVtStat.reg, .each PwrDomOn.reg, .each SepStat.reg, .each SlcStat.reg, .each TribLatHi.reg])) ∧
  (∀ seq, Frame (.zeroingDone seq) [.counters, .parts, .sys, .rings, .tribs, .mem, .fresh] (loadRegs.append [.each2 HostRingStat.reg, .each HostStat.reg, .one MemZeroPend.reg]))

/-- What each of these commands of slicers leaves unchanged. -/
def slicerFrames : Prop :=
  (∀ m e value, Frame (.slicerEnable m e value) (accessPieces.append [.slcs, .pairs]) (((accessRegs.append pairLogRegs).append cfgLogRegs).append [.each SlcCfg.reg, .each SlcCluLoad.reg, .each SlcStat.reg])) ∧
  (∀ m e value, Frame (.slicerDisable m e value) (accessPieces.append [.slcs, .pairs]) (((accessRegs.append pairLogRegs).append cfgLogRegs).append [.each SlcCfg.reg, .each SlcCluLoad.reg, .each SlcStat.reg])) ∧
  (∀ e, Frame (.slicerInput e) [.counters, .sys, .out, .mem, .tbl, .tflip, .slcs, .fresh] (alarmRegs.append [.one GlbPhase.reg, .one MemLog0.reg, .one MemLog1.reg, .each SlcStat.reg])) ∧
  (∀ e, Frame (.slicerOutput e) [.counters, .parts, .sys, .tribs, .slcs, .fresh] [.each PerfVtStat.reg]) ∧
  (∀ m e value, Frame (.ncoStage m e value) (accessPieces.append [.slcs, .pairs]) (((accessRegs.append pairLogRegs).append cfgLogRegs).append [.each SlcNcoHi.reg])) ∧
  (∀ m e bank crc, Frame (.coefCommit m e bank crc) (accessPieces.append [.pairs]) (((accessRegs.append pairLogRegs).append cfgLogRegs).append [.each2 SlcCoefCrc.reg, .each SlcStat.reg])) ∧
  (∀ e bank, Frame (.coefCheckDone e bank) [.counters, .sys, .out, .mem, .tbl, .tflip, .fresh] (alarmRegs.append [.one GlbPhase.reg, .one MemLog0.reg, .one MemLog1.reg, .each SlcStat.reg])) ∧
  (∀ m e bank, Frame (.coefBankSelect m e bank) (accessPieces.append [.pairs]) ((accessRegs.append pairLogRegs).append [.each SlcCtl.reg, .each SlcStat.reg]))

/-- What each of these commands of the protection pair leaves unchanged. -/
def pairFrames1 : Prop :=
  (∀ p r, Frame (.prot p r) [.counters, .rings, .cores] [.each HostOps.reg, .each2 HostRingStat.reg]) ∧
  (∀ p r, Frame (.protCmdWrite p r) [.counters, .rings] [.each HostOps.reg, .each2 HostRingStat.reg, .each ProtMrgCfg.reg]) ∧
  (∀ p r, Frame (.protCmdTimeout p r) [.counters, .rings] [.each HostOps.reg, .each2 HostRingStat.reg]) ∧
  Frame .heartbeatSend [.counters, .out, .cas, .pair] [] ∧
  (∀ cascade frame, Frame (.heartbeatRx cascade frame) (eventPieces.append [.tim, .pair, .cores, .fresh]) (alarmRegs.append [.one GlbPhase.reg, .each2 HostRingStat.reg, .one ProtOutCont.reg, .each ProtPairHb.reg, .one ProtPairStat.reg])) ∧
  (∀ cascade, Frame (.heartbeatPathLoss cascade) (eventPieces.append [.pair, .fresh]) (alarmRegs.append [.one GlbPhase.reg, .each2 HostRingStat.reg, .one ProtPairStat.reg])) ∧
  Frame .sameSideExpiry [.sys, .out, .pair] alarmRegs ∧
  Frame .claimVacancy (eventPieces.append [.pair, .fresh]) (alarmRegs.append [.one GlbPhase.reg, .each2 HostRingStat.reg, .one ProtPairStat.reg])

/-- What each of these commands of the protection pair leaves unchanged. -/
def pairFrames2 : Prop :=
  Frame .claimQualified (eventPieces.append [.pair, .fresh]) (alarmRegs.append [.one GlbPhase.reg, .each2 HostRingStat.reg, .one ProtPairStat.reg]) ∧
  Frame .claimProbe [.out, .pair] [.one ProtPairStat.reg] ∧
  (∀ low, Frame (.claimProbeSample low) (eventPieces.append [.pair, .fresh]) (alarmRegs.append [.one GlbPhase.reg, .each2 HostRingStat.reg, .one ProtPairStat.reg])) ∧
  Frame .claimActive (eventPieces.append [.pair, .fresh]) (alarmRegs.append [.one GlbPhase.reg, .each2 HostRingStat.reg, .one ProtPairStat.reg]) ∧
  Frame .claimFault (eventPieces.append [.fresh]) (alarmRegs.append [.one GlbPhase.reg, .each2 HostRingStat.reg, .one ProtPairStat.reg]) ∧
  Frame .enable (eventPieces.append [.fresh]) (alarmRegs.append [.one GlbPhase.reg, .each2 HostRingStat.reg, .one ProtPairCtl.reg, .one ProtPairStat.reg]) ∧
  Frame .disable (eventPieces.append [.pair, .fresh]) (alarmRegs.append [.one GlbPhase.reg, .each2 HostRingStat.reg, .one ProtPairCtl.reg, .one ProtPairStat.reg]) ∧
  Frame .handover (eventPieces.append [.pair, .fresh]) (alarmRegs.append [.one GlbPhase.reg, .each2 HostRingStat.reg, .one ProtPairCtl.reg, .one ProtPairStat.reg])

/-- What each of these commands of the protection pair leaves unchanged. -/
def pairFrames3 : Prop :=
  Frame .claim (eventPieces.append [.pair, .fresh]) (alarmRegs.append [.one GlbPhase.reg, .each2 HostRingStat.reg, .one ProtPairCtl.reg, .one ProtPairStat.reg]) ∧
  Frame .standDown (eventPieces.append [.tim, .pair, .fresh]) (alarmRegs.append [.one GlbPhase.reg, .each2 HostRingStat.reg, .one ProtPairCtl.reg, .one ProtPairStat.reg]) ∧
  Frame .handoverInstant (eventPieces.append [.pair, .fresh]) (alarmRegs.append [.one GlbPhase.reg, .each2 HostRingStat.reg, .one ProtPairStat.reg]) ∧
  Frame .handoverFail (eventPieces.append [.pair, .fresh]) (alarmRegs.append [.one GlbPhase.reg, .each2 HostRingStat.reg, .one ProtPairStat.reg]) ∧
  (∀ o, Frame (.roleOutputEnable o) [.tim] []) ∧
  (∀ o short, Frame (.contentionDetect o short) (eventPieces.append [.tim, .pair, .fresh]) (alarmRegs.append [.one GlbPhase.reg, .each2 HostRingStat.reg, .one MgmtIoFault.reg, .one ProtOutCont.reg, .one ProtPairStat.reg])) ∧
  (∀ high, Frame (.claimWireChange high) (eventPieces.append [.pair, .fresh]) (alarmRegs.append [.one GlbPhase.reg, .each2 HostRingStat.reg, .one ProtPairStat.reg]))

/-- What each of these commands of timing leaves unchanged. -/
def timingFrames1 : Prop :=
  (∀ n, Frame (.refActivityFault n) (eventPieces.append [.tim, .pair, .fresh]) ((alarmRegs.append selectionRegs).append [.one GlbPhase.reg, .each2 HostRingStat.reg, .one ProtPairStat.reg, .each RefselInStat.reg])) ∧
  (∀ n milliPpm, Frame (.ppsEdge n milliPpm) (eventPieces.append [.tim, .pair, .cores, .fresh]) ((alarmRegs.append selectionRegs).append [.one GlbPhase.reg, .each2 HostRingStat.reg, .one ProtPairStat.reg, .each RefselInOff.reg, .each RefselInStat.reg])) ∧
  (∀ n, Frame (.ppsActivityFault n) (eventPieces.append [.tim, .pair, .fresh]) ((alarmRegs.append selectionRegs).append [.one GlbPhase.reg, .each2 HostRingStat.reg, .one ProtPairStat.reg, .each RefselInStat.reg])) ∧
  Frame .hostWatchdogExpiry (eventPieces.append [.tim, .pair, .fresh]) ((alarmRegs.append selectionRegs).append [.one GlbPhase.reg, .each2 HostRingStat.reg, .one ProtPairStat.reg, .each RefselInStat.reg]) ∧
  (∀ n milliPpm, Frame (.freqMonitorMeasure n milliPpm) (eventPieces.append [.tim, .pair, .cores, .fresh]) ((alarmRegs.append selectionRegs).append [.one GlbPhase.reg, .each2 HostRingStat.reg, .one ProtPairStat.reg, .each RefselInOff.reg, .each RefselInStat.reg])) ∧
  (∀ n, Frame (.qualifySoakEnd n) [.tim] [.each RefselInStat.reg]) ∧
  Frame .rankCandidates (eventPieces.append [.tim, .pair, .fresh]) ((alarmRegs.append selectionRegs).append [.one GlbPhase.reg, .each2 HostRingStat.reg, .one ProtPairStat.reg, .each RefselInStat.reg])

/-- What each of these commands of timing leaves unchanged. -/
def timingFrames2 : Prop :=
  Frame .waitToRestoreExpiry (eventPieces.append [.tim, .pair, .fresh]) ((alarmRegs.append selectionRegs).append [.one GlbPhase.reg, .each2 HostRingStat.reg, .one ProtPairStat.reg, .each RefselInStat.reg]) ∧
  (∀ pherr, Frame (.dpllLock pherr) (eventPieces.append [.tim, .pair, .fresh]) ((alarmRegs.append selectionRegs).append [.one GlbPhase.reg, .each2 HostRingStat.reg, .one ProtPairStat.reg])) ∧
  (∀ pherr, Frame (.dpllLockLost pherr) (eventPieces.append [.tim, .pair, .fresh]) ((alarmRegs.append selectionRegs).append [.one GlbPhase.reg, .each2 HostRingStat.reg, .one ProtPairStat.reg])) ∧
  Frame .historySample [.tim, .fresh] [.one RefselHoSigma.reg, .one RefselStat.reg] ∧
  Frame .holdoverUpdate (eventPieces.append [.tim, .pair, .fresh]) ((alarmRegs.append selectionRegs).append [.one GlbPhase.reg, .each2 HostRingStat.reg, .one ProtPairStat.reg, .one RefselHoSigma.reg, .one RefselHoTe.reg, .one RefselHoTime.reg]) ∧
  (∀ m, Frame (.forceFreeRun m) (eventPieces.append [.tim, .pair, .pairs, .casErrs, .digErrs, .fresh]) (((((alarmRegs.append accessRegs).append pairLogRegs).append cfgLogRegs).append selectionRegs).append [.one GlbPhase.reg, .each2 HostRingStat.reg, .one ProtPairStat.reg, .one RefselCfg.reg, .each RefselInStat.reg])) ∧
  (∀ m n, Frame (.forceInput m n) (eventPieces.append [.tim, .pair, .pairs, .casErrs, .digErrs, .fresh]) (((((alarmRegs.append accessRegs).append pairLogRegs).append cfgLogRegs).append selectionRegs).append [.one GlbPhase.reg, .each2 HostRingStat.reg, .one ProtPairStat.reg, .one RefselCfg.reg, .each RefselInStat.reg]))

/-- What each of these commands of timing leaves unchanged. -/
def timingFrames3 : Prop :=
  (∀ m value, Frame (.historyReset m value) (accessPieces.append [.tim, .pairs]) (((accessRegs.append pairLogRegs).append cfgLogRegs).append [.one RefselHist.reg, .one RefselStat.reg])) ∧
  (∀ m hi, Frame (.dcoSet m hi) (eventPieces.append [.tim, .pair, .pairs, .casErrs, .digErrs, .fresh]) (((((alarmRegs.append accessRegs).append pairLogRegs).append cfgLogRegs).append selectionRegs).append [.one GlbPhase.reg, .each2 HostRingStat.reg, .one ProtPairStat.reg, .one RefselDcoWrHi.reg, .each RefselInStat.reg])) ∧
  (∀ m hi, Frame (.dcoAdd m hi) (eventPieces.append [.tim, .pair, .pairs, .casErrs, .digErrs, .fresh]) (((((alarmRegs.append accessRegs).append pairLogRegs).append cfgLogRegs).append selectionRegs).append [.one GlbPhase.reg, .each2 HostRingStat.reg, .one ProtPairStat.reg, .one RefselDcoWrHi.reg, .each RefselInStat.reg])) ∧
  Frame .dcoApply [.counters, .parts, .sys, .rings, .tribs, .tim, .fresh] [.each2 HostRingStat.reg, .each TribLatHi.reg] ∧
  (∀ m o, Frame (.outputEnable m o) (accessPieces.append [.tim, .pairs]) (((accessRegs.append pairLogRegs).append cfgLogRegs).append [.each RefselOutCfg.reg, .each RefselOutStat.reg])) ∧
  (∀ o, Frame (.outputAligned o) [.tim] [.each RefselOutMis.reg, .each RefselOutStat.reg]) ∧
  Frame .todTxMessage [.out, .tim] []

/-- What each of these commands of timing leaves unchanged. -/
def timingFrames4 : Prop :=
  (∀ bytes, Frame (.todRxMessage bytes) (eventPieces.append [.tim, .pair, .fresh]) ((alarmRegs.append selectionRegs).append [.one GlbPhase.reg, .each2 HostRingStat.reg, .one MgmtTodRx0.reg, .one MgmtTodRx1.reg, .one MgmtTodStat.reg, .one ProtPairStat.reg, .each RefselInStat.reg])) ∧
  Frame .todRxStale (eventPieces.append [.tim, .pair, .fresh]) ((alarmRegs.append selectionRegs).append [.one GlbPhase.reg, .each2 HostRingStat.reg, .one MgmtTodStat.reg, .one ProtPairStat.reg, .each RefselInStat.reg]) ∧
  (∀ n, Frame (.activityFaultClear n) (eventPieces.append [.tim, .pair, .fresh]) ((alarmRegs.append selectionRegs).append [.one GlbPhase.reg, .each2 HostRingStat.reg, .one ProtPairStat.reg, .each RefselInStat.reg])) ∧
  Frame .buildOutRemoved [.tim] [.one RefselStat.reg]

/-- What each of these commands of the cascade leaves unchanged. -/
def cascadeFrames1 : Prop :=
  Frame .cascadeCellRx (eventPieces.append [.cas, .tim, .pair, .cores, .cellsIn, .fresh]) (alarmRegs.append [.one GlbPhase.reg, .each2 HostRingStat.reg, .one ProtOutCont.reg, .each ProtPairHb.reg, .one ProtPairStat.reg]) ∧
  Frame .discover [.counters, .cas] [.each CasAgrCtl.reg, .one CasStat.reg] ∧
  Frame .timeDist (eventPieces.append [.cas, .tim, .pair, .fresh]) ((alarmRegs.append selectionRegs).append [.each CasHopStat.reg, .one CasMgr.reg, .one CasStat.reg, .one GlbPhase.reg, .each2 HostRingStat.reg, .one ProtPairStat.reg, .each RefselInStat.reg]) ∧
  Frame .ttStamp (eventPieces.append [.cas, .tim, .pair, .fresh]) ((alarmRegs.append selectionRegs).append [.each2 CasHopAsym.reg, .each CasHopDly.reg, .each CasHopOff.reg, .each CasHopStat.reg, .one CasStat.reg, .one GlbPhase.reg, .each2 HostRingStat.reg, .one ProtPairStat.reg, .each RefselInStat.reg]) ∧
  Frame .report [.cas] [.each2 CasAgrWord.reg] ∧
  (∀ ring, Frame (.propose ring) [.counters, .cas] [.one CasCtl.reg, .one CasPropStat.reg, .one CasStageCtl.reg]) ∧
  Frame .decide [.counters, .cas] [.one CasStageCtl.reg]

/-- What each of these commands of the cascade leaves unchanged. -/
def cascadeFrames2 : Prop :=
  Frame .ring (eventPieces.append [.cas, .tim, .pair, .fresh]) ((alarmRegs.append selectionRegs).append [.each CasHopStat.reg, .one CasStat.reg, .one GlbPhase.reg, .each2 HostRingStat.reg, .one ProtPairStat.reg, .each RefselInStat.reg]) ∧
  Frame .msg [.cas] [] ∧
  Frame .timeDistSend [.counters, .cas] [] ∧
  (∀ port, Frame (.ttStampSend port) [.counters, .cas] []) ∧
  Frame .reportSend [.counters, .cas] [] ∧
  Frame .proposeSend [.counters, .cas] [] ∧
  Frame .commitPoint [.counters, .cas] [.one CasPropStat.reg, .one CasStageCtl.reg]

/-- What each of these commands of the cascade leaves unchanged. -/
def cascadeFrames3 : Prop :=
  Frame .decideSend [.counters, .cas] [] ∧
  Frame .epochActivate [.counters, .rings, .mem] [.one CasEpoch.reg, .one CasPropStat.reg, .one CasStageCtl.reg, .each HostOps.reg, .each2 HostRingStat.reg, .one IntegDigRef.reg, .one IntegDigStat.reg] ∧
  Frame .pairEpochFollow [.counters, .rings, .mem] [.one CasEpoch.reg, .one CasStageCtl.reg, .each HostOps.reg, .each2 HostRingStat.reg, .one IntegDigRef.reg, .one IntegDigStat.reg] ∧
  Frame .enumerate [.counters, .cas] [.one CasCtl.reg] ∧
  Frame .enumTimeout [.cas] [.one CasStat.reg] ∧
  Frame .cancel [.counters, .cas] [.one CasCtl.reg, .one CasPropStat.reg, .one CasStageCtl.reg] ∧
  Frame .adopt [.counters, .rings, .mem] [.one CasCtl.reg, .one CasEpoch.reg, .one CasStageCtl.reg, .each HostOps.reg, .each2 HostRingStat.reg, .one IntegDigRef.reg, .one IntegDigStat.reg]

/-- What each of these commands of the cascade leaves unchanged. -/
def cascadeFrames4 : Prop :=
  Frame .agreementJudge (eventPieces.append [.cas, .fresh]) (alarmRegs.append [.each CasAgrCtl.reg, .each CasAgrDis.reg, .each CasAgrSil.reg, .each2 HostRingStat.reg]) ∧
  (∀ port, Frame (.reachTimeout port) (eventPieces.append [.cas, .tim, .pair, .fresh]) ((alarmRegs.append selectionRegs).append [.each CasHopStat.reg, .one CasStat.reg, .one GlbPhase.reg, .each2 HostRingStat.reg, .one ProtPairStat.reg, .each RefselInStat.reg])) ∧
  Frame .upstreamRevert (eventPieces.append [.cas, .tim, .pair, .fresh]) ((alarmRegs.append selectionRegs).append [.one CasStat.reg, .one GlbPhase.reg, .each2 HostRingStat.reg, .one ProtPairStat.reg, .each RefselInStat.reg]) ∧
  Frame .leadTakeover [.counters, .cas] [.one CasMgr.reg, .one CasStat.reg] ∧
  Frame .timeTransferTimeout (eventPieces.append [.cas, .tim, .pair, .fresh]) ((alarmRegs.append selectionRegs).append [.each CasHopStat.reg, .one GlbPhase.reg, .each2 HostRingStat.reg, .one ProtPairStat.reg, .each RefselInStat.reg]) ∧
  Frame .intactTimeout [.counters, .cas] [.one CasStat.reg]

/-- What each of these commands of cores and semaphores leaves unchanged. -/
def coreFrames : Prop :=
  (∀ p k, Frame (.semAcquireRead p k) [.out, .sems] []) ∧
  (∀ p k value, Frame (.semReleaseWrite p k value) [.cores, .sems] [.each SemRelRes.reg, .each SepStat.reg]) ∧
  (∀ k, Frame (.semaphoreGrant k) [.cores, .sems] [.each SepStat.reg]) ∧
  (∀ c, Frame (.coreEnable c) [.lanes, .groups, .cores] [.each SepCtl.reg, .each SepDpc.reg, .each SepStat.reg]) ∧
  (∀ c, Frame (.coreReset c) (eventPieces.append [.groups, .cores, .sems]) (alarmRegs.append [.each2 HostRingStat.reg, .each PerfVtStat.reg, .each SepCtl.reg, .each SepStat.reg])) ∧
  (∀ c, Frame (.coreTick c) [.cores] []) ∧
  (∀ m c value, Frame (.mboxWrite m c value) (accessPieces.append [.cores, .pairs]) ((accessRegs.append pairLogRegs).append [.each SepMboxIn.reg]))

/-- What each of these commands of power, pace and supply leaves unchanged. -/
def powerFrames1 : Prop :=
  (∀ periods, Frame (.paceWindow periods) [.counters, .parts, .sys, .rings, .tribs, .fresh] [.each2 HostRingStat.reg, .one PerfPaceMax.reg, .one PerfPaceMin.reg, .one PerfPaceNow.reg, .one PerfPaceStat.reg, .each TribLatHi.reg]) ∧
  (∀ unit, Frame (.on unit) [.sys, .mem, .tbl, .tflip] [.each LaneCalStat.reg, .one PwrDomCtl.reg, .each PwrDomOn.reg, .one PwrDomStat.reg, .each SlcStat.reg]) ∧
  (∀ unit, Frame (.sr unit) (eventPieces.append [.tribs, .groups, .mem, .tbl, .tflip, .cores, .sems, .fresh]) (alarmRegs.append [.each2 HostRingStat.reg, .each LaneCalStat.reg, .each PerfVtStat.reg, .one PwrDomCtl.reg, .each PwrDomOn.reg, .one PwrDomStat.reg, .each SepStat.reg, .each SlcStat.reg])) ∧
  (∀ unit, Frame (.unitReady unit) (eventPieces.append [.lanes, .groups, .tim, .pair, .mem, .tbl, .tflip, .cores, .fresh]) ((alarmRegs.append selectionRegs).append [.one GlbPhase.reg, .each GrpStat.reg, .each2 HostRingStat.reg, .each LaneAcq.reg, .each LaneCalStat.reg, .each LaneDef.reg, .each LaneDefIvl.reg, .each LaneKlfStat.reg, .each2 LaneKlfTxoh.reg, .one ProtPairStat.reg, .each PwrDomOn.reg, .each RefselInStat.reg, .each SepDpc.reg, .each SepStat.reg, .each SlcStat.reg])) ∧
  (∀ efficient force, Frame (.paceChange efficient force) [.counters, .parts, .sys, .rings, .tribs, .mem, .fresh] [.one GlbPace.reg, .each2 HostRingStat.reg, .one PwrPaceCtl.reg, .one PwrPaceStat.reg, .each TribLatHi.reg])

/-- What each of these commands of power, pace and supply leaves unchanged. -/
def powerFrames2 : Prop :=
  Frame .paceRampDone [.sys, .tribs, .mem] [.one GlbPace.reg, .one PwrPaceStat.reg] ∧
  (∀ tj, Frame (.thermalAlarm tj) (eventPieces.append [.tribs, .fresh]) (alarmRegs.append [.each2 HostRingStat.reg, .one PwrTherm.reg, .each TribLatHi.reg])) ∧
  Frame .avsRequest [.sys, .out] [.one PwrAvs.reg] ∧
  Frame .avsTimeout [.sys, .out] [.one PwrAvs.reg] ∧
  (∀ ok, Frame (.avsResponse ok) [.sys] [.one PwrAvs.reg])

/-- What each of these commands of host rings leaves unchanged. -/
def hostFrames1 : Prop :=
  (∀ m, Frame (.goSet m) (accessPieces.append [.sys, .pairs]) ((((alarmRegs.append accessRegs).append pairLogRegs).append cfgLogRegs).append [.each HostCtl.reg, .each HostStat.reg])) ∧
  (∀ m, Frame (.goClear m) (accessPieces.append [.sys, .pairs]) ((((alarmRegs.append accessRegs).append pairLogRegs).append cfgLogRegs).append [.each HostCtl.reg, .each HostStat.reg])) ∧
  (∀ m r value, Frame (.ringEnable m r value) (eventPieces.append [.pairs, .casErrs, .digErrs, .fresh]) (((accessRegs.append pairLogRegs).append cfgLogRegs).append [.each HostOps.reg, .each2 HostRingCfg.reg, .each2 HostRingHidx.reg, .each2 HostRingStat.reg])) ∧
  (∀ m r value, Frame (.ringDisable m r value) (accessPieces.append [.rings, .tribs, .mem, .pairs, .fresh]) (((accessRegs.append pairLogRegs).append cfgLogRegs).append [.each HostOps.reg, .each2 HostRingCfg.reg, .each2 HostRingStat.reg, .one MemZeroPend.reg])) ∧
  (∀ p off len value, Frame (.doorbell p off len value) (eventPieces.append [.tribs, .groups, .mem, .tbl, .tflip, .cores, .sems, .casErrs, .digErrs, .fresh]) (((alarmRegs.append accessRegs).append loadRegs).append [.each HostOps.reg, .each2 HostRingHidx.reg, .each2 HostRingStat.reg, .each HostUrgLog.reg, .each LaneCalStat.reg, .each LaneCfg.reg, .one MemZeroPend.reg, .each PerfVtStat.reg, .each PwrDomOn.reg, .each SepStat.reg, .each SlcStat.reg, .each TribCfg.reg, .each TribDef.reg, .each TribLatHi.reg, .each TribStat.reg])) ∧
  (∀ p r, Frame (.descriptorFetch p r) [.out, .reads, .fresh] [.each2 HostRingStat.reg]) ∧
  (∀ tag status data, Frame (.readCompletion tag status data) (eventPieces.append [.tribs, .reads, .quarantine, .fresh]) [.each HostOps.reg, .each2 HostRingStat.reg])

/-- What each of these commands of host rings leaves unchanged. -/
def hostFrames2 : Prop :=
  (∀ tag, Frame (.readTimeout tag) (eventPieces.append [.reads, .quarantine, .fresh]) [.each HostCtoLog.reg, .each HostOps.reg, .each2 HostRingStat.reg]) ∧
  (∀ tag, Frame (.tagQuarantineExpiry tag) [.counters, .quarantine] []) ∧
  (∀ p r, Frame (.ringEntryWrite p r) [.counters, .parts, .rings, .out] [.each HostOps.reg, .each2 HostRingStat.reg]) ∧
  (∀ p r, Frame (.irqHoldoffExpiry p r) [.counters, .parts, .rings, .out] []) ∧
  (∀ p r, Frame (.nop p r) [.counters, .rings] [.each HostOps.reg, .each2 HostRingStat.reg]) ∧
  (∀ p r, Frame (.sendFrame p r) [.counters, .rings, .out, .tim, .reads, .fresh] [.each HostOps.reg, .each2 HostRingStat.reg]) ∧
  (∀ p r, Frame (.frameSent p r) [.counters, .rings, .out] [.each HostOps.reg, .each2 HostRingStat.reg])

/-- What each of these commands of host rings leaves unchanged. -/
def hostFrames3 : Prop :=
  (∀ p r, Frame (.waitEpoch p r) [.counters, .parts, .sys, .rings, .fresh] [.each HostOps.reg, .each2 HostRingStat.reg]) ∧
  (∀ p r, Frame (.stopTrib p r) (eventPieces.append [.tribs, .groups, .mem, .tbl, .tflip, .cores, .sems, .fresh]) ((alarmRegs.append loadRegs).append [.each HostOps.reg, .each2 HostRingStat.reg, .each LaneCalStat.reg, .one MemZeroPend.reg, .each PerfVtStat.reg, .each PwrDomOn.reg, .each SepStat.reg, .each SlcStat.reg, .each TribCfg.reg, .each TribDef.reg, .each TribLatHi.reg, .each TribStat.reg])) ∧
  (∀ p r, Frame (.muteLane p r) [.counters, .rings] [.each HostOps.reg, .each2 HostRingStat.reg, .each LaneCfg.reg]) ∧
  (∀ p r, Frame (.captureHalt p r) [.counters, .rings, .tribs, .fresh] [.each HostOps.reg, .each2 HostRingStat.reg]) ∧
  (∀ p r, Frame (.reservedCommand p r) [.counters, .rings] [.each HostOps.reg, .each2 HostRingStat.reg]) ∧
  (∀ p target, Frame (.urgentStopTrib p target) (eventPieces.append [.tribs, .groups, .mem, .tbl, .tflip, .cores, .sems, .casErrs, .digErrs, .fresh]) (((alarmRegs.append accessRegs).append loadRegs).append [.each HostOps.reg, .each2 HostRingStat.reg, .each HostUrgLog.reg, .each LaneCalStat.reg, .each LaneCfg.reg, .one MemZeroPend.reg, .each PerfVtStat.reg, .each PwrDomOn.reg, .each SepStat.reg, .each SlcStat.reg, .each TribCfg.reg, .each TribDef.reg, .each TribLatHi.reg, .each TribStat.reg])) ∧
  (∀ p target, Frame (.urgentMuteLane p target) (eventPieces.append [.tribs, .groups, .mem, .tbl, .tflip, .cores, .sems, .casErrs, .digErrs, .fresh]) (((alarmRegs.append accessRegs).append loadRegs).append [.each HostOps.reg, .each2 HostRingStat.reg, .each HostUrgLog.reg, .each LaneCalStat.reg, .each LaneCfg.reg, .one MemZeroPend.reg, .each PerfVtStat.reg, .each PwrDomOn.reg, .each SepStat.reg, .each SlcStat.reg, .each TribCfg.reg, .each TribDef.reg, .each TribLatHi.reg, .each TribStat.reg]))

/-- What each of these commands of host rings leaves unchanged. -/
def hostFrames4 : Prop :=
  (∀ p target, Frame (.urgentCaptureHalt p target) (eventPieces.append [.tribs, .groups, .mem, .tbl, .tflip, .cores, .sems, .casErrs, .digErrs, .fresh]) (((alarmRegs.append accessRegs).append loadRegs).append [.each HostOps.reg, .each2 HostRingStat.reg, .each HostUrgLog.reg, .each LaneCalStat.reg, .each LaneCfg.reg, .one MemZeroPend.reg, .each PerfVtStat.reg, .each PwrDomOn.reg, .each SepStat.reg, .each SlcStat.reg, .each TribCfg.reg, .each TribDef.reg, .each TribLatHi.reg, .each TribStat.reg])) ∧
  (∀ p value whole, Frame (.urgentIgnored p value whole) (eventPieces.append [.tribs, .groups, .mem, .tbl, .tflip, .cores, .sems, .casErrs, .digErrs, .fresh]) (((alarmRegs.append accessRegs).append loadRegs).append [.each HostOps.reg, .each2 HostRingStat.reg, .each HostUrgLog.reg, .each LaneCalStat.reg, .each LaneCfg.reg, .one MemZeroPend.reg, .each PerfVtStat.reg, .each PwrDomOn.reg, .each SepStat.reg, .each SlcStat.reg, .each TribCfg.reg, .each TribDef.reg, .each TribLatHi.reg, .each TribStat.reg])) ∧
  (∀ p d3hot, Frame (.busMasterDisable p d3hot) (eventPieces.append [.groups, .mem, .tbl, .tflip, .cores, .sems, .fresh]) (alarmRegs.append [.each2 HostRingStat.reg, .each HostStat.reg, .each LaneCalStat.reg, .each PerfVtStat.reg, .each PwrDomOn.reg, .each SepStat.reg, .each SlcStat.reg])) ∧
  (∀ p d0, Frame (.busMasterEnable p d0) [.counters, .parts, .out, .mem, .tbl, .tflip] [.each HostStat.reg, .each LaneCalStat.reg, .each PwrDomOn.reg, .each SlcStat.reg]) ∧
  (∀ rate width flit, Frame (.linkUp rate width flit) [.sys, .out] (alarmRegs.append [.one HostLink.reg]))

/-- What each of these commands of capture and playback leaves unchanged. -/
def captureFrames : Prop :=
  (∀ t r, Frame (.captureStage t r) (eventPieces.append [.tribs, .fresh]) [.each HostOps.reg, .each2 HostRingStat.reg, .each PerfVtStat.reg]) ∧
  (∀ p r index, Frame (.captureFlushExpiry p r index) [.counters, .rings] [.each HostOps.reg, .each2 HostRingStat.reg]) ∧
  (∀ p r, Frame (.playbackRead p r) [.rings, .out, .reads, .fresh] []) ∧
  (∀ p r, Frame (.playbackRecord p r) [.counters, .rings] [.each HostOps.reg, .each2 HostRingStat.reg])

/-- What each of these commands of boot and resets leaves unchanged. -/
def bootFrames1 : Prop :=
  (∀ p, Frame (.functionLevelReset p) (eventPieces.append [.tribs, .groups, .mem, .tbl, .tflip, .cores, .sems, .wins, .slcs, .reads, .fresh]) [.every]) ∧
  Frame .hotReset [.parts, .sys, .rings, .out, .tribs, .reads] [.every] ∧
  Frame .powerOnResetRelease [.sys, .out, .cores] (alarmRegs.append [.one BootStat.reg, .one CasStat.reg, .one GlbStrap.reg, .one MgmtI2cTgt.reg, .one ProtPairStat.reg, .each SepStat.reg]) ∧
  Frame .perstRelease [.sys, .out, .cores] (alarmRegs.append [.one BootStat.reg, .each PwrDomOn.reg, .each SepStat.reg]) ∧
  (∀ m value, Frame (.hostImageGo m value) (accessPieces.append [.sys, .pairs]) (((accessRegs.append pairLogRegs).append cfgLogRegs).append [.one BootHostImgGo.reg, .one BootStat.reg])) ∧
  (∀ image, Frame (.imageAuthenticate image) [.counters, .sys, .out, .tbl, .tflip, .cores] (alarmRegs.append [.one BootSecver.reg, .one BootStat.reg, .one MemFlipT.reg]))

/-- What each of these commands of boot and resets leaves unchanged. -/
def bootFrames2 : Prop :=
  Frame .bootDone (eventPieces.append [.tribs, .lanes, .groups, .tim, .pair, .mem, .tbl, .tflip, .cores, .sems, .wins, .slcs, .reads, .fresh]) [.every] ∧
  Frame .bootReboot (eventPieces.append [.lanes, .groups, .cores, .sems]) (alarmRegs.append [.one BootCtl.reg, .one BootReboot.reg, .one BootStat.reg, .each2 HostRingStat.reg, .each PerfVtStat.reg, .each SepDpc.reg, .each SepStat.reg]) ∧
  Frame .lastGasp (eventPieces.append [.tribs, .cas, .pair]) (alarmRegs.append [.each HostOps.reg, .each2 HostRingStat.reg, .one ProtPairStat.reg, .one PwrStat.reg]) ∧
  Frame .pwrfailRise [.sys] [.one BootStat.reg] ∧
  (∀ high, Frame (.trstNChange high) [.sys] [.each PwrDomOn.reg])

/-- What each of these commands of memories and the HBM leaves unchanged. -/
def memoryFrames1 : Prop :=
  (∀ cls upset raced, Frame (.scrubRead cls upset raced) (eventPieces.append [.tribs, .mem, .tbl, .tflip, .fresh]) (alarmRegs.append [.one GlbPhase.reg, .each2 HostRingStat.reg, .one MemHbmStat.reg, .one MemLog0.reg, .one MemLog1.reg, .each MemScrubLap.reg, .each TribLatHi.reg])) ∧
  (∀ cls, Frame (.scrubLapOver cls) [.mem] [.one MemScrubStat.reg]) ∧
  (∀ d, Frame (.poisonFillDone d) [.mem] []) ∧
  Frame .dieThresholdInterval (eventPieces.append [.tribs, .mem, .fresh]) (alarmRegs.append [.one GlbPhase.reg, .each2 HostRingStat.reg, .one MemHbmStat.reg, .each TribLatHi.reg]) ∧
  (∀ st die, Frame (.hbmDieFailReport st die) [.counters, .sys, .out, .mem] (alarmRegs.append [.one GlbPhase.reg, .one MemHbmStat.reg]))

/-- What each of these commands of memories and the HBM leaves unchanged. -/
def memoryFrames2 : Prop :=
  (∀ st, Frame (.stackLost st) (eventPieces.append [.tribs, .mem, .fresh]) (alarmRegs.append [.one GlbPhase.reg, .each2 HostRingStat.reg, .one MemHbmStat.reg, .each TribLatHi.reg])) ∧
  (∀ st die, Frame (.markDie st die) [.counters, .sys, .out, .mem] (alarmRegs.append [.one GlbPhase.reg, .one MemHbmCtl.reg, .one MemHbmStat.reg])) ∧
  (∀ st die, Frame (.clearDies st die) [.sys, .out] (alarmRegs.append [.one MemHbmCtl.reg, .one MemHbmStat.reg])) ∧
  (∀ st die, Frame (.restore st die) [.sys, .out, .mem] (alarmRegs.append [.one MemHbmCtl.reg, .one MemHbmStat.reg])) ∧
  (∀ p cls happening, Frame (.memEventWindowEnd p cls happening) [.counters, .parts, .rings, .mem] [.each2 HostRingStat.reg])

/-- What each of these commands of phases, management and telemetry leaves unchanged. -/
def manageFrames1 : Prop :=
  Frame .digestLapEnd (eventPieces.append [.mem, .tbl, .tflip, .fresh]) (alarmRegs.append [.one GlbPhase.reg, .each2 HostRingStat.reg, .one IntegDigLap.reg, .one IntegDigStat.reg, .one IntegDigVal.reg, .one MemLog0.reg, .one MemLog1.reg]) ∧
  (∀ value, Frame (.digestCommit value) [.mem] [.one IntegDigRef.reg, .one IntegDigStat.reg]) ∧
  Frame .dusk [.sys] [.one GlbPhase.reg, .one GlbPhaseCtl.reg] ∧
  Frame .day [.sys] [.one GlbPhase.reg, .one GlbPhaseCtl.reg] ∧
  Frame .night [.sys] [.one GlbPhase.reg, .one GlbPhaseCtl.reg] ∧
  Frame .duskHoldExpiry [] [.one GlbPhase.reg] ∧
  Frame .i2cArbitrationLost [.sys] [.one MgmtI2cStat.reg]

/-- What each of these commands of phases, management and telemetry leaves unchanged. -/
def manageFrames2 : Prop :=
  Frame .i2cStuck [.sys, .out] [.one MgmtI2cStat.reg] ∧
  (∀ value, Frame (.sensorPoll value) [.sys] [.one MgmtI2cStat.reg, .one MgmtSensVal.reg]) ∧
  Frame .ledgerLoad [.sys] [.one BootStat.reg] ∧
  Frame .ledgerWrite [.sys, .out] [] ∧
  (∀ m value, Frame (.perfClear m value) (accessPieces.append [.pairs]) (((accessRegs.append pairLogRegs).append cfgLogRegs).append [.each PerfCtl.reg])) ∧
  (∀ m k value, Frame (.counterEnable m k value) (accessPieces.append [.pairs]) (((accessRegs.append pairLogRegs).append cfgLogRegs).append [.each2 PerfCntCfg.reg])) ∧
  (∀ p r, Frame (.telemetryRecord p r) [.rings] [.each2 HostRingStat.reg])

end Sys2Proof.Machine
end

