-- ==== Sys2Proof/WellFormed.lean ====
section
/-! DEFINITION. The operands that each command admits, where their types admit more. -/

namespace Sys2Proof

/-- A master that writes registers (R462): all but the digest engine, which reads, and the scrubber, which touches class T only. -/
def Master.writes (m : Master) : Bool := decide (m.val < 50)

/-- A range of n bytes of BAR1, not empty. -/
def inBar1 (off n : Nat) : Bool := decide (0 < n ∧ off + n ≤ 2 ^ 26)

/-- A lane that is not a cascade lane. -/
def Lane.plain (n : Lane) : Bool := decide (n.val < 96)

/-- A destination that exists. -/
def Dest.wf : Dest → Bool
  | .klf n => decide (n < 96)
  | .eth n => decide (n < 96)
  | .capture r => decide (r < 64)
  | .cascade n => decide (n < 4)

/-- A JTAG access within BAR1 or the device's cores. -/
def JtagAccess.wf : JtagAccess → Bool
  | .readTable off len => inBar1 off.toNat len
  | .writeTable off data => inBar1 off.toNat data.length
  | _ => true

/-- The operands of a command are those that its rule admits. DESIGN CHOICE: log entry 196. -/
def wellFormed : Instr → Bool
  | .registerWrite m _ len _ => Master.writes m && decide (0 < len)
  | .dPairFirstWrite m _ _ => Master.writes m
  | .dPairTimeout m _ => Master.writes m
  | .tableWrite m off data => (decide (32 ≤ m.val ∧ m.val < 48) || m.val == 49) && inBar1 off.toNat data.length
  | .busPieceGrant _ requests => decide requests.Nodup
  | .jtagAccess a => a.wf
  | .rxBlock _ symbols _ => symbols.length == 33 || symbols.length == 66
  | .releaseRead _ d => d.wf
  | .ethFrameRx port _ _ _ => port.plain
  | .esmcQlTimeout port => port.plain
  | .ethPacketBuild _ port => port.plain
  | .ethAlignmentChange port _ _ _ _ => port.plain
  | .paceWindow periods => !periods.isEmpty
  | .doorbell _ _ len _ => decide (0 < len ∧ len ≤ 8)
  | .illegalOpcode c w => (Machine.sepiaDecode c w).isNone
  | .fifoData c _ _ => Machine.hasFifo c
  | .fifoMark c => Machine.hasFifo c
  | .fifoRewind c => Machine.hasFifo c
  | .fifoRelease c => Machine.hasFifo c
  | .ckStart c fixedUnit => !fixedUnit || Machine.hasFixed c
  | .ckData c fixedUnit bytes => (!fixedUnit || Machine.hasFixed c) && [1, 2, 4].contains bytes.length
  | .ckResultLoad c fixedUnit _ _ => !fixedUnit || Machine.hasFixed c
  | _ => true

end Sys2Proof
end

