-- ==== Sys2Proof/Certificates/Slice0/Obligations.lean ====
section
/-! DEFINITION. The obligations: what the provers are asked to prove of the model, one definition each. A clause `Answers i s P` says that the
command i answers a next state from s, and that P holds of it. -/

open Sys2Proof Sys2Proof.Machine

/-- A step takes the oldest waiting command and is exec of it on the state with the queue's rest. On an empty queue a step is one tick of 6.4 ns,
which is the model's choice (log entry 1): the elapsed ticks and device time advance, and the registers, class T memory, the queue and what was sent
stay. -/
def Obligations.StepTakesFront : Prop :=
  (∀ (c : Instr) (cs : List Instr) (s : State), step { s with pending := c :: cs } = exec c { s with pending := cs }) ∧
  ∀ s : State, s.pending = [] →
    ∃ t, step s = .next t ∧ t.pending = [] ∧ t.ticks = s.ticks + 1 ∧ t.clock = s.clock + 2097152 ∧ t.regs = s.regs ∧ t.tbl = s.tbl ∧
      t.out = s.out

/-- Every command, with every operand and in every state, answers a next state, and the queue behind it is as before. -/
def Obligations.QueueKept : Prop :=
  ∀ (i : Instr) (s : State), ∃ t, exec i s = .next t ∧ t.pending = s.pending

/-- What reset leaves: the queue empty, the state canonical, class T memory unwritten, every register at its table's value, and in each lane,
tributary and window nothing held; core 0 runs and cores 1 to 31 are off, each with x0 to x15 zero, TVEC 0x10, no trap, no sequence, no store
waiting and no event. That the device stands in mode 00 with PERST_N and PWRFAIL_N high, and the states of the cores, are the model's choice (log entries
2 and 9). -/
def Obligations.ResetHolds : Prop :=
  State.reset.canonical ∧ State.reset.pending = [] ∧ State.reset.inReset = false ∧ State.reset.fget GlbStrap.mode = 0 ∧
  State.reset.sys.perstN = true ∧ State.reset.sys.pwrfailN = true ∧
  (∀ k, State.reset.rget k = resetWord k) ∧ (∀ a, State.reset.tstored a = none) ∧
  (∀ n, State.reset.lane n = {}) ∧ (∀ x, State.reset.trib x = {}) ∧ State.reset.wins = [] ∧
  State.reset.coreState 0 = 1 ∧ (∀ c, 0 < c → c < 32 → State.reset.coreState c = 6) ∧
  ∀ c r, State.reset.xreg c r = 0 ∧ (State.reset.core c).tvec = 0x10 ∧ (State.reset.core c).inTrap = false ∧ (State.reset.core c).ie = false ∧
    (State.reset.core c).atom = none ∧ (State.reset.core c).wbuf = [] ∧ (State.reset.core c).evpend = 0

/-- Every step keeps the state canonical: the register file and class T memory hold their entries in rising order of address and none that
an unlisted address reads as, and the counters and the error masks rise. -/
def Obligations.CanonicalKept : Prop :=
  ∀ s t : State, s.canonical → step s = .next t → t.canonical

/-- The encodings of the instruction set (R389 to R391): a word decodes to the instruction it encodes, with every operand at every value, and a
word that decodes is the encoding of what it decodes to. -/
def Obligations.InstructionWords : Prop :=
  (∀ (i : Instr) (w : Word), sepiaEncode i = some w → ∃ c, sepiaDecode c w = some i) ∧
  ∀ (c : CoreN) (w : Word) (i : Instr), sepiaDecode c w = some i → sepiaEncode i = some w

/-- A scrambled payload descrambles to itself, and both ends hold the same history after it (R50); a head check catches every change of
one bit of what it covers (R137); the rate matching of c grain slots places n of n ≤ c grains, at rising places below c (R142). -/
def Obligations.LineCodes : Prop :=
  (∀ (h : BitVec 61) (d : BitVec 64), descramble h (scramble h d).1 = (d, (scramble h d).2)) ∧
  (∀ (p : BitVec 64) (i : Fin 53), headCheck (p ^^^ BitVec.ofNat 64 (2 ^ (8 + i.val))) ≠ headCheck p) ∧
  (∀ c n, n ≤ c → (grainPlaces c n).length = n) ∧
  ∀ c n, (grainPlaces c n).Pairwise (· < ·) ∧ ∀ k ∈ grainPlaces c n, k < c

/-- Of R85 to R88 and R94: an enabled lane that loses its signal shows LOS and LOL and falls to state 0, and one whose signal returns clears LOS and
stands in state 1; the CDR locks to a clock lane in its capture range, and outside it the lane shows LOL and the group clock holds; with clk_auto the clock
moves from a lane with raw LOS to the lowest enabled lane of the group without it, and with no such lane the group clock holds. -/
def Obligations.SignalAndClock : Prop :=
  (∀ (n : Lane) (s : State), s.laneEnabled n = true → s.rawDef n dLos = false →
    Answers (.losDeclare n) s fun t => t.rawDef n dLos = true ∧ t.rawDef n dLol = true ∧ t.acq n = 0) ∧
  (∀ (n : Lane) (s : State), s.laneEnabled n = true → s.rawDef n dLos = true →
    Answers (.losClear n) s fun t => t.rawDef n dLos = false ∧ t.acq n = 1 ∧ (t.lane n).hunt.freqGood = 0) ∧
  (∀ (g : Group) (s : State), s.laneEnabled (s.clockLane g) = true → s.rawDef (s.clockLane g) dLos = false →
    Answers (.cdrAcquire g true) s fun t => t.fbit (GrpStat.clkLocked g) = true ∧ t.fbit (GrpStat.clkHold g) = false) ∧
  (∀ (g : Group) (s : State), s.laneEnabled (s.clockLane g) = true → s.rawDef (s.clockLane g) dLos = false →
    Answers (.cdrAcquire g false) s fun t =>
      t.fbit (GrpStat.clkLocked g) = false ∧ t.fbit (GrpStat.clkHold g) = true ∧ t.rawDef (s.clockLane g) dLol = true) ∧
  (∀ (g : Group) (j : Nat) (s : State), s.fbit (GrpCfg.en g) = true → s.fbit (GrpCfg.clkAuto g) = true →
    s.rawDef (s.clockLane g) dLos = true →
    (List.range 4).find? (fun i => s.laneEnabled (4 * g + i) && !s.rawDef (4 * g + i) dLos) = some j →
    Answers (.clockLaneReselect g) s fun t =>
      t.clockLane g = 4 * g + j ∧ t.fbit (GrpStat.clkLocked g) = false ∧ t.fbit (GrpStat.clkHold g) = true) ∧
  (∀ (g : Group) (s : State), s.fbit (GrpCfg.en g) = true → s.fbit (GrpCfg.clkAuto g) = true →
    (List.range 4).find? (fun i => s.laneEnabled (4 * g + i) && !s.rawDef (4 * g + i) dLos) = none →
    Answers (.clockLaneReselect g) s fun t =>
      t.clockLane g = s.clockLane g ∧ t.fbit (GrpStat.clkLocked g) = false ∧ t.fbit (GrpStat.clkHold g) = true)

/-- Of R89, R91, R93 and R103: a measured offset shows in LANE_FREQ, and on the clock lane the group clock's in GRP_FREQ; one of another lane beyond
lol_ppm raises LOL, and the second in a row within half of it clears LOL, with a KLF lane in block hunt; a fill below 0 or above twice the centre is a slip, which
raises LOL, and any other shows in LANE_DSK_STAT and joins the extremes; the end of an FEC window shows its counts and decides SF and SD by their
thresholds. Of R46, R47, R49, R58, R70 and R96 to R98: the symbols of a received block give its header and payload; in block hunt an invalid header moves the
candidate on and the 256th good block in a row gains block lock, and in lock the 32nd invalid header of 256 blocks loses it; a KLF codeword that waits is
decoded and, of a lane in multiframe lock, hands its 80 blocks to the demapper, and a corrected one of an Ethernet port is counted; the fourth good multiframe
in sequence gains multiframe lock. The oldest received slot leaves the lane's queue, where the ingress boundary holds at most 20 blocks (the model's
choice, log entry 203). Of R115 and R116: a lane of an auto group with signal gets its format; the clock lane also decides the family of the group, KLF with the lane's rate
and FEC, or 200GBASE-R; an unknown rate of the clock lane shows LOL and no format, and detection is due again; when that time has come it starts again. -/
def Obligations.LaneReceive : Prop :=
  (∀ (n : Lane) (x y : Int) (fill : BitVec 9) (s : State), s.laneEnabled n = true → s.rawDef n dLos = false →
    s.isClock n = false → (s.fget (LaneRxCfg.lolPpm n) : Int) * 1000 < x.natAbs →
    Answers (.freqMeasure n ⟨x, y⟩ false fill) s fun t =>
      t.fget (LaneFreq.offset n) = ofSigned 32 x ∧ t.rawDef n dLol = true) ∧
  (∀ (n : Lane) (x y : Int) (fill : BitVec 9) (s : State), s.laneEnabled n = true → s.rawDef n dLos = false → s.rawDef n dLol = true →
    s.isClock n = false → s.acq n < 2 → 2 * (x.natAbs : Int) ≤ (s.fget (LaneRxCfg.lolPpm n) : Int) * 1000 → (s.lane n).slipped = false →
    1 ≤ (s.lane n).hunt.freqGood → (n.val < 96 → s.fbit (GrpStat.clkLocked (n.val / 4)) = true) →
    Answers (.freqMeasure n ⟨x, y⟩ false fill) s fun t =>
      t.rawDef n dLol = false ∧ (s.laneEth n = false → t.acq n = 2 ∧ (t.lane n).hunt.candPos = 0 ∧ (t.lane n).hunt.good = 0)) ∧
  (∀ (n : Lane) (x y : Int) (lost : Bool) (fill : BitVec 9) (s : State), s.laneEnabled n = true → s.rawDef n dLos = false →
    s.isClock n = true →
    Answers (.freqMeasure n ⟨x, y⟩ lost fill) s fun t =>
      t.fget (GrpFreq.offset (n.val / 4)) = ofSigned 32 y ∧ t.fget (LaneFreq.offset n) = ofSigned 32 x) ∧
  (∀ (n : Lane) (fill : Int) (s : State), s.laneEnabled n = true → s.rawDef n dLos = false → s.rawDef n dLol = false → s.fillStill n = false →
    fill < 0 ∨ 2 * (s.fget (LaneDskCfg.centre n) : Int) < fill →
    Answers (.deskewSlip ⟨n, fill⟩) s fun t => t.rawDef n dLol = true ∧ (t.lane n).slipped = true) ∧
  (∀ (n : Lane) (fill : BitVec 9) (s : State), s.laneEnabled n = true → s.rawDef n dLos = false → s.rawDef n dLol = false →
    s.fillStill n = false → fill.toNat ≤ 2 * s.fget (LaneDskCfg.centre n) →
    Answers (.deskewSlip ⟨n, fill.toNat⟩) s fun t =>
      t.fget (LaneDskStat.fill n) = fill.toNat ∧ t.fget (LaneDskStat.fillMin n) = min fill.toNat (s.fget (LaneDskStat.fillMin n)) ∧
      t.fget (LaneDskStat.fillMax n) = max fill.toNat (s.fget (LaneDskStat.fillMax n)) ∧ RegsBut [LaneDskStat.reg n] s t) ∧
  (∀ (n : Lane) (err unc : Nat) (s : State), s.winOver n = some (err, unc) →
    Answers (.fecWindowEnd n) s fun t =>
      t.fget (LaneFecWinCorr.count n) = err % 2 ^ 32 ∧ t.fget (LaneFecWinUnc.count n) = unc % 2 ^ 32 ∧
      t.rawDef n dSf = (if s.fget (LaneSfSet.count n) < err ∨
          ((s.fbit (LaneKlfCfg.rxFec n) = true ∨ s.laneEth n = true) ∧ s.fget (LaneFecCfg.sfUnc n) ≤ unc) then true
        else if err ≤ s.fget (LaneSfClr.count n) ∧ unc = 0 then false else s.rawDef n dSf) ∧
      t.rawDef n dSd = (if s.fget (LaneSdSet.count n) < err then true
        else if err ≤ s.fget (LaneSdClr.count n) then false else s.rawDef n dSd) ∧
      (s.laneEth n = false → t.winOver n = none)) ∧
  (∀ (n : Lane) (symbols : List (Fin 4)) (arrival : Nat) (s : State), s.laneEnabled n = true → s.rawDef n dLos = false →
    s.rawDef n dLol = false → s.acq n = 2 → (lineBlock (s.rxNrz n) (symbols.map Fin.val)).1 = .invalid →
    Answers (.rxBlock n symbols arrival) s fun t =>
      (t.lane n).hunt.good = 0 ∧ (t.lane n).hunt.candPos =
        ((s.lane n).hunt.candPos + 1) % (if s.fget (LaneKlfCfg.rxRate n) = 3 then 66 else 33) ∧ RegsBut [] s t) ∧
  (∀ (n : Lane) (symbols : List (Fin 4)) (arrival : Nat) (s : State), s.laneEnabled n = true → s.rawDef n dLos = false →
    s.rawDef n dLol = false → s.acq n = 2 → (lineBlock (s.rxNrz n) (symbols.map Fin.val)).1 ≠ .invalid → (s.lane n).hunt.good = 255 →
    Answers (.rxBlock n symbols arrival) s fun t => t.acq n = 3 ∧ t.rawDef n dLob = false) ∧
  (∀ (n : Lane) (symbols : List (Fin 4)) (arrival : Nat) (s : State), s.laneEnabled n = true → s.rawDef n dLos = false →
    s.rawDef n dLol = false → 3 ≤ s.acq n → s.acq n ≤ 6 → (lineBlock (s.rxNrz n) (symbols.map Fin.val)).1 = .invalid →
    (s.lane n).hunt.winBad = 31 →
    Answers (.rxBlock n symbols arrival) s fun t =>
      t.acq n = 2 ∧ t.rawDef n dLob = true ∧ t.rawDef n dLoc = true ∧ t.rawDef n dLom = true ∧ (t.lane n).hunt.candPos = 0) ∧
  (∀ (n : Lane) (eth : Option (Fin 16)) (cw : Nat) (bs : List (Hdr × BitVec 64 × Nat)) (tag : Option (Nat × Nat)) (s : State),
    s.laneEth n = false → (s.lane n).rx.ready = some (cw, bs, tag) → bs.length = 82 →
    Answers (.rxCodewordDecode ⟨n, eth⟩) s fun t =>
      (t.lane n).rx.ready = none ∧
      (t.lane n).rx.slots.length = (s.lane n).rx.slots.length + (if tag.isSome then 80 else 0)) ∧
  (∀ (n : Lane) (f : Nat) (k : Fin 16) (s : State), s.laneEth n = true → s.portOf n = some f → s.portCarries f = true →
    s.fbit (LaneEthStat.amLockAll f) = true → k ≠ 0 →
    Answers (.rxCodewordDecode ⟨n, some k⟩) s fun t =>
      t.ctr .lane f 32 = (s.ctr .lane f 32 + 1) % 2 ^ 48 ∧ t.ctr .lane f 34 = (s.ctr .lane f 34 + k) % 2 ^ 48 ∧ t.regs = s.regs) ∧
  (∀ (n : Lane) (arrival : Nat) (oh : List Byte) (s : State), (s.lane n).hunt.ohDone = some oh → s.acq n = 4 → (s.lane n).rx.ready = none →
    (s.lane n).hunt.blk ≠ 81 → byteAt oh 0 = 0xE4 → byteAt oh 1 = 0x1B → crc16 (oh.take 62) = byteAt oh 62 * 256 + byteAt oh 63 →
    (s.lane n).hunt.mfGood = 3 → ofBe ((oh.drop 3).take 4) = (s.lane n).hunt.expect →
    Answers (.rxMultiframeEnd n arrival) s fun t => t.acq n = 5 ∧ t.rawDef n dLom = false ∧ (t.lane n).hunt.ohDone = none) ∧
  (∀ (n : Lane) (b : SlotBlock) (bs : List SlotBlock) (s : State), (s.lane n).rx.slots = b :: bs →
    (s.tribs.map fun e => (e.2.fab.filter fun x => x.lane == some n.val).length).sum ≤ 20 →
    Answers (.demapSlot n) s fun t => (t.lane n).rx.slots = bs) ∧
  (∀ (n : Lane) (rate : SymRate) (r : Nat) (s : State), n.val < 96 → s.laneEnabled n = true → s.fget (GrpCfg.mode (n.val / 4)) = 2 →
    s.rawDef n dLos = false → s.isClock n = true → symRateKlf rate = some r →
    Answers (.formatDetect n rate) s fun t =>
      t.fget (GrpStat.modeAct (n.val / 4)) = 0 ∧ t.fget (LaneAcq.detFmt n) = r + 1 ∧ t.fget (LaneKlfCfg.rxRate n) = r ∧
      t.fbit (LaneKlfCfg.rxFec n) = true) ∧
  (∀ (n : Lane) (s : State), n.val < 96 → s.laneEnabled n = true → s.fget (GrpCfg.mode (n.val / 4)) = 2 → s.rawDef n dLos = false →
    s.isClock n = true →
    Answers (.formatDetect n .b106) s fun t =>
      t.fget (GrpStat.modeAct (n.val / 4)) = 1 ∧ t.fget (LaneAcq.detFmt n) = 5 ∧ t.rawDef n dLob = false) ∧
  (∀ (n : Lane) (s : State), n.val < 96 → s.laneEnabled n = true → s.fget (GrpCfg.mode (n.val / 4)) = 2 → s.rawDef n dLos = false →
    s.isClock n = true →
    Answers (.formatDetect n .other) s fun t =>
      t.fget (GrpStat.modeAct (n.val / 4)) = 2 ∧ t.fget (LaneAcq.detFmt n) = 0 ∧ t.rawDef n dLol = true ∧
      (t.group (n.val / 4)).retryAt = some (s.ticks + ticksOfNs 1000000)) ∧
  (∀ (g : Group) (d : Nat) (s : State), (s.group g).retryAt = some d → d ≤ s.ticks → s.fget (GrpCfg.mode g) = 2 →
    Answers (.formatDetectRetry g) s fun t =>
      (t.group g).retryAt = none ∧ t.fget (LaneAcq.detFmt (s.clockLane g)) = 0 ∧ t.fget (GrpStat.modeAct g) = 2 ∧
      RegsBut [LaneAcq.reg (s.clockLane g), GrpStat.reg g] s t)

/-- Of R82, R109, R111, R112, R114 and R134: a KLF lane enabled in an enabled group shows every lock absent and waits for its first grid
instant; a lane disabled shows no defect, no failure and no BDI; at the grid instant the transmitter runs with sequence 0; at a whole multiple of 100 us a running
core samples its enabled lanes, and the interval of each starts again with the defects now present. Of R82, R87, R489 and R490: a group enabled by a write takes its mode, and its clock is in hold and not locked; one disabled has mode 10. A group reset drops
its lock and puts the clock in hold; while the group's domain is off it does nothing. -/
def Obligations.LaneLife : Prop :=
  (∀ (n : Lane) (s : State), n.val < 96 → s.fbit (LaneCfg.en n) = false → s.fbit (GrpCfg.en (n.val / 4)) = true → s.laneEth n = false →
    Answers (.laneEnable n) s fun t =>
      t.fbit (LaneCfg.en n) = true ∧ t.fget (LaneDef.defs n) = 0x1F ∧ t.acq n = 0 ∧ (t.lane n).tx.startAt.isSome = true) ∧
  (∀ (n : Lane) (s : State), n.val < 96 → s.fbit (LaneCfg.en n) = true → s.fbit (GrpCfg.en (n.val / 4)) = true →
    Answers (.laneDisable n) s fun t =>
      t.fbit (LaneCfg.en n) = false ∧ t.fget (LaneDef.defs n) = 0 ∧ t.fget (LaneFail.fail n) = 0 ∧ t.acq n = 0 ∧
      t.fget ⟨LaneKlfTxoh.reg n 6, 31, 24⟩ = 0 ∧ t.lane n = {}) ∧
  (∀ (n : Lane) (d : Nat) (s : State), (s.lane n).tx.startAt = some d → d ≤ s.now → s.laneEnabled n = true →
    Answers (.framingStart n) s fun t =>
      (t.lane n).tx.running = true ∧ (t.lane n).tx.seq = 0 ∧ (t.lane n).tx.startAt = none ∧ RegsBut [] s t ∧
      (∀ m, m ≠ n.val → t.lane m = s.lane m)) ∧
  (∀ (g : SampleG) (n : Nat) (s : State), s.coreRuns (g + 1) = true → (s.group g).sampledAt < s.sampleNo → n ∈ sampledLanes g →
    s.laneOn n = true →
    Answers (.defectSample g) s fun t => t.fget (LaneDefIvl.ivl n) = s.fget (LaneDef.defs n) % 256) ∧
  (∀ (m : Master) (g : Group) (value : Word) (s s1 : State), PlainWrite s m (GrpCfg.reg g) value.toNat s1 → s.fbit (GrpCfg.en g) = false →
    s1.fbit (GrpCfg.en g) = true →
    Answers (.groupEnable m g value) s fun t =>
      t.fget (GrpStat.modeAct g) = s1.fget (GrpCfg.mode g) ∧ t.fbit (GrpStat.clkHold g) = true ∧ t.fbit (GrpStat.clkLocked g) = false) ∧
  (∀ (m : Master) (g : Group) (value : Word) (s s1 : State), PlainWrite s m (GrpCfg.reg g) value.toNat s1 → s.fbit (GrpCfg.en g) = true →
    s1.fbit (GrpCfg.en g) = false →
    Answers (.groupEnable m g value) s fun t =>
      t.fget (GrpStat.modeAct g) = 2 ∧ t.fbit (GrpStat.clkHold g) = false ∧ t.fbit (GrpStat.clkLocked g) = false) ∧
  (∀ (g : Group) (s : State), s.domOn (77 + g) = true → s.fbit (GrpCfg.en g) = true →
    Answers (.laneGroupReset g) s fun t => t.fbit (GrpStat.clkLocked g) = false ∧ t.fbit (GrpStat.clkHold g) = true) ∧
  (∀ (g : Group) (s : State), s.domOn (77 + g) = false → Answers (.laneGroupReset g) s fun t => t = s)

/-- Of R73, R135 and R483: a multiframe starts at its grid instant with slot 0, the next sequence and the time of its grid; in stand-alone mode a KLF lane
repeats the oldest multiframe of its store instead. Each slot sent moves the lane to the next. Of R33, R36, R196 and R203: the oldest grain at the fabric leaves it, to the release buffer of an admitted tributary and to no other; the oldest there is
written where the tributary is deep or nothing of higher priority waits for its bank; the grain due for a destination with room is read and waits for its egress;
the deep unit that is due for prefetch leaves HBM where nothing of higher priority waits for its banks. That the waits take no time of their own and
the bank of a block is open are the model's choice (log entry 204). -/
def Obligations.TransmitAndRelease : Prop :=
  (∀ (n : Lane) (s : State), (s.lane n).tx.running = true → 5120 ≤ (s.lane n).tx.slot → (s.lane n).tx.mfEnd ≤ s.now →
    s.laneEnabled n = true → (n.val < 96 → s.fget GlbStrap.mode ≠ 1) →
    Answers (.txMultiframeStart n) s fun t =>
      (t.lane n).tx.slot = 0 ∧ (t.lane n).tx.seq = ((s.lane n).tx.seq + 1) % 2 ^ 32 ∧
      (t.lane n).tx.mfTime = gridTime (s.fget (LaneKlfCfg.txRate n)) (s.lane n).tx.grid ∧ (t.lane n).tx.cw = []) ∧
  (∀ (n : Lane) (oh : List Byte) (bs : List SlotBlock) (q : List (List Byte × List SlotBlock)) (s : State), (s.lane n).tx.running = true →
    5120 ≤ (s.lane n).tx.slot → (s.lane n).tx.mfEnd ≤ s.now → s.laneEnabled n = true → n.val < 96 → s.fget GlbStrap.mode = 1 →
    (s.lane n).tx.regenQ = (oh, bs) :: q →
    Answers (.txMultiframeStart n) s fun t =>
      (t.lane n).tx.slot = 0 ∧ (t.lane n).tx.regenCur = bs ∧ (t.lane n).tx.regenQ = q ∧ t.regs = s.regs) ∧
  (∀ (n : Lane) (s : State), (s.lane n).tx.running = true → (s.lane n).tx.slot < 5120 → s.laneEnabled n = true →
    Answers (.txSlot n) s fun t => (t.lane n).tx.slot = (s.lane n).tx.slot + 1 ∧ t.tbl = s.tbl) ∧
  (∀ (x : TribN) (g : InGrain) (gs : List InGrain) (s : State), (s.trib x).fab = g :: gs →
    Answers (.fabricDeliver x) s fun t =>
      (t.trib x).fab = gs ∧ (t.trib x).wq = (s.trib x).wq ++ (if (s.trib x).adm.isSome then [g] else [])) ∧
  (∀ (x : TribN) (g : InGrain) (gs : List InGrain) (s : State), (s.trib x).wq = g :: gs →
    (∀ a, (s.trib x).adm = some a → a.deep = none →
      s.bankBusy (if s.fget (TribCfg.src x) = 2 then 4 else 2) (s.placeLoc x a g.copy (g.instant + s.budgetOf x a g.instant) g.idx) = false) →
    Answers (.releaseBufferWrite x) s fun t => (t.trib x).wq = gs ∧ (t.trib x).fab = (s.trib x).fab) ∧
  (∀ (x : TribN) (d : Dest) (a : Adm) (e : DestSt) (r0 rel readAt : Nat) (s s0 : State), (s.trib x).adm = some a →
    a.dests.find? (fun e => e.dest = d) = some e → s.nextRead x e = some (r0, rel, some readAt, s0) → readAt ≤ s.now → s0.inGap x rel = false →
    (s0.egressFull d).1 = false →
    (match d with | .cascade n => s.casQueueFull (n / 2) | .capture r => s.stagingFull x r rel e.nextGrain | _ => false) = false →
    Answers (.releaseRead x d) s fun t =>
      (t.trib x).egress.map (fun g => (g.dest, g.rel, g.idx)) =
        (s.trib x).egress.map (fun g => (g.dest, g.rel, g.idx)) ++ [(d, rel, e.nextGrain)]) ∧
  (∀ (x : TribN) (st rel : Nat) (s : State), s.prefetchDue x = some (st, rel) → (s.stagingLocs x rel).any (s.bankBusy 3) = false →
    Answers (.deepPrefetch x) s fun t =>
      rel < (t.trib x).prefTo ∧ ∀ g ∈ (t.trib x).held, g.late = 0 → s.takesPoint x rel g.rel = true → g.inHbm = false)

/-- Of R126, R127, R149, R163 and R191: a tributary is enabled where its configuration, with the template it uses, has no error, and else stays disabled; its
status names the error in either case. One that is disabled has no admission, no grain and no defect. 1 ms after it opened, the window of a tributary's
defects closes, with one event of kind 2 that holds them and their count. That a tributary which no Ethernet port feeds uses its template only where
hdr_len gives it one is the model's choice (log entry 213). Of R153 to R155 and R161: a commit of a bank not in use clears its committed bit and starts its check, and one of a bank in use ends with result 2; a
check that ends shows its result and slot, and sets the committed bit with result 0 only; rx_bank written with follow = 0 waits for the next multiframe, and
with follow = 1 it is only stored. -/
def Obligations.TributariesAndCalendars : Prop :=
  (∀ (x : TribN) (s : State), s.fbit (TribCfg.en x) = false → s.fget (TribCfg.src x) ≠ 1 → s.fget (TribEthCfg.hdrLen x) = 0 →
    Answers (.tribEnable x) s fun t =>
      t.fbit (TribCfg.en x) = (s.tribCfgErr x none == 0) ∧ t.fget (TribStat.cfgErr x) = s.tribCfgErr x none ∧
      RegsBut [TribCfg.reg x, TribStat.reg x] s t) ∧
  (∀ (x : TribN) (v : Option Nat) (s s1 : State), s.fbit (TribCfg.en x) = false →
    s.fget (TribCfg.src x) = 1 ∨ s.fget (TribEthCfg.hdrLen x) ≠ 0 →
    s.treadN (s.tribOwner x) (tmplBase x) (s.fget (TribEthCfg.hdrLen x)) (s.tribLocal x) 7 = (v, s1) →
    Answers (.tribEnable x) s fun t =>
      t.fget (TribStat.cfgErr x) = s1.tribCfgErr x (v.map (leBytes (s.fget (TribEthCfg.hdrLen x)))) ∧
      t.fbit (TribCfg.en x) = (s1.tribCfgErr x (v.map (leBytes (s.fget (TribEthCfg.hdrLen x)))) == 0) ∧
      RegsBut [TribCfg.reg x, TribStat.reg x] s1 t) ∧
  (∀ (x : TribN) (s : State), s.fbit (TribCfg.en x) = true →
    Answers (.tribDisable x) s fun t =>
      t.fbit (TribCfg.en x) = false ∧ (t.trib x).adm = none ∧ (t.trib x).pend = none ∧ (t.trib x).fab = [] ∧ (t.trib x).wq = [] ∧
      (t.trib x).held = [] ∧ (t.trib x).egress = [] ∧ t.fget (TribDef.defs x) = 0) ∧
  (∀ (x : TribN) (st bits k : Nat) (s : State), (s.trib x).defWin = some (st, bits, k) → st + tMs ≤ s.now →
    Answers (.tribDefWindowEnd x) s fun t =>
      (t.trib x).defWin = none ∧ Reported s t (s.tribOwner x) 2 (s.tribLocal x) (bits + min 65535 k * 2 ^ 16) 0) ∧
  (∀ (m : Master) (n : Lane) (d b : Bool) (crc : Word) (s s1 : State), PlainWrite s m (LaneCalCrc.reg n (2 * d.toNat + b.toNat)) crc.toNat s1 →
    s1.calBusy n d.toNat b.toNat = false →
    Answers (.calCommit m n d b crc) s fun t =>
      (t.fget (LaneCalStat.checking n)).testBit (2 * d.toNat + b.toNat) = true ∧
      (t.fget (LaneCalStat.committed n)).testBit (2 * d.toNat + b.toNat) = false ∧ RegsBut [LaneCalStat.reg n] s1 t) ∧
  (∀ (m : Master) (n : Lane) (d b : Bool) (crc : Word) (s s1 : State), PlainWrite s m (LaneCalCrc.reg n (2 * d.toNat + b.toNat)) crc.toNat s1 →
    s1.calBusy n d.toNat b.toNat = true →
    Answers (.calCommit m n d b crc) s fun t =>
      t.fget (LaneCalStat.result n) = 2 ∧ t.fget (LaneCalStat.committed n) = s1.fget (LaneCalStat.committed n) ∧
      RegsBut [LaneCalStat.reg n] s1 t) ∧
  (∀ (n : Lane) (d b : Bool) (res slot : Nat) (s s1 : State), (s.fget (LaneCalStat.checking n)).testBit (2 * d.toNat + b.toNat) = true →
    s.checkBank n d.toNat b.toNat = ((res, slot), s1) →
    Answers (.calCheckDone n d b) s fun t =>
      (t.fget (LaneCalStat.checking n)).testBit (2 * d.toNat + b.toNat) = false ∧
      t.fget (LaneCalStat.result n) = res % 2 ^ 4 ∧ t.fget (LaneCalStat.slot n) = slot % 2 ^ 13 ∧
      (t.fget (LaneCalStat.committed n)).testBit (2 * d.toNat + b.toNat) =
        (res == 0 || (s1.fget (LaneCalStat.committed n)).testBit (2 * d.toNat + b.toNat))) ∧
  (∀ (m : Master) (n : Lane) (b : Bool) (s s1 : State), PlainWrite s m (LaneCalRxCtl.reg n) ((s.rget (LaneCalRxCtl.reg n)).toNat % 2 + 2 * b.toNat) s1 →
    Answers (.rxBankSelect m n b) s fun t =>
      t.regs = s1.regs ∧ t.fget (LaneCalRxCtl.rxBank n) = b.toNat ∧
      (t.lane n).rx.bankWrite = (if s1.fbit (LaneCalRxCtl.follow n) then (s1.lane n).rx.bankWrite else some b.toNat))

/-- Of R188, R191 and R437: a well-formed ADMIT completes, with every target's admission decided, or with none and no tributary changed; a well-formed WITHDRAW
completes and schedules the withdrawal of each admitted target. A decided admission whose time has come and whose regions are zeroed takes
effect, and a withdrawal whose time has come ends the admission with every grain of it. A region leaves the list once its zeroing ends, and its pages are counted. -/
def Obligations.Admission : Prop :=
  (∀ (p : Part) (r : RingN) (d : List Byte) (ts : List Nat) (res fd small : Nat) (s s1 : State), s.headCmd p r (· == 1) = some d →
    badAdmit d = false → s.admTarget p d = some ts →
    s.evalRequest p (timeOf (leAt d 8 12)) ((leAt d 4 2).testBit 15) ((destList d).map Prod.snd) ts = (res, fd, small, s1) →
    Answers (.admitTrib p r) s fun t =>
      (t.ring p r).descs = (s.ring p r).descs.tail ∧ (res = 0 → ∀ x ∈ ts, (t.trib x).pend.isSome = true) ∧
      (res ≠ 0 → t.tribs = s.tribs)) ∧
  (∀ (p : Part) (r : RingN) (d : List Byte) (ts : List Nat) (s : State), s.headCmd p r (· == 2) = some d → badFlags d = false →
    badTarget d = false → leAt d 6 2 = 0 → malformed (leAt d 8 12) = false → usedFrom d 20 = false → s.admTarget p d = some ts →
    Answers (.withdraw p r) s fun t =>
      Completed s t p r d 0 0 [] [] ∧
      ∀ x ∈ ts, (s.trib x).adm.isSome = true ∨ (s.trib x).pend.isSome = true →
        (t.trib x).withdrawAt = some (timeOf (leAt d 8 12))) ∧
  (∀ (x : TribN) (a : Adm) (s : State), (s.trib x).pend = some a → a.actTime ≤ s.now →
    (a.waits.any fun q => s.mem.zero.any fun j => j.seq == q) = false → a.voidRow = 0 →
    Answers (.admissionTakesEffect x) s fun t =>
      (t.trib x).pend = none ∧ (t.trib x).adm.map Adm.l = some a.l ∧ (t.trib x).grid = none ∧
      t.fbit (TribLatHi.admitted x) = true ∧ t.fbit (TribLatHi.void x) = false) ∧
  (∀ (x : TribN) (d : Nat) (s : State), (s.trib x).withdrawAt = some d → d ≤ s.now →
    Answers (.withdrawTakesEffect x) s fun t =>
      (t.trib x).adm = none ∧ (t.trib x).pend = none ∧ (t.trib x).wq = [] ∧ (t.trib x).held = [] ∧ (t.trib x).egress = [] ∧
      (t.trib x).withdrawAt = none ∧ t.fbit (TribLatHi.admitted x) = false) ∧
  (∀ (seq : Nat) (j : ZeroJob) (s : State), s.mem.zero.find? (fun j => j.seq == seq) = some j → j.endAt ≤ s.now →
    Answers (.zeroingDone seq) s fun t =>
      (t.mem.zero = s.mem.zero.filter fun j => j.seq != seq) ∧ t.ctr .mem 0 10 = (s.ctr .mem 0 10 + j.pages) % 2 ^ 48)

/-- Of R7, R118 to R121, R163, R164 and R278: a port that is enabled, with no LOS or LOL on a lane, counts a whole frame within its limits as good, one with a
wrong check sequence as bad, one of another length as such, and a pause frame as such. A port that no information PDU has reached fails the level of its
one monitor. The packet of a tributary that is due at an enabled port, ahead of every other there, leaves with its check sequence and takes its grains and the
next packet number. The alignment and fault bits of an enabled port follow what it meets, and its defects follow them. -/
def Obligations.EthernetPort : Prop :=
  (∀ (port : Lane) (f : List Byte) (arrival : Nat) (s : State), s.portCarries port = true → 64 ≤ f.length →
    f.length ≤ s.fget (LaneEthCfg.maxFrame port) → fcs (f.take (f.length - 4)) = ofLe (f.drop (f.length - 4)) →
    beAt (f.take (f.length - 4)) 12 2 ≠ 0x8808 →
    Answers (.ethFrameRx port f arrival false) s fun t => t.ctr .lane port 35 = (s.ctr .lane port 35 + 1) % 2 ^ 48) ∧
  (∀ (port : Lane) (f : List Byte) (arrival : Nat) (fecBad : Bool) (s : State), s.portCarries port = true →
    fecBad = true ∨ fcs (f.take (f.length - 4)) ≠ ofLe (f.drop (f.length - 4)) →
    Answers (.ethFrameRx port f arrival fecBad) s fun t => t.ctr .lane port 36 = (s.ctr .lane port 36 + 1) % 2 ^ 48 ∧ RegsBut [] s t) ∧
  (∀ (port : Lane) (f : List Byte) (arrival : Nat) (s : State), s.portCarries port = true → 4 ≤ f.length →
    fcs (f.take (f.length - 4)) = ofLe (f.drop (f.length - 4)) → f.length < 64 ∨ s.fget (LaneEthCfg.maxFrame port) < f.length →
    Answers (.ethFrameRx port f arrival false) s fun t => t.ctr .lane port 37 = (s.ctr .lane port 37 + 1) % 2 ^ 48 ∧ RegsBut [] s t) ∧
  (∀ (port : Lane) (f : List Byte) (arrival : Nat) (s : State), s.portCarries port = true → 64 ≤ f.length →
    f.length ≤ s.fget (LaneEthCfg.maxFrame port) → fcs (f.take (f.length - 4)) = ofLe (f.drop (f.length - 4)) →
    beAt (f.take (f.length - 4)) 12 2 = 0x8808 →
    Answers (.ethFrameRx port f arrival false) s fun t => t.ctr .lane port 38 = (s.ctr .lane port 38 + 1) % 2 ^ 48 ∧ RegsBut [] s t) ∧
  (∀ (port : Lane) (n : Nat) (s : State), SMap.find s.tim.esmc port = none → s.esmcMonitors port = [n] → n < 16 →
    Answers (.esmcQlTimeout port) s fun t => t.fbit (RefselInStat.qlFail n) = true) ∧
  (∀ (x : TribN) (port : Lane) (gs : List EgGrain) (k v : Nat) (h : VrtHead) (s s1 s2 : State), s.duePacket x port = some (gs, k) →
    s.packetBefore x port gs = false → s.portEnabled port = true →
    s1 = s.setTrib x { s.trib x with egress := ((s.trib x).egress.filter fun e => e.dest != .eth port) ++
        (((s.trib x).egress.filter fun e => e.dest = .eth port).drop gs.length) } →
    s1.treadN (s1.tribOwner x) (tmplBase x) (s.fget (TribEthCfg.hdrLen x)) x 7 = (some v, s2) →
    parseTemplate (leBytes (s.fget (TribEthCfg.hdrLen x)) v) = some h →
    Answers (.ethPacketBuild x port) s fun t =>
      (t.trib x).packetNo = (s.trib x).packetNo + 1 ∧ (t.trib x).egress = (s1.trib x).egress ∧
      ∃ f, t.out.head? = some (.frame port (f ++ leBytes 4 (fcs f)) s.now) ∧ 60 ≤ f.length) ∧
  (∀ (port : Lane) (am aligned lf rf : Bool) (s : State), s.portEnabled port = true →
    Answers (.ethAlignmentChange port am aligned lf rf) s fun t =>
      t.fbit (LaneEthStat.lf port) = lf ∧ t.fbit (LaneEthStat.rf port) = rf ∧ t.fbit (LaneEthStat.alignStatus port) = aligned ∧
      t.fbit (LaneEthStat.amLockAll port) = am ∧ t.rawDef port dLob = false ∧ t.rawDef port dLoc = !am ∧
      t.rawDef port dLom = (!aligned || lf) ∧ t.rawDef port dRdi = rf)

/-- Of R301 and R354 to R358: a well-formed command at the head of its ring: NOP completes with status 0; SEND_FRAME of a port of its partition reads its frame
first, and the frame then leaves padded and with its check sequence; WAIT_EPOCH waits for the next epoch and completes at once, with result 1, where its
epoch is in force; STOP_TRIB disables its tributary, MUTE_LANE idles its lane and CAPTURE_HALT stops its ring, each of its partition, and the
command leaves its ring; a reserved op completes with status 1. -/
def Obligations.RingCommands : Prop :=
  (∀ (p : Part) (r : RingN) (d : List Byte) (s : State), s.headCmd p r (· == 0) = some d → badFlags d = false → usedFrom d 4 = false →
    Answers (.nop p r) s fun t => Completed s t p r d 0 0 [] []) ∧
  (∀ (p : Part) (r : RingN) (d : List Byte) (lost : Nat) (s s1 : State), s.headCmd p r (· == 4) = some d → s.feature p 5 = true →
    badFlags d = false → leAt d 4 4 = 0 → usedFrom d 19 = false → 60 ≤ leAt d 16 2 → leAt d 16 2 ≤ 1514 → leAt d 18 1 < 96 →
    s.laneOwner (leAt d 18 1) = p → (s.portLanes (leAt d 18 1)).isSome = true → s.frameLimit (leAt d 18 1) 1 = (true, lost, s1) →
    s.reads.length < 56 → s.freeTags false ≠ [] →
    Answers (.sendFrame p r) s fun t => (t.ring p r).headBusy = true ∧ ∃ x : HostRd, t.reads = s.reads ++ [x] ∧ x.part = p.val ∧ x.ring = r.val ∧
      x.kind = 2 ∧ x.addr = leAt d 8 8 ∧ x.len = leAt d 16 2 ∧ x.tag ∈ s.freeTags false) ∧
  (∀ (p : Part) (r : RingN) (bs d : List Byte) (i : Nat) (ds : List (Nat × List Byte)) (s : State), (s.ring p r).frame = some bs →
    (s.ring p r).descs = (i, d) :: ds → (s.ring p r).headBusy = true →
    Answers (.frameSent p r) s fun t =>
      (t.ring p r).descs = ds ∧ (t.ring p r).headBusy = false ∧ (t.ring p r).frame = none ∧
      t.out = .frame (leAt d 18 1) (bs ++ List.replicate (60 - bs.length) 0 ++ leBytes 4 (fcs (bs ++ List.replicate (60 - bs.length) 0)))
        s.now :: s.out) ∧
  (∀ (p : Part) (r : RingN) (d : List Byte) (s : State), s.headCmd p r (· == 5) = some d → s.feature p 4 = true → badFlags d = false →
    usedFrom d 8 = false →
    Answers (.waitEpoch p r) s fun t =>
      (leAt d 4 4 = (s.fget CasEpoch.epoch + 1) % 2 ^ 32 → t.ring p r = { s.ring p r with headBusy := true }) ∧
      (leAt d 4 4 = s.fget CasEpoch.epoch → Completed s t p r d 0 1 [] [])) ∧
  (∀ (p : Part) (r : RingN) (d : List Byte) (x : Nat) (s : State), s.headCmd p r (· == 6) = some d → badFlags d = false →
    usedFrom d 6 = false → leAt d 4 2 < 4096 → s.tribDevice p (leAt d 4 2) = some x → s.fbit (TribCfg.en x) = true →
    Answers (.stopTrib p r) s fun t =>
      t.fbit (TribCfg.en x) = false ∧ (t.trib x).adm = none ∧ (t.ring p r).descs = (s.ring p r).descs.tail) ∧
  (∀ (p : Part) (r : RingN) (d : List Byte) (s : State), s.headCmd p r (· == 7) = some d → badFlags d = false → usedFrom d 6 = false →
    leAt d 4 2 < 96 → s.laneOwner (leAt d 4 2) = p →
    Answers (.muteLane p r) s fun t => t.fbit (LaneCfg.txIdle (leAt d 4 2)) = true ∧ Completed s t p r d 0 0 [] []) ∧
  (∀ (p : Part) (r : RingN) (d : List Byte) (s : State), s.headCmd p r (· == 8) = some d → badFlags d = false → usedFrom d 6 = false →
    leAt d 4 2 < 64 → s.ringIs p (leAt d 4 2) 2 = true →
    Answers (.captureHalt p r) s fun t => t.fbit (HostRingStat.stopped p (leAt d 4 2)) = true ∧ (t.ring p (leAt d 4 2)).halted = true ∧
      (t.ring p r).descs = (s.ring p r).descs.tail) ∧
  (∀ (p : Part) (r : RingN) (d : List Byte) (s : State), s.headCmd p r (fun op => decide (8 < op)) = some d →
    Answers (.reservedCommand p r) s fun t => Completed s t p r d 1 0 [] [])

/-- Of R358 and R359: an urgent command of a partition with the feature and a target of its own acts (a tributary is disabled, a lane idles, a capture ring stops)
and is shown in HOST_URG_LOG with result 0, its op and, of a tributary, its target; a write with another result changes no tributary and is shown with that
result, and as a bus error. Of R249 and R250: a PROT command of a partition with the feature and with targets is under way until core 28 writes it for its targets, which completes it with
the write's result, or 10 ms have passed, when it completes with result 4; a malformed one completes with status 1, one without the feature with 3, one without targets with 2. -/
def Obligations.UrgentAndProtection : Prop :=
  (∀ (p : Part) (tg : BitVec 12) (x : Nat) (s : State), s.feature p 3 = true → s.tribDevice p tg.toNat = some x →
    s.fbit (TribCfg.en x) = true →
    Answers (.urgentStopTrib p tg) s fun t =>
      t.fbit (TribCfg.en x) = false ∧ t.fbit (HostUrgLog.valid p) = true ∧ t.fget (HostUrgLog.result p) = 0 ∧
      t.fget (HostUrgLog.target p) = tg.toNat ∧ t.fget (HostUrgLog.op p) = 1) ∧
  (∀ (p : Part) (tg : BitVec 12) (s : State), s.feature p 3 = true → tg.toNat < 96 → s.laneOwner tg.toNat = p →
    Answers (.urgentMuteLane p tg) s fun t =>
      t.fbit (LaneCfg.txIdle tg.toNat) = true ∧ t.fget (HostUrgLog.result p) = 0 ∧ t.fget (HostUrgLog.op p) = 2) ∧
  (∀ (p : Part) (tg : BitVec 12) (s : State), s.feature p 3 = true → tg.toNat < 64 → s.ringIs p tg.toNat 2 = true →
    Answers (.urgentCaptureHalt p tg) s fun t =>
      t.fbit (HostRingStat.stopped p tg.toNat) = true ∧ t.fget (HostUrgLog.result p) = 0 ∧ t.fget (HostUrgLog.op p) = 3) ∧
  (∀ (p : Part) (w : BitVec 64) (whole : Bool) (s : State), s.urgentResult p w.toNat whole ≠ 0 →
    Answers (.urgentIgnored p w whole) s fun t =>
      t.fget (HostUrgLog.result p) = s.urgentResult p w.toNat whole ∧ t.fbit (HostUrgLog.valid p) = true ∧ t.tribs = s.tribs ∧
      t.fbit (IntegBuserr0.valid p) = true) ∧
  (∀ (p : Part) (r : RingN) (d : List Byte) (s : State), s.headCmd p r (· == 3) = some d → badProt d = false → s.feature p 7 = true →
    (s.protTargets p d).isSome = true →
    Answers (.prot p r) s fun t => t.ring p r = { s.ring p r with headBusy := true } ∧ t.regs = s.regs) ∧
  (∀ (p : Part) (r : RingN) (d : List Byte) (s : State), s.headCmd p r (· == 3) = some d →
    badProt d = true ∨ s.feature p 7 = false ∨ (s.protTargets p d).isSome = false →
    Answers (.prot p r) s fun t => Completed s t p r d (if badProt d then 1 else if s.feature p 7 then 2 else 3) 0 [] []) ∧
  (∀ (p : Part) (r : RingN) (d : List Byte) (x res : Nat) (s s1 : State), s.protUnderWay p r = some d → s.coreRuns 28 = true →
    s.now < (s.ring p r).headSince + 10 * tMs → s.protTargets p d = some [x] → x < 4096 → s.protOne (leAt d 4 1) x = (res, s1) →
    Answers (.protCmdWrite p r) s fun t =>
      Completed s t p r d 0 res [] [] ∧ t.fget (ProtMrgCfg.cmd x) = s1.fget (ProtMrgCfg.cmd x)) ∧
  (∀ (p : Part) (r : RingN) (d : List Byte) (s : State), s.protUnderWay p r = some d → (s.ring p r).headSince + 10 * tMs ≤ s.now →
    Answers (.protCmdTimeout p r) s fun t => Completed s t p r d 0 4 [] [] ∧ (t.ring p r).headBusy = false)

/-- Of R346, R347, R350, R352, R371 and R372: a doorbell write that keeps within its ring sets host_idx; the next descriptor of a host-producer ring
with none in flight is read with a free tag; one that arrives in order waits at the end of its command or capture ring, and the read is over; a
read that no completion met in time is logged and its tag quarantined, and a quarantine ends at its time. Which free tag a read takes is open (log entry 74). -/
def Obligations.DescriptorReads : Prop :=
  (∀ (p : Part) (r : RingN) (len v : Nat) (value : BitVec 64) (s : State), s.fbit (HostRingCfg.en p r) = true → len = 4 ∨ len = 8 →
    v = value.toNat % 65536 →
    (if deviceProducer (s.fget (HostRingCfg.typ p r)) then (s.fget (HostRingStat.devIdx p r) + 65536 - v) % 65536
      else (v + 65536 - s.fget (HostRingStat.devIdx p r)) % 65536) ≤ s.ringSize p r →
    Answers (.doorbell p (BitVec.ofNat 16 (8 * r.val)) len value) s fun t =>
      t.fget (HostRingHidx.hostIdx p r) = v ∧ RegsBut [HostRingHidx.reg p r] s t) ∧
  (∀ (p : Part) (r : RingN) (s : State), s.fbit (HostRingCfg.en p r) = true → deviceProducer (s.fget (HostRingCfg.typ p r)) = false →
    s.fbit (HostRingStat.stopped p r) = false → s.dmaOn p = true → s.fetching p r = 0 → (s.ring p r).early = [] →
    s.fget (HostRingHidx.hostIdx p r) ≠ s.fget (HostRingStat.devIdx p r) → (s.ring p r).heldCount < 16 → s.opFree p = true →
    s.reads.length < (if s.fget (HostRingCfg.typ p r) = 0 then 64 else 56) → s.freeTags (s.fget (HostRingCfg.typ p r) == 0) ≠ [] →
    Answers (.descriptorFetch p r) s fun t => t.fbit (HostRingStat.busy p r) = true ∧
      ∃ x, t.reads = s.reads ++ [x] ∧ x.tag ∈ s.freeTags (s.fget (HostRingCfg.typ p r) == 0) ∧ x.len = 32 ∧ x.kind = 0 ∧
        x.addr = s.fwide (HostRingBaseLo.baseLo p r) (HostRingBaseHi.baseHi p r) + 32 * (s.fget (HostRingStat.devIdx p r) % s.ringSize p r)) ∧
  (∀ (tag : BitVec 14) (data : List Byte) (x : HostRd) (p : Part) (r : RingN) (s : State),
    s.reads.find? (fun x => x.tag == tag.toNat) = some x → x.orphan = false → x.part = p → x.ring = r → x.kind = 0 →
    s.fbit (HostRingCfg.en p r) = true → s.fbit (HostRingStat.stopped p r) = false → s.fget (HostRingCfg.typ p r) ≠ 3 →
    (s.ring p r).early = [] → x.first = s.fget (HostRingStat.devIdx p r) →
    Answers (.readCompletion tag 0 data) s fun t =>
      (t.ring p r).descs = (s.ring p r).descs ++ [(x.first, (data ++ List.replicate 32 0).take 32)] ∧
      t.fget (HostRingStat.devIdx p r) = (x.first + 1) % 65536 ∧ t.reads = s.reads.filter fun x => x.tag != tag.toNat) ∧
  (∀ (tag : BitVec 14) (x : HostRd) (p : Part) (s : State), s.reads.find? (fun x => x.tag == tag.toNat) = some x →
    x.part = p → x.issuedAt + ticksOfNs (x.cto * 1000) ≤ s.ticks →
    Answers (.readTimeout tag) s fun t =>
      t.reads = s.reads.filter (fun x => x.tag != tag.toNat) ∧
      t.quarantine = s.quarantine ++ [(tag.toNat, p.val, s.ticks + ticksOfNs (4 * x.cto * 1000))] ∧
      t.fbit (HostCtoLog.valid p) = true ∧ t.fget (HostCtoLog.tag p) = tag.toNat) ∧
  (∀ (tag : BitVec 14) (e : Nat × Nat × Nat) (s : State), s.quarantine.find? (fun e => e.1 == tag.toNat) = some e → e.2.2 ≤ s.ticks →
    Answers (.tagQuarantineExpiry tag) s fun t => t.quarantine = s.quarantine.filter fun e => e.1 != tag.toNat)

/-- Of R337, R341, R348 and R351: the oldest entry is written where the host has left room, with its phase bit; an expired hold-off signals its unmasked
vector. Bus Master Enable follows its commands and D3hot the function's state; a pending message that is not masked goes out once the function may master the bus, and
domain 8 comes on with a function that returns to D0, and goes off with the last one in D3hot where no admitted traffic passes it. A link that trains
shows its rate, width and mode. -/
def Obligations.EntriesAndInterrupts : Prop :=
  (∀ (p : Part) (r : RingN) (bs : List Byte) (now : Bool) (es : List (List Byte × Bool)) (s : State), (s.ring p r).waiting = (bs, now) :: es →
    s.fbit (HostRingCfg.en p r) = true → deviceProducer (s.fget (HostRingCfg.typ p r)) = true → s.fbit (HostRingStat.stopped p r) = false →
    s.masters p = true → s.fbit PwrStat.lgDone = false →
    (s.fget (HostRingStat.devIdx p r) + 65536 - s.fget (HostRingHidx.hostIdx p r)) % 65536 < s.ringSize p r →
    Answers (.ringEntryWrite p r) s fun t =>
      (t.ring p r).waiting = es ∧ t.fget (HostRingStat.devIdx p r) = (s.fget (HostRingStat.devIdx p r) + 1) % 65536 ∧
      .hostWrite p (s.fwide (HostRingBaseLo.baseLo p r) (HostRingBaseHi.baseHi p r)
          + 32 * (s.fget (HostRingStat.devIdx p r) % s.ringSize p r))
        (withPhase bs (s.fget (HostRingStat.devIdx p r) / s.ringSize p r % 2 = 0)) false ∈ t.out) ∧
  (∀ (p : Part) (r : RingN) (s : State), (s.ring p r).unsig ≠ 0 → s.fget (HostRingIrq.count p r) ≠ 0 →
    (s.ring p r).oldest + ticksOfNs (s.fget (HostRingIrq.holdoffUs p r) * 1000) ≤ s.ticks → s.masters p = true →
    (s.msixWord p (4 * s.fget (HostRingCfg.vector p r) + 3)).testBit 0 = false →
    Answers (.irqHoldoffExpiry p r) s fun t =>
      (t.ring p r).unsig = 0 ∧ t.out = .msi p (s.fget (HostRingCfg.vector p r)) :: s.out) ∧
  (∀ (p : Part) (s : State),
    Answers (.busMasterDisable p false) s fun t => t.fbit (HostStat.bme p) = false ∧ RegsBut [HostStat.reg p] s t) ∧
  (∀ (p : Part) (s : State),
    Answers (.busMasterDisable p true) s fun t =>
      (t.part p).d3hot = true ∧ (∀ q, q ≠ p.val → t.part q = s.part q) ∧
      ((∀ q < 16, q ≠ p.val → (s.part q).d3hot = true) → s.hostTraffic = false → t.domOn 8 = false)) ∧
  (∀ (p : Part) (s : State), (s.part p).d3hot = false →
    Answers (.busMasterEnable p false) s fun t =>
      t.fbit (HostStat.bme p) = true ∧ RegsBut [HostStat.reg p] s t ∧
      ∀ v ∈ (s.part p).msixPending, (s.msixWord p (4 * v + 3)).testBit 0 = false → .msi p v ∈ t.out) ∧
  (∀ (p : Part) (s : State), (s.part p).d3hot = true →
    Answers (.busMasterEnable p true) s fun t => (t.part p).d3hot = false ∧ (s.domOn 3 = true → t.domOn 8 = true)) ∧
  (∀ (rate : Fin 6) (width : Fin 5) (flit : Bool) (s : State),
    Answers (.linkUp rate width flit) s fun t =>
      t.fbit HostLink.up = true ∧ t.fget HostLink.rate = rate + 1 ∧ t.fget HostLink.width = 2 ^ width.val ∧
      t.fbit HostLink.flit = (flit || rate == 5))

/-- Of R342, R343 and R349: a go whose accepted set keeps BASE and stays inside the offer runs the partition, any other does not; it returns to 0 while no
ring is enabled or busy. A ring whose enable is legal starts empty. One that is disabled keeps its fetched commands to complete, closes its capture
buffers, abandons its playback buffers, or drops what waits, by its type. -/
def Obligations.PartitionStart : Prop :=
  (∀ (m : Master) (s s1 : State), PlainWrite s m (HostCtl.reg (viewPart m)) 1 s1 →
    (s1.rget (HostFeatAccept.reg (viewPart m) 0)).toNat.testBit 0 = true →
    (∀ i < 4, s1.rget (HostFeatAccept.reg (viewPart m) i) &&& ~~~(s1.rget (HostFeatOffer.reg (viewPart m) i)) = 0) →
    Answers (.goSet m) s fun t =>
      t.fget (HostStat.featRes (viewPart m)) = 1 ∧ t.fbit (HostStat.running (viewPart m)) = true ∧ t.fbit (HostCtl.go (viewPart m)) = true) ∧
  (∀ (m : Master) (s s1 : State), PlainWrite s m (HostCtl.reg (viewPart m)) 1 s1 →
    (s1.rget (HostFeatAccept.reg (viewPart m) 0)).toNat.testBit 0 = false →
    Answers (.goSet m) s fun t =>
      t.fget (HostStat.featRes (viewPart m)) = 2 ∧ t.fbit (HostStat.running (viewPart m)) = false ∧ t.fbit (HostCtl.go (viewPart m)) = false) ∧
  (∀ (m : Master) (s s1 : State), PlainWrite s m (HostCtl.reg (viewPart m)) 0 s1 →
    (∀ r < 64, s.fbit (HostRingCfg.en (viewPart m) r) = false ∧ s.fbit (HostRingStat.busy (viewPart m) r) = false) →
    Answers (.goClear m) s fun t => t.fbit (HostStat.running (viewPart m)) = false) ∧
  (∀ (m : Master) (r : RingN) (value : Word) (s s1 : State),
    PlainWrite s m (HostRingCfg.reg (viewPart m) r) (value.toNat ||| 1) s1 → s.fbit (HostRingCfg.en (viewPart m) r) = false →
    s1.ringRefused (viewPart m) r = false → s1.fbit (HostRingCfg.en (viewPart m) r) = true →
    Answers (.ringEnable m r value) s fun t =>
      t.fbit (HostRingCfg.en (viewPart m) r) = true ∧ (t.ring (viewPart m) r).waiting = [] ∧
      t.fget (HostRingStat.devIdx (viewPart m) r) = 0 ∧ t.fget (HostRingHidx.hostIdx (viewPart m) r) = 0 ∧
      t.fget (HostRingStat.err (viewPart m) r) = 0) ∧
  (∀ (m : Master) (r : RingN) (value : Word) (s s1 : State),
    PlainWrite s m (HostRingCfg.reg (viewPart m) r) (value.toNat / 2 * 2) s1 → s.fbit (HostRingCfg.en (viewPart m) r) = true →
    s.fget (HostRingCfg.typ (viewPart m) r) = 4 ∨ s.fget (HostRingCfg.typ (viewPart m) r) = 5 →
    Answers (.ringDisable m r value) s fun t =>
      t.fbit (HostRingCfg.en (viewPart m) r) = false ∧ (t.ring (viewPart m) r).waiting = [] ∧ (t.ring (viewPart m) r).unsig = 0) ∧
  (∀ (m : Master) (r : RingN) (value : Word) (s s1 : State),
    PlainWrite s m (HostRingCfg.reg (viewPart m) r) (value.toNat / 2 * 2) s1 → s.fbit (HostRingCfg.en (viewPart m) r) = true →
    s.fget (HostRingCfg.typ (viewPart m) r) = 0 → (s1.ring (viewPart m) r).headBusy = false →
    Answers (.ringDisable m r value) s fun t =>
      t.fbit (HostRingCfg.en (viewPart m) r) = false ∧ (t.ring (viewPart m) r).early = [] ∧
      (t.ring (viewPart m) r).descs = (s1.ring (viewPart m) r).descs ∧
      (t.ring (viewPart m) r).closing = !(s1.ring (viewPart m) r).descs.isEmpty) ∧
  (∀ (m : Master) (r : RingN) (value : Word) (s s1 : State),
    PlainWrite s m (HostRingCfg.reg (viewPart m) r) (value.toNat / 2 * 2) s1 → s.fbit (HostRingCfg.en (viewPart m) r) = true →
    s.fget (HostRingCfg.typ (viewPart m) r) = 2 →
    Answers (.ringDisable m r value) s fun t =>
      t.fbit (HostRingCfg.en (viewPart m) r) = false ∧ (t.ring (viewPart m) r).caps = [] ∧ (t.ring (viewPart m) r).descs = []) ∧
  (∀ (m : Master) (r : RingN) (value : Word) (s s1 : State),
    PlainWrite s m (HostRingCfg.reg (viewPart m) r) (value.toNat / 2 * 2) s1 → s.fbit (HostRingCfg.en (viewPart m) r) = true →
    s.fget (HostRingCfg.typ (viewPart m) r) = 3 →
    Answers (.ringDisable m r value) s fun t =>
      t.fbit (HostRingCfg.en (viewPart m) r) = false ∧ 
      ∀ b ∈ (t.ring (viewPart m) r).plays, b.status ≠ 0 ∧ s1.playUnits b ≤ b.nextGrain)

/-- Of R360 to R363, R367 and R368: the oldest whole unit that waits for a capture ring, which the gates of a gated ring pass, goes to host memory behind what its
tributary's open buffer holds, with its gated payload on a gated ring, and leaves staging; a buffer closes flush_us after its first unit. At its read time
the next unit of a playback buffer is read; the oldest buffer leaves its ring with one record once nothing of it is outstanding. -/
def Obligations.CaptureAndPlayback : Prop :=
  (∀ (x : TribN) (r : RingN) (p : Part) (e0 : EgGrain) (es : List EgGrain) (b : CapBuf) (s : State), s.tribOwner x = p →
    s.captureUnit x r = e0 :: es → s.ringIs p r 2 = true → s.fbit (HostRingStat.stopped p r) = false →
    s.fbit (HostRingCfg.follow p r) = false ∨ s.roleWrites e0.rel = true →
    s.fbit (HostRingCfg.gate p r) = false ∨ (e0 :: es).any EgGrain.pass = true → s.dmaOn p = true →
    s.feature p 1 = false → (s.ring p r).caps.find? (fun b => b.trib == s.tribLocal x) = some b →
    s.takesPoint x (b.rFirst + to16 (b.units * s.unitDur x)) e0.rel = true →
    Answers (.captureStage x r) s fun t =>
      .hostWrite p (b.addr + b.bytes)
        ((e0 :: es).flatMap fun e => leBytes 8 (if s.fbit (HostRingCfg.gate p r) then e.gated else e.payload).toNat) (s.feature p 2) ∈ t.out ∧
      (t.trib x).egress = (s.trib x).egress.filter fun e => !(e.dest = .capture r && e.rel == e0.rel)) ∧
  (∀ (p : Part) (r : RingN) (index : BitVec 16) (b : CapBuf) (s : State), (s.ring p r).caps.find? (fun b => b.index == index.toNat) = some b →
    b.openedAt + ticksOfNs ((if s.fget (HostRingArg.arg p r) % 65536 = 0 then 1000 else s.fget (HostRingArg.arg p r) % 65536) * 1000) ≤ s.ticks →
    Answers (.captureFlushExpiry p r index) s fun t =>
      (t.ring p r).caps = (s.ring p r).caps.filter (fun x => x.index != b.index) ∧ (t.ring p r).dropped = 0) ∧
  (∀ (p : Part) (r : RingN) (b : PlayBuf) (x : Nat) (s : State),
    (s.ring p r).plays.find? (fun b => b.status == 0 && decide (b.nextGrain < s.playUnits b)) = some b → s.ringIs p r 3 = true →
    s.fbit (HostRingStat.stopped p r) = false → s.dmaOn p = true → s.playReadAt p r b b.nextGrain = some x → x ≤ s.now →
    s.reads.length < 56 → s.freeTags false ≠ [] →
    Answers (.playbackRead p r) s fun t => ∃ y, t.reads = s.reads ++ [y] ∧ y.kind = 1 ∧ y.buf = b.index ∧ y.first = b.nextGrain ∧
      y.addr = b.addr + b.nextGrain * (8 * unitGrains (s.tfmt b.trib)) ∧ y.tag ∈ s.freeTags false) ∧
  (∀ (p : Part) (r : RingN) (b : PlayBuf) (bs : List PlayBuf) (s : State), (s.ring p r).plays = b :: bs →
    b.status ≠ 0 ∨ s.playUnits b ≤ b.nextGrain →
    s.reads.any (fun x => x.part == p && x.ring == r && x.kind == 1 && x.buf == b.index && !x.orphan) = false → s.dmaOn p = true →
    Answers (.playbackRecord p r) s fun t =>
      (t.ring p r).plays = bs ∧
      (t.ring p (s.fget (HostRingCfg.cpl p r))).waiting.length = (s.ring p (s.fget (HostRingCfg.cpl p r))).waiting.length + 1)

/-- Of R424, R425, R427, R440, R441 and R444: the scrubber corrects a class T byte with one wrong bit, counts it, and writes it back unless a newer write has
reached it, which it counts. A class B block that holds no grain and a class D codeword that holds none, with one bit or one die wrong, are counted as
corrected, and the scrubber goes on to the next unit, or after the last reports the lap's duration, counts the lap and starts again at unit 0. A lap over its
target is flagged, with a MEM happening 6. A finished fill leaves the fills in hand. A window of happenings that has lasted 1 ms leaves its list with one MEM
event. That a class B read waits for its bank is the model's reading (log entry 222). -/
def Obligations.Scrubbing : Prop :=
  (∀ (up : BitVec 72) (raced : Bool) (a : Nat) (b : Byte) (s : State), s.domOn 5 = true → s.scrubByte s.mem.scrubT.next = some a →
    s.tstored a = some b → SMap.getD s.tflip a 0 = 0 → popcount (up.toNat % 2 ^ 13) = 1 →
    Answers (.scrubRead 0 up raced) s fun t =>
      t.tstored a = some b ∧ SMap.getD t.tflip a 0 = (if raced then up.toNat % 2 ^ 13 else 0) ∧
      t.ctr .mem 0 0 = (s.ctr .mem 0 0 + 1) % 2 ^ 48 ∧
      t.ctr .mem 0 9 = (s.ctr .mem 0 9 + if raced then 1 else 0) % 2 ^ 48) ∧
  (∀ (cls : Fin 3) (up : BitVec 72) (raced : Bool) (s : State), s.domOn 5 = true → cls ≠ 0 →
    cls = 2 ∨ 12288 * 2048 ≤ (s.scrub cls).next ∨ s.bankBusy 6 (blockOfUnit (s.scrub cls).next) = false → (s.scrub cls).next + 1 < scrubUnits cls →
    Answers (.scrubRead cls up raced) s fun t => (t.scrub cls).next = (s.scrub cls).next + 1) ∧
  (∀ (up : BitVec 72) (s : State), s.domOn 5 = true → 12288 * 2048 ≤ (s.scrub 1).next → s.grainAt (blockOfUnit (s.scrub 1).next) = none →
    onesIn 72 up.toNat = 1 →
    Answers (.scrubRead 1 up false) s fun t => t.ctr .mem 0 1 = (s.ctr .mem 0 1 + 1) % 2 ^ 48) ∧
  (∀ (die : Die) (s : State), s.domOn 5 = true → s.domOn (45 + (s.scrub 2).next / 2 ^ 26) = true →
    s.codewordTrib ((s.scrub 2).next / 2 ^ 26) ((s.scrub 2).next % 2 ^ 26) = none → s.deadDies ((s.scrub 2).next / 2 ^ 26) = 0 →
    Answers (.scrubRead 2 (BitVec.ofNat 72 (2 ^ die.val)) false) s fun t => t.ctr .mem 0 2 = (s.ctr .mem 0 2 + 1) % 2 ^ 48) ∧
  (∀ (cls : Fin 3) (up : BitVec 72) (raced : Bool) (s : State), s.domOn 5 = true → cls ≠ 0 → (s.scrub cls).next + 1 = scrubUnits cls →
    Answers (.scrubRead cls up raced) s fun t =>
      (t.scrub cls).next = 0 ∧ (t.scrub cls).startedAt = s.ticks ∧ (t.scrub cls).targetUs = s.scrubTarget cls ∧
      t.fget (MemScrubLap.lapUs cls) = min (2 ^ 32 - 1) (usOfTicks (s.ticks - (s.scrub cls).startedAt)) ∧
      t.ctr .mem 0 (12 + cls) = (s.ctr .mem 0 (12 + cls) + 1) % 2 ^ 48) ∧
  (∀ (cls : Fin 3) (s : State), (s.scrub cls).late = false → (s.scrub cls).targetUs < usOfTicks (s.ticks - (s.scrub cls).startedAt) →
    Answers (.scrubLapOver cls) s fun t =>
      (t.scrub cls).late = true ∧ (t.fget MemScrubStat.overF).testBit cls = true ∧ RegsBut [MemScrubStat.reg] s t ∧
      (SMap.find t.mem.wins (memWinKey 0 cls 6)).isSome = true) ∧
  (∀ (d : Fin 149) (s : State),
    Answers (.poisonFillDone d) s fun t => d.val ∉ t.mem.filling ∧ t.regs = s.regs ∧ t.tbl = s.tbl) ∧
  (∀ (p : Part) (cls : Fin 3) (h : Fin 16) (w : MemWin) (s : State), SMap.find s.mem.wins (memWinKey p cls h) = some w →
    w.start + tMs ≤ s.now →
    Answers (.memEventWindowEnd p cls h) s fun t => SMap.find t.mem.wins (memWinKey p cls h) = none ∧
      Reported s t p 0x0D cls (h.val + min 4095 w.count * 16 + w.unit * 65536) (w.loc1.toNat + w.loc0.toNat * 2 ^ 32 + w.kind * 2 ^ 64))

/-- Of R432, R433 and R445: a die reported failed, or marked by command, is marked where its stack has none marked, and counted; a second mark by command is
refused. A stack declared lost is lost. Marks are cleared where the stack holds no allocation, and refused where it does. A lost stack is restored once all
three of its domains have been off and on, and the operation refused before. At the end of a device second the counts of die errors start again, and a die
that reached die_thr is marked where its stack has none. A second report for a stack with a marked die changes nothing: the model's reading (log entry 106). -/
def Obligations.DiesAndStacks : Prop :=
  (∀ (st : Stack) (die : Die) (s : State), s.deadDies st = 0 →
    Answers (.hbmDieFailReport st die) s fun t => t.deadDies st = 2 ^ die.val ∧ t.ctr .mem 0 16 = (s.ctr .mem 0 16 + 1) % 2 ^ 48) ∧
  (∀ (st : Stack) (die : Die) (s : State), s.deadDies st ≠ 0 → Answers (.hbmDieFailReport st die) s fun t => t = s) ∧
  (∀ (st : Stack) (die : Die) (s : State), Answers (.markDie st die) s fun t =>
    t.fget MemHbmStat.res = (if s.deadDies st = 0 then 1 else 2) ∧
    t.deadDies st = if s.deadDies st = 0 then 2 ^ die.val else s.deadDies st) ∧
  (∀ (st : Stack) (s : State), Answers (.stackLost st) s fun t => t.stackLost st = true) ∧
  (∀ (st : Stack) (die : Die) (s : State), Answers (.clearDies st die) s fun t =>
    t.fget MemHbmStat.res = (if s.stackUsed st then 2 else 1) ∧ t.deadDies st = if s.stackUsed st then s.deadDies st else 0) ∧
  (∀ (st : Stack) (die : Die) (s : State), s.stackLost st = true →
    Answers (.restore st die) s fun t =>
      t.fget MemHbmStat.res = (if (if st = 0 then s.mem.cycled0 else s.mem.cycled1) = 7 then 1 else 2) ∧
      (t.stackLost st = true ↔ (if st = 0 then s.mem.cycled0 else s.mem.cycled1) ≠ 7)) ∧
  (∀ s : State, s.now / tSec ≠ s.mem.dieInterval →
    Answers .dieThresholdInterval s fun t => t.mem.dieCnt = [] ∧ t.mem.dieInterval = s.now / tSec) ∧
  (∀ (st : Stack) (die : Die) (n : Nat) (s : State), s.now / tSec ≠ s.mem.dieInterval → s.mem.dieCnt = [(st.val * 12 + die.val, n)] →
    s.fget MemHbmCfg.dieThr ≤ n → s.deadDies st = 0 →
    Answers .dieThresholdInterval s fun t => t.deadDies st = 2 ^ die.val)

/-- Of R178 and R180 to R182: a legal window is enabled with the occurrences already ended skipped, an illegal one is not; the state and the count left of a
blank or capture-gate window follow device time. An EVENT or CAL_SWAP that is due, with no other due occurrence and no epoch before it, is passed and reported,
with the window's target as data1 of an EVENT; while domain 3 is off it is counted and reported as missed. A calendar swap's request is written into the
transmit page, with the number of its multiframe, 16 multiframes ahead of it; with fewer than 9 multiframes left the action is counted as missed. Of R171, R172 and R181: a step or a set is refused with result 3 while one is pending, 2 where its operand is illegal, and 1 where a tributary is admitted and it
is not forced; else it is held with its operand until its instant, the next tick or the next whole second. While no window holds an action, a held step moves
device time by its signed count at its instant, and a set puts it at the operand; one that is not forced is refused there with result 1 where a tributary has
been admitted meanwhile. That a step's instant is the next tick is the spec's; the order of the tests is the model's reading (log entry 50). -/
def Obligations.WindowsAndTime : Prop :=
  (∀ (m : Master) (w : WinN) (s : State), Reached s m (WinCfg.reg w) → s.fbit (WinCfg.en w) = false → s.winBad w = false →
    Answers (.windowEnable m w) s fun t =>
      t.fbit (WinCfg.en w) = true ∧ (t.winSt w).nextOcc = s.winPassed w ∧ RegsBut [WinCfg.reg w, WinCount.reg w] s t) ∧
  (∀ (m : Master) (w : WinN) (s : State), Reached s m (WinCfg.reg w) → s.fbit (WinCfg.en w) = false → s.winBad w = true →
    Answers (.windowEnable m w) s fun t => t.fbit (WinCfg.en w) = false) ∧
  (∀ (w : WinN) (s : State), s.fbit (WinCfg.en w) = true → s.fget (WinCfg.kind w) ≠ 2 → s.winTotal w = none →
    Answers (.windowOccurrenceEdge w) s fun t =>
      t.fget (WinCfg.state w) = (if s.winContains w s.now then 2 else 1) ∧ t.fget (WinCount.left w) = 0xFFFF) ∧
  (∀ (w : WinN) (n : Nat) (s : State), s.fbit (WinCfg.en w) = true → s.fget (WinCfg.kind w) ≠ 2 → s.winTotal w = some n →
    Answers (.windowOccurrenceEdge w) s fun t =>
      t.fget (WinCfg.state w) = (if n = s.winPassed w then 3 else if s.winContains w s.now then 2 else 1) ∧
      t.fget (WinCount.left w) = n - s.winPassed w) ∧
  (∀ (w : WinN) (k : Nat) (s : State), s.actionDue w 6 = some k → s.dueActions.filter (fun e => firesBefore e (s.occStart w k, w)) = [(s.occStart w k, w.val)] →
   
    s.epochFirst (s.occStart w k) = s → s.domOn 3 = true →
    Answers (.event w) s fun t => (t.winSt w).nextOcc = k + 1 ∧
      Reported s t (s.winOwner w) 5 (s.winLocal w)
        (6 + if s.sys.lateFrom < s.occStart w k ∧ s.occStart w k < s.sys.lateTo then 2 ^ 9 else 0) (s.fget (WinCfg.target w))) ∧
  (∀ (w : WinN) (k : Nat) (s : State), s.actionDue w 6 = some k → s.dueActions.filter (fun e => firesBefore e (s.occStart w k, w)) = [(s.occStart w k, w.val)] →
   
    s.epochFirst (s.occStart w k) = s → s.domOn 3 = false →
    Answers (.event w) s fun t => (t.winSt w).nextOcc = k + 1 ∧
      t.fget (TimeActMiss.count (s.winOwner w)) = (s.fget (TimeActMiss.count (s.winOwner w)) + 1) % 2 ^ 32 ∧
      Reported s t (s.winOwner w) 5 (s.winLocal w) (6 + 2 ^ 8) 0) ∧
  (∀ (w : WinN) (k : Nat) (s : State), s.actionDue w 1 = some k → s.dueActions.filter (fun e => firesBefore e (s.occStart w k, w)) = [(s.occStart w k, w.val)] →
   
    s.epochFirst (s.occStart w k) = s → s.domOn 3 = true → (s.swapLane w).isSome = true → k < (s.winSt w).placed → (s.winSt w).missedOcc ≠ some k →
    Answers (.calSwap w) s fun t => (t.winSt w).nextOcc = k + 1 ∧
      Reported s t (s.winOwner w) 5 (s.winLocal w)
        (1 + if s.sys.lateFrom < s.occStart w k ∧ s.occStart w k < s.sys.lateTo then 2 ^ 9 else 0) 0) ∧
  (∀ (w : WinN) (k : Nat) (s : State), s.actionDue w 1 = some k → s.dueActions.filter (fun e => firesBefore e (s.occStart w k, w)) = [(s.occStart w k, w.val)] →
   
    s.epochFirst (s.occStart w k) = s → (s.winSt w).placed ≤ k → (s.winSt w).missedOcc ≠ some k →
    Answers (.calSwap w) s fun t => (t.winSt w).nextOcc = k + 1 ∧
      t.fget (TimeActMiss.count (s.winOwner w)) = (s.fget (TimeActMiss.count (s.winOwner w)) + 1) % 2 ^ 32) ∧
  (∀ (w : WinN) (n : Nat) (s : State), s.fbit (WinCfg.en w) = true → s.fget (WinCfg.kind w) = 2 → s.fget (WinCfg.action w) = 1 →
    s.winTotal w = none ∨ (∃ c, s.winTotal w = some c ∧ (s.winSt w).placed < c) → s.swapLane w = some n →
    gridTime (s.fget (LaneKlfCfg.txRate n)) (s.firstMfAt n (s.occStart w (s.winSt w).placed) - 16) ≤ s.now →
    (s.lane n).tx.running = true → (s.lane n).tx.grid + 9 ≤ s.firstMfAt n (s.occStart w (s.winSt w).placed) + 1 → s.domOn 3 = true →
    Answers (.calSwapPlace w) s fun t =>
      (t.winSt w).placed = (s.winSt w).placed + 1 ∧ (t.lane n).tx.placedBy = some w.val ∧
      t.fbit ⟨LaneKlfTxoh.reg n 5, 17, 17⟩ = true ∧
      ∀ i < 4, t.fget ⟨LaneKlfTxoh.reg n ((23 + i) / 4), 8 * ((23 + i) % 4) + 7, 8 * ((23 + i) % 4)⟩
        = ((s.lane n).tx.seq + (s.firstMfAt n (s.occStart w (s.winSt w).placed) - (s.lane n).tx.grid)) % 2 ^ 32 / 2 ^ (8 * (3 - i)) % 256) ∧
  (∀ (w : WinN) (n : Nat) (s : State), s.fbit (WinCfg.en w) = true → s.fget (WinCfg.kind w) = 2 → s.fget (WinCfg.action w) = 1 →
    s.winTotal w = none → s.swapLane w = some n →
    gridTime (s.fget (LaneKlfCfg.txRate n)) (s.firstMfAt n (s.occStart w (s.winSt w).placed) - 16) ≤ s.now →
    s.firstMfAt n (s.occStart w (s.winSt w).placed) + 1 < (s.lane n).tx.grid + 9 →
    Answers (.calSwapPlace w) s fun t =>
      (t.winSt w).missedOcc = some (s.winSt w).placed ∧
      t.fget (TimeActMiss.count (s.winOwner w)) = (s.fget (TimeActMiss.count (s.winOwner w)) + 1) % 2 ^ 32) ∧
  (∀ (force : Bool) (s : State), Answers (.timeStep force) s fun t => t.clock = s.clock ∧ t.fget TimeWrCtl.op = 1 ∧
    if s.fbit TimeWrStat.busy = true then t.fget TimeWrStat.result = 3 ∧ t.sys = s.sys
    else if 2 ^ 47 ≤ (toSigned 64 (s.timeOperand % 2 ^ 64)).natAbs then t.fget TimeWrStat.result = 2 ∧ t.fbit TimeWrStat.busy = false
    else if force = false ∧ s.anyAdmitted = true then t.fget TimeWrStat.result = 1 ∧ t.fbit TimeWrStat.busy = false
    else t.fbit TimeWrStat.busy = true ∧ t.sys.timeOpAt = s.ticks + 1 ∧ t.sys.timeOpSet = false ∧ t.sys.timeForce = force ∧
      t.sys.timeOpVal = s.timeOperand) ∧
  (∀ (force : Bool) (s : State), Answers (.timeSet force) s fun t => t.clock = s.clock ∧ t.fget TimeWrCtl.op = 2 ∧
    if s.fbit TimeWrStat.busy = true then t.fget TimeWrStat.result = 3 ∧ t.sys = s.sys
    else if s.timeOperand % 2 ^ 48 ≠ 0 then t.fget TimeWrStat.result = 2 ∧ t.fbit TimeWrStat.busy = false
    else if force = false ∧ s.anyAdmitted = true then t.fget TimeWrStat.result = 1 ∧ t.fbit TimeWrStat.busy = false
    else t.fbit TimeWrStat.busy = true ∧ t.sys.timeOpAt = (s.now / tSec + 1) * tSec ∧ t.sys.timeOpSet = true ∧ t.sys.timeForce = force ∧
      t.sys.timeOpVal = s.timeOperand) ∧
  (∀ (s : State), s.cas.autoSet = none → s.fbit TimeWrStat.busy = true → s.sys.timeOpSet = false → s.sys.timeOpAt ≤ s.ticks →
    s.sys.timeForce = true ∨ s.anyAdmitted = false → (∀ w < 256, s.fbit (WinCfg.en w) = false ∨ s.fget (WinCfg.kind w) ≠ 2) →
    Answers .timeOpEffect s fun t =>
      t.clock = ((s.clock : Int) + 5 * toSigned 64 (s.sys.timeOpVal % 2 ^ 64)).toNat ∧ t.fbit TimeWrStat.busy = false ∧
      t.fget TimeWrStat.result = 0) ∧
  (∀ (s : State), s.cas.autoSet = none → s.fbit TimeWrStat.busy = true → s.sys.timeOpSet = true → s.sys.timeOpAt ≤ s.now →
    s.sys.timeForce = true ∨ s.anyAdmitted = false → (∀ w < 256, s.fbit (WinCfg.en w) = false ∨ s.fget (WinCfg.kind w) ≠ 2) →
    Answers .timeOpEffect s fun t =>
      t.clock = timeOf s.sys.timeOpVal * 5 + (s.clock - 5 * s.sys.timeOpAt) ∧ t.fbit TimeWrStat.busy = false ∧
      t.fget TimeWrStat.result = 0) ∧
  (∀ (s : State), s.cas.autoSet = none → s.fbit TimeWrStat.busy = true →
    s.sys.timeOpAt ≤ (if s.sys.timeOpSet then s.now else s.ticks) → s.sys.timeForce = false → s.anyAdmitted = true →
    Answers .timeOpEffect s fun t =>
      t.clock = s.clock ∧ t.fbit TimeWrStat.busy = false ∧ t.fget TimeWrStat.result = 1)

/-- Of R214, R216 to R218, R223 and R224: an engine whose anchor is a device time and whose configuration is legal is enabled, not yet running, its filter
cleared and its bank the selected one; one whose configuration is not legal stays disabled and shows why. One that is disabled stops and is cleared. A word
written to SLC_NCO_HI is staged, for the next position or for a reset. An NCO reset that is due, of an enabled engine, with no other due occurrence and no
epoch before it, is set for the action's start and reported; of an engine that is not enabled it is counted and reported as missed. That the phase is kept
over a disable is the model's choice (log entry 94). Of R214, R222, R228 to R231: an enabled engine takes the oldest grain of its queue, and a grain that does not complete its unit joins those gathered. A whole
unit of outputs leaves the engine, is counted, and reaches an enabled output tributary as the grains of one unit. The check of a bank starts at its commit and
ends with result 2 where the bank is in use, 3 where a word is poisoned, else 0 or 1 by its CRC, result 0 setting its committed bit. A committed bank selected
is the active one of an engine that is disabled; an uncommitted one is not selected. -/
def Obligations.Slicers : Prop :=
  (∀ (m : Master) (e : SlcN) (value : Word) (s s1 : State), PlainWrite s m (SlcCfg.reg e) (value.toNat ||| 1) s1 →
    s.fbit (SlcCfg.en e) = false → malformed (s.slcAnchorWord e) = false → (s1.fsetB (SlcCfg.en e) false).slcCfgErr e = 0 →
    s1.fbit (SlcCfg.en e) = true →
    Answers (.slicerEnable m e value) s fun t =>
      t.fbit (SlcCfg.en e) = true ∧ t.fget (SlcStat.cfgErr e) = 0 ∧ t.fbit (SlcStat.running e) = false ∧ (t.slc e).inq = [] ∧
      (t.slc e).outq = [] ∧ (t.slc e).fir = [] ∧ (t.slc e).phase = (s1.slc e).phase ∧
      t.fget (SlcStat.bankAct e) = s1.fget (SlcCtl.coefBank e)) ∧
  (∀ (m : Master) (e : SlcN) (value : Word) (s s1 : State), PlainWrite s m (SlcCfg.reg e) (value.toNat ||| 1) s1 →
    s.fbit (SlcCfg.en e) = false → malformed (s.slcAnchorWord e) = false → (s1.fsetB (SlcCfg.en e) false).slcCfgErr e ≠ 0 →
    Answers (.slicerEnable m e value) s fun t =>
      t.fbit (SlcCfg.en e) = false ∧ t.fget (SlcStat.cfgErr e) = (s1.fsetB (SlcCfg.en e) false).slcCfgErr e) ∧
  (∀ (m : Master) (e : SlcN) (value : Word) (s s1 : State), PlainWrite s m (SlcCfg.reg e) (value.toNat / 2 * 2) s1 →
    s.fbit (SlcCfg.en e) = true →
    Answers (.slicerDisable m e value) s fun t =>
      t.fbit (SlcCfg.en e) = false ∧ t.fbit (SlcStat.running e) = false ∧ (t.slc e).inq = [] ∧ (t.slc e).outq = [] ∧ (t.slc e).fir = []) ∧
  (∀ (m : Master) (e : SlcN) (value : Word) (s s1 : State), PlainWrite s m (SlcNcoHi.reg e) value.toNat s1 →
    Answers (.ncoStage m e value) s fun t =>
      (if s1.fbit (SlcNcoHi.now e) = true then
        (t.slc e).stagedNow = some (s1.fget (SlcNcoHi.wordHi e) * 2 ^ 32 + s1.fget (SlcNcoLo.wordLo e)) ∧ (t.slc e).staged = none
      else (t.slc e).staged = some (s1.fget (SlcNcoHi.wordHi e) * 2 ^ 32 + s1.fget (SlcNcoLo.wordLo e)) ∧ (t.slc e).stagedNow = none) ∧
      t.regs = s1.regs) ∧
  (∀ (w : WinN) (k e : Nat) (s : State), s.actionDue w 4 = some k → s.dueActions.filter (fun e => firesBefore e (s.occStart w k, w)) = [(s.occStart w k, w.val)] →
   
    s.epochFirst (s.occStart w k) = s → s.domOn 3 = true → s.ncoTarget w = some e → s.fbit (SlcCfg.en e) = true →
    Answers (.ncoReset w) s fun t =>
      (t.slc e).ncoResets = (s.slc e).ncoResets ++ [s.occStart w k] ∧ (t.winSt w).nextOcc = k + 1 ∧
      Reported s t (s.winOwner w) 5 (s.winLocal w)
        (4 + if s.sys.lateFrom < s.occStart w k ∧ s.occStart w k < s.sys.lateTo then 2 ^ 9 else 0) 0) ∧
  (∀ (w : WinN) (k e : Nat) (s : State), s.actionDue w 4 = some k → s.dueActions.filter (fun e => firesBefore e (s.occStart w k, w)) = [(s.occStart w k, w.val)] →
   
    s.epochFirst (s.occStart w k) = s → s.ncoTarget w = some e → s.fbit (SlcCfg.en e) = false →
    Answers (.ncoReset w) s fun t => t.slcs = s.slcs ∧ (t.winSt w).nextOcc = k + 1 ∧
      t.ctr .slc e 11 = (s.ctr .slc e 11 + 1) % 2 ^ 48 ∧ Reported s t (s.winOwner w) 5 (s.winLocal w) (4 + 2 ^ 8) 0) ∧
  (∀ (e : SlcN) (x : SlcIn) (xs : List SlcIn) (s : State), (s.slc e).inq = x :: xs → s.fbit (SlcCfg.en e) = true →
    Answers (.slicerInput e) s fun t => (t.slc e).inq = xs) ∧
  (∀ (e : SlcN) (x : SlcIn) (xs : List SlcIn) (s : State), (s.slc e).inq = x :: xs → s.fbit (SlcCfg.en e) = true →
    SMap.getD (s.slc e).part x.tribNo [] = [] → x.idx + 1 ≠ unitGrains (s.tfmt x.tribNo) → (s.slc e).avail = [] →
    Answers (.slicerInput e) s fun t =>
      t.slc e = { s.slc e with inq := xs, part := SMap.ins (s.slc e).part x.tribNo [x] } ∧ t.regs = s.regs) ∧
  (∀ (e : SlcN) (u : Nat) (s : State), s.slcOutTrib e = some u → unitInstants (s.tfmt u) ≠ 0 →
    unitInstants (s.tfmt u) ≤ (s.slc e).outq.length →
    Answers (.slicerOutput e) s fun t => (t.slc e).outq = (s.slc e).outq.drop (unitInstants (s.tfmt u)) ∧
      t.ctr .slc e 5 = (s.ctr .slc e 5 + unitInstants (s.tfmt u)) % 2 ^ 48 ∧
      (t.trib u).fab.length = (s.trib u).fab.length + if s.fbit (TribCfg.en u) then unitGrains (s.tfmt u) else 0) ∧
  (∀ (m : Master) (e : SlcN) (b : Bool) (crc : Word) (s s1 : State), PlainWrite s m (SlcCoefCrc.reg e b.toNat) crc.toNat s1 →
    Answers (.coefCommit m e b crc) s fun t =>
      (t.fget (SlcStat.checking e)).testBit b.toNat = true ∧ RegsBut [SlcStat.reg e] s1 t) ∧
  (∀ (e : SlcN) (b : Bool) (s : State), (s.fget (SlcStat.checking e)).testBit b.toNat = true → s.coefActive e b.toNat = true →
    Answers (.coefCheckDone e b) s fun t =>
      (t.fget (SlcStat.checking e)).testBit b.toNat = false ∧ t.fget (SlcStat.chkResult e) = 2 ∧
      t.fget (SlcStat.committed e) = s.fget (SlcStat.committed e)) ∧
  (∀ (e : SlcN) (b : Bool) (x : Nat) (s s1 : State), (s.fget (SlcStat.checking e)).testBit b.toNat = true → s.coefActive e b.toNat = false →
    s.treadN (s.clusterOwner (e / 16)) (0x600000 + e * 0x200 + b.toNat * 0x100) 256 (s.slcLocal e) 6 = (some x, s1) →
    Answers (.coefCheckDone e b) s fun t =>
      (t.fget (SlcStat.checking e)).testBit b.toNat = false ∧
      t.fget (SlcStat.chkResult e) = (if crc32c (leBytes 256 x) = s.fget (SlcCoefCrc.crc e b.toNat) then 0 else 1) ∧
      (t.fget (SlcStat.committed e)).testBit b.toNat =
        ((s.fget (SlcStat.committed e)).testBit b.toNat || decide (crc32c (leBytes 256 x) = s.fget (SlcCoefCrc.crc e b.toNat)))) ∧
  (∀ (e : SlcN) (b : Bool) (s s1 : State), (s.fget (SlcStat.checking e)).testBit b.toNat = true → s.coefActive e b.toNat = false →
    s.treadN (s.clusterOwner (e / 16)) (0x600000 + e * 0x200 + b.toNat * 0x100) 256 (s.slcLocal e) 6 = (none, s1) →
    Answers (.coefCheckDone e b) s fun t =>
      (t.fget (SlcStat.checking e)).testBit b.toNat = false ∧ t.fget (SlcStat.chkResult e) = 3 ∧
      t.fget (SlcStat.committed e) = s.fget (SlcStat.committed e)) ∧
  (∀ (m : Master) (e : SlcN) (b : Bool) (s s1 : State), (s.fget (SlcStat.committed e)).testBit b.toNat = true →
    PlainWrite s m (SlcCtl.reg e) b.toNat s1 →
    Answers (.coefBankSelect m e b) s fun t => t.fget (SlcCtl.coefBank e) = b.toNat ∧
      t.fget (SlcStat.bankAct e) = (if s1.fbit (SlcCfg.en e) then s1.fget (SlcStat.bankAct e) else b.toNat) ∧ RegsBut [SlcStat.reg e] s1 t) ∧
  (∀ (m : Master) (e : SlcN) (b : Bool) (s : State), (s.fget (SlcStat.committed e)).testBit b.toNat = false → Reached s m (SlcCtl.reg e) →
    Answers (.coefBankSelect m e b) s fun t =>
      t.fget (SlcCtl.coefBank e) = s.fget (SlcCtl.coefBank e) ∧ t.fget (SlcStat.bankAct e) = s.fget (SlcStat.bankAct e))

/-- Of R381, R400, R415 to R418 and R480: a core enabled whose domain is on starts at its start address, halted there where a halt is requested, and one whose
domain is off only takes the bit; one reset is in reset with its registers and CSRs as at reset. A host read of SEM_ACQ answers 7 under peek, 3 without
permission, 2 out of order, 4 where the semaphore is held, else it takes it and answers 1 or 0 by ABANDONED; a write of SEM_REL frees what the host side holds
and answers 3 otherwise. A free semaphore passes to the core that waits first, whose SLOCK ends. -/
def Obligations.CoresAndSemaphores : Prop :=
  (∀ (c : CoreN) (s : State), s.fbit (SepCtl.en c) = false → s.coreState c ≠ 6 → s.fbit (SepDbgCtl.haltReq c) = false →
    Answers (.coreEnable c) s fun t =>
      t.fbit (SepCtl.en c) = true ∧ t.coreState c = 1 ∧ (t.core c).pc = startPc c ∧ RegsBut [SepCtl.reg c, SepStat.reg c] s t) ∧
  (∀ (c : CoreN) (s : State), s.fbit (SepCtl.en c) = false → s.coreState c ≠ 6 → s.fbit (SepDbgCtl.haltReq c) = true →
    Answers (.coreEnable c) s fun t =>
      t.fbit (SepCtl.en c) = true ∧ t.coreState c = 4 ∧ (t.core c).pc = startPc c ∧ t.fget (SepDpc.dpc c) = (startPc c).toNat) ∧
  (∀ (c : CoreN) (s : State), s.fbit (SepCtl.en c) = false → s.coreState c = 6 →
    Answers (.coreEnable c) s fun t => t.fbit (SepCtl.en c) = true ∧ t.coreState c = 6 ∧ RegsBut [SepCtl.reg c] s t) ∧
  (∀ (c : CoreN) (s : State), s.coreState c ≠ 6 →
    Answers (.coreReset c) s fun t => t.fbit (SepCtl.en c) = false ∧ t.coreState c = 0 ∧ t.core c = { pc := startPc c }) ∧
  (∀ (c : CoreN) (s : State), s.coreState c = 6 →
    Answers (.coreReset c) s fun t => t.fbit (SepCtl.en c) = false ∧ t.coreState c = 6 ∧ RegsBut [SepCtl.reg c] s t) ∧
  (∀ (p : Part) (i : SemN) (s : State), s.peeks (32 + p) = true →
    Answers (.semAcquireRead p i) s fun t => t.sems = s.sems ∧ t.out = .readData (32 + p) 7 :: s.out ∧ t.regs = s.regs) ∧
  (∀ (p : Part) (i : SemN) (s : State), s.peeks (32 + p) = false →
    Answers (.semAcquireRead p i) s fun t => t.regs = s.regs ∧
      if s.semPermitted (32 + p) i = false then t.sems = s.sems ∧ t.out = .readData (32 + p) 3 :: s.out
      else if (s.semsHeld (32 + p)).any (fun j => decide (i.val ≤ j)) = true then t.sems = s.sems ∧ t.out = .readData (32 + p) 2 :: s.out
      else if (s.sem i).holder ≠ none then t.sems = s.sems ∧ t.out = .readData (32 + p) 4 :: s.out
      else (t.sem i).holder = some (32 + p.val) ∧ (t.sem i).abandoned = false ∧ (t.sem i).waiters = (s.sem i).waiters ∧
        t.out = .readData (32 + p) (if (s.sem i).abandoned then 1 else 0) :: s.out) ∧
  (∀ (p : Part) (i : SemN) (value : Word) (s : State), (s.sem i).holder = some (32 + p.val) → s.semPermitted (32 + p) i = true →
    (s.sem i).waiters = [] →
    Answers (.semReleaseWrite p i value) s fun t =>
      (t.sem i).holder = none ∧ t.fget (SemRelRes.result p) = 0 ∧ RegsBut [SemRelRes.reg p] s t) ∧
  (∀ (p : Part) (i : SemN) (value : Word) (s : State), (s.sem i).holder ≠ some (32 + p.val) ∨ s.semPermitted (32 + p) i = false →
    Answers (.semReleaseWrite p i value) s fun t =>
      t.sems = s.sems ∧ t.fget (SemRelRes.result p) = 3 ∧ RegsBut [SemRelRes.reg p] s t) ∧
  (∀ (i : SemN) (h : Nat) (hs : List Nat) (rd : Nat) (s : State), (s.sem i).holder = none → (s.sem i).waiters = h :: hs →
    (s.core h).wait = .lock i rd → rd ≠ 0 →
    Answers (.semaphoreGrant i) s fun t =>
      (t.sem i).holder = some h ∧ (t.sem i).waiters = hs ∧ t.coreState h = 1 ∧ (t.core h).pc = (s.core h).pc + 4 ∧
      (t.core h).reg rd = if (s.sem i).abandoned then 1 else 0)

/-- Of R42, R43, R433, R434, R492, R493 and R496: a switch-off that nothing refuses takes the unit's domains off, and self-refresh those of the stack but its PHY; a
refused one gives its result and changes no domain: 5 for a reserved unit, 4 while the unit becomes ready, else as R42 has it. A switch-on brings the unit's
domains on, and those of a stack from off only when it is ready; the unit is ready after its time, a core of it then in reset. A reported temperature shows and
is kept as the highest; outside 0 to 105 degrees C every admission in force is void. That the quiet of the cores is asked for a switch-off is the statement's
own condition. -/
def Obligations.PowerUnits : Prop :=
  (∀ (u : Byte) (s : State), unitDomains u.toNat ≠ [] → SMap.find s.sys.unitReadyAt u.toNat = none → s.allOff (unitDomains u.toNat) = false →
    s.offRefusal u.toNat = 0 → s.quiet →
    Answers (.off u) s fun t => t.fget PwrDomStat.res = 0 ∧ ∀ d ∈ unitDomains u.toNat, t.domOn d = false) ∧
  (∀ (u : Byte) (r : Nat) (s : State), r ≠ 0 → r = (if unitDomains u.toNat = [] then 5 else if (SMap.find s.sys.unitReadyAt u.toNat).isSome = true then 4
      else if s.allOff (unitDomains u.toNat) = true then 0 else s.offRefusal u.toNat) →
    Answers (.off u) s fun t => t.fget PwrDomStat.res = r ∧ RegsBut [PwrDomCtl.reg, PwrDomStat.reg] s t) ∧
  (∀ (u : Byte) (s : State), u = 48 ∨ u = 49 → SMap.find s.sys.unitReadyAt u.toNat = none →
    s.allOff (offDomains u.toNat true) = false → s.stackUsed (u.toNat - 48) = false →
    Answers (.sr u) s fun t =>
      t.fget PwrDomStat.res = 0 ∧ (∀ d ∈ offDomains u.toNat true, t.domOn d = false) ∧
      t.domOn (41 + (u.toNat - 48)) = s.domOn (41 + (u.toNat - 48))) ∧
  (∀ (u : Byte) (s : State), u ≠ 48 → u ≠ 49 →
    Answers (.sr u) s fun t => t.fget PwrDomStat.res = 5 ∧ RegsBut [PwrDomCtl.reg, PwrDomStat.reg] s t) ∧
  (∀ (u : Byte) (s : State), unitDomains u.toNat ≠ [] → SMap.find s.sys.unitReadyAt u.toNat = none →
    (unitDomains u.toNat).all s.domOn = false → (u = 48 ∨ u = 49 → s.domOn (41 + (u.toNat - 48)) = true) →
    Answers (.on u) s fun t =>
      t.fget PwrDomStat.res = 0 ∧ (∀ d ∈ unitDomains u.toNat, t.domOn d = true) ∧
      SMap.find t.sys.unitReadyAt u.toNat = some (s.ticks + ticksOfNs (s.readyNs u.toNat))) ∧
  (∀ (u : Byte) (s : State), u = 48 ∨ u = 49 → SMap.find s.sys.unitReadyAt u.toNat = none → s.domOn (41 + (u.toNat - 48)) = false →
    Answers (.on u) s fun t =>
      t.fget PwrDomStat.res = 0 ∧ (∀ d ∈ unitDomains u.toNat, t.domOn d = s.domOn d) ∧
      SMap.find t.sys.unitReadyAt u.toNat = some (s.ticks + ticksOfNs 1000000000)) ∧
  (∀ (u : Byte) (s : State), unitDomains u.toNat = [] ∨ (SMap.find s.sys.unitReadyAt u.toNat).isSome = true →
    Answers (.on u) s fun t =>
      t.fget PwrDomStat.res = (if unitDomains u.toNat = [] then 5 else 4) ∧ RegsBut [PwrDomCtl.reg, PwrDomStat.reg] s t) ∧
  (∀ (u : Byte) (x : Nat) (s : State), SMap.find s.sys.unitReadyAt u.toNat = some x → x ≤ s.ticks →
    Answers (.unitReady u) s fun t => SMap.find t.sys.unitReadyAt u.toNat = none ∧
      (u = 48 ∨ u = 49 → ∀ d ∈ unitDomains u.toNat, t.domOn d = true) ∧
      (96 ≤ u.toNat → u.toNat < 103 → s.fbit (SepCtl.en (25 + (u.toNat - 96))) = false → t.coreState (25 + (u.toNat - 96)) = 0)) ∧
  (∀ (tj : BitVec 16) (s : State),
    Answers (.thermalAlarm tj) s fun t => t.fget PwrTherm.tj = tj.toNat ∧ t.sys.tjMax = max s.sys.tjMax tj.toInt ∧ t.sys.tjAt = s.ticks) ∧
  (∀ (tj : BitVec 16) (x : TribN) (s : State), tj.toInt < 0 ∨ 10500 < tj.toInt → (s.trib x).adm.isSome = true →
    Answers (.thermalAlarm tj) s fun t => (t.trib x).voidRow ≠ 0)

/-- Of R181, R194, R495, R514, R525 and R526: a pace change is refused with result 2 while one is pending, 3 to the mode in force, and 1 to EFFICIENT where the
admissions do not fit it and it is not forced; else it is pending until its ramp is done, when the mode in force changes. A PACE action that is due, with no
other due occurrence and no epoch before it, is passed and reported. A window's longest period, of the powered quads, is the pace, and one beyond the limit is
flagged. The regulator is asked for a voltage within its limits; an answer ends the request, and while it does not answer it is asked again up to 3 times. The
voltages and the time of a ramp are the model's reading (log entries 124 and 125). -/
def Obligations.PaceAndSupply : Prop :=
  (∀ (eff force : Bool) (s : State), s.fbit GlbPace.pending = true →
    Answers (.paceChange eff force) s fun t => t.fget PwrPaceStat.res = 2 ∧ t.sys = s.sys ∧ t.tribs = s.tribs ∧
      t.fget GlbPace.mode = s.fget GlbPace.mode) ∧
  (∀ (eff force : Bool) (s : State), s.fbit GlbPace.pending = false → s.fget GlbPace.mode = eff.toNat →
    Answers (.paceChange eff force) s fun t => t.fget PwrPaceStat.res = 3 ∧ t.sys = s.sys ∧ t.tribs = s.tribs ∧
      t.fbit GlbPace.pending = false) ∧
  (∀ (force : Bool) (s : State), s.fbit GlbPace.pending = false → s.fget GlbPace.mode = 1 →
    Answers (.paceChange false force) s fun t =>
      t.fbit GlbPace.pending = true ∧ t.sys.paceTarget = some 0 ∧ t.fget GlbPace.mode = 1 ∧ t.tribs = s.tribs) ∧
  (∀ (force : Bool) (s : State), s.fbit GlbPace.pending = false → s.fget GlbPace.mode = 0 →
    force = true ∨ (s.fitsEfficient = true ∧ s.mem.zero = []) →
    Answers (.paceChange true force) s fun t =>
      t.fbit GlbPace.pending = true ∧ t.fbit GlbPace.admMode = true ∧ t.sys.paceTarget = some 1 ∧ t.fget GlbPace.mode = 0) ∧
  (∀ (s : State), s.fbit GlbPace.pending = false → s.fget GlbPace.mode = 0 → s.fitsEfficient = false →
    Answers (.paceChange true false) s fun t =>
      t.fget PwrPaceStat.res = 1 ∧ t.fbit GlbPace.pending = false ∧ t.sys = s.sys ∧ t.tribs = s.tribs) ∧
  (∀ (w : WinN) (k : Nat) (s : State), s.actionDue w 5 = some k → s.dueActions.filter (fun e => firesBefore e (s.occStart w k, w)) = [(s.occStart w k, w.val)] →
   
    s.epochFirst (s.occStart w k) = s → s.domOn 3 = true → s.fbit GlbPace.pending = false → s.fget GlbPace.mode = 1 → s.fget (WinCfg.target w) % 2 = 0 →
    Answers (.pace w) s fun t => (t.winSt w).nextOcc = k + 1 ∧ t.fbit GlbPace.pending = true ∧ t.sys.paceTarget = some 0 ∧
      Reported s t (s.winOwner w) 5 (s.winLocal w)
        (5 + if s.sys.lateFrom < s.occStart w k ∧ s.occStart w k < s.sys.lateTo then 2 ^ 9 else 0) 0) ∧
  (∀ (w : WinN) (k : Nat) (s : State), s.actionDue w 5 = some k → s.dueActions.filter (fun e => firesBefore e (s.occStart w k, w)) = [(s.occStart w k, w.val)] →
   
    s.epochFirst (s.occStart w k) = s → s.domOn 3 = false →
    Answers (.pace w) s fun t => (t.winSt w).nextOcc = k + 1 ∧ t.fbit GlbPace.pending = s.fbit GlbPace.pending ∧
      t.fget (TimeActMiss.count (s.winOwner w)) = (s.fget (TimeActMiss.count (s.winOwner w)) + 1) % 2 ^ 32) ∧
  (∀ (mode x : Nat) (s : State), mode ≤ 1 → s.sys.paceTarget = some mode → s.sys.rampEnd = some x → x ≤ s.ticks →
    Answers .paceRampDone s fun t =>
      t.fget GlbPace.mode = mode ∧ t.fbit GlbPace.pending = false ∧ t.sys.supplyMv = (if mode = 0 then 750 else 660) ∧
      t.sys.paceTarget = none ∧ t.fget PwrPaceStat.res = 0 ∧ (mode = 0 → t.fbit GlbPace.admMode = false)) ∧
  (∀ (ps : List (BitVec 16)) (seen : List (Nat × Nat)) (s : State),
    seen = (((ps.map BitVec.toNat).take 24).zipIdx.filter fun e => s.domOn (17 + e.2)) → seen = [] →
    Answers (.paceWindow ps) s fun t => t = s) ∧
  (∀ (ps : List (BitVec 16)) (seen : List (Nat × Nat)) (s : State),
    seen = (((ps.map BitVec.toNat).take 24).zipIdx.filter fun e => s.domOn (17 + e.2)) → seen ≠ [] →
    Answers (.paceWindow ps) s fun t =>
      (t.fget PerfPaceNow.period, t.fget PerfPaceNow.quad) ∈ seen ∧ (∀ x ∈ seen, x.1 ≤ t.fget PerfPaceNow.period) ∧
      ((if s.fget GlbPace.mode = 1 ∨ s.fbit GlbPace.pending = true then 1920 else 1280) < t.fget PerfPaceNow.period →
        t.fbit PerfPaceStat.overF = true)) ∧
  (∀ s : State, Answers .avsRequest s fun t =>
    t.fget PwrAvs.reqMv = max 660 (min 750 s.wantedMv) ∧ t.out = .avs (max 660 (min 750 s.wantedMv)) :: s.out ∧
    t.sys.avsPending = some (max 660 (min 750 s.wantedMv), s.ticks, 0)) ∧
  (∀ (ok : Bool) (s : State), s.sys.avsPending.isSome = true →
    Answers (.avsResponse ok) s fun t =>
      t.sys.avsPending = none ∧ (ok = false → t.fbit PwrAvs.nak = true) ∧ (ok = true → t.regs = s.regs)) ∧
  (∀ (mv x n : Nat) (s : State), s.sys.avsPending = some (mv, x, n) → x + ticksOfNs 100000 ≤ s.ticks →
    Answers .avsTimeout s fun t =>
      (n < 3 → t.sys.avsPending = some (mv, s.ticks, n + 1) ∧ t.out = .avs mv :: s.out ∧ t.regs = s.regs) ∧
      (3 ≤ n → t.sys.avsPending = none ∧ t.fbit PwrAvs.timeout = true))

/-- Of R274 to R276 and R290: the activity faults of a REF, a PPS and the host input begin at their commands and disqualify it; a REF fault ends at its command.
A measurement of an enabled input shows in its register, with freq_fault by its reject limit; one beyond it of a qualified mode A input counts towards its
disqualification, and one within the accept limit clears that count. A PPS edge within 1 us of 1 s after the last accepted one is accepted and measured, the
first one accepted, and any other not. An input clean for its soak is qualified. Where in its tick an edge falls is the model's free choice (log entry 216). -/
def Obligations.InputQualification : Prop :=
  (∀ (n : InputN) (s : State), n.val ≤ 3 → s.fbit (RefselInCfg.en n) = true → s.fbit (RefselInStat.actFault n) = false →
    Answers (.refActivityFault n) s fun t => t.fbit (RefselInStat.actFault n) = true ∧ t.fbit (RefselInStat.qualified n) = false) ∧
  (∀ (n : InputN) (s : State), n.val ≤ 3 → s.fbit (RefselInStat.actFault n) = true →
    Answers (.activityFaultClear n) s fun t => t.fbit (RefselInStat.actFault n) = false) ∧
  (∀ (n : InputN) (x : Int) (s : State), n.val ≠ 4 → n.val ≠ 5 → n.val ≠ 15 → s.fbit (RefselInCfg.en n) = true →
    Answers (.freqMonitorMeasure n x) s fun t =>
      t.fget (RefselInOff.offset n) = ofSigned 32 x ∧
      t.fbit (RefselInStat.freqFault n) = decide (10 * s.fget (RefselInLim.reject n) < x.natAbs)) ∧
  (∀ (n : InputN) (x : Int) (s : State), n.val ≠ 4 → n.val ≠ 5 → n.val ≠ 15 → s.fbit (RefselInCfg.en n) = true → s.modeB n = false →
    s.fbit (RefselInStat.actFault n) = false → s.fbit (RefselInStat.qualified n) = true → 10 * s.fget (RefselInLim.reject n) < x.natAbs →
    Answers (.freqMonitorMeasure n x) s fun t =>
      t.fbit (RefselInStat.qualified n) = decide ((s.inp n).beyond + 1 < s.fget (RefselInSoak.dqSoak n)) ∧
      ((s.inp n).beyond + 1 < s.fget (RefselInSoak.dqSoak n) → (t.inp n).beyond = (s.inp n).beyond + 1)) ∧
  (∀ (n : InputN) (x : Int) (s : State), n.val ≠ 4 → n.val ≠ 5 → n.val ≠ 15 → s.fbit (RefselInCfg.en n) = true → s.modeB n = false →
    s.fbit (RefselInStat.actFault n) = false → x.natAbs ≤ 10 * s.fget (RefselInLim.reject n) → x.natAbs ≤ 10 * s.fget (RefselInLim.accept n) →
    Answers (.freqMonitorMeasure n x) s fun t =>
      (t.inp n).beyond = 0 ∧ (s.fbit (RefselInStat.qualified n) = false → (t.inp n).soakFrom.isSome = true)) ∧
  (∀ (n : InputN) (x : Int) (e : Nat) (s : State), n.val = 4 ∨ n.val = 5 → s.fbit (RefselInCfg.en n) = true → (s.inp n).lastEdge = some e →
    e + tSec ≤ s.now + tUs → s.sys.stampAt < s.now → s.now + 419430 ≤ e + tSec + tUs →
    Answers (.ppsEdge n x) s fun t => (∃ y, (t.inp n).lastEdge = some y ∧ s.now ≤ y ∧ y < s.now + 419430) ∧
      t.fget (RefselInOff.offset n) = ofSigned 32 x) ∧
  (∀ (n : InputN) (x : Int) (s : State), n.val = 4 ∨ n.val = 5 → s.fbit (RefselInCfg.en n) = true → (s.inp n).lastEdge = none →
    Answers (.ppsEdge n x) s fun t => (t.inp n).lastEdge.isSome = true ∧ t.regs = s.regs) ∧
  (∀ (n : InputN) (x : Int) (e : Nat) (s : State), n.val = 4 ∨ n.val = 5 → s.fbit (RefselInCfg.en n) = true → (s.inp n).lastEdge = some e →
    s.now + 419430 + tUs ≤ e + tSec ∨ e + tSec + tUs < s.now →
    Answers (.ppsEdge n x) s fun t => (t.inp n).lastEdge = some e ∧ t.regs = s.regs) ∧
  (∀ (n : InputN) (s : State), n.val = 4 ∨ n.val = 5 → s.fbit (RefselInCfg.en n) = true → s.fbit (RefselInStat.actFault n) = false →
    (∀ e, (s.inp n).lastEdge = some e → e + tSec + tUs < s.now) →
    Answers (.ppsActivityFault n) s fun t => t.fbit (RefselInStat.actFault n) = true ∧ t.fbit (RefselInStat.qualified n) = false) ∧
  (∀ s : State, s.tim.wdogAt + s.fget RefselHost.wdogMs * 156250 ≤ s.ticks → s.fbit (RefselInStat.actFault 15) = false →
    Answers .hostWatchdogExpiry s fun t =>
      t.fbit (RefselInStat.actFault 15) = true ∧ t.fbit (RefselInStat.qualified 15) = false) ∧
  (∀ (n : InputN) (f : Nat) (s : State), (s.inp n).soakFrom = some f → tenthTicks (10 * s.fget (RefselInSoak.qSoak n)) ≤ s.since f →
    s.fbit (RefselInStat.actFault n) = false → (s.modeB n = true → s.qlOk n = true) → (n.val = 14 → s.casRole = 2) →
    Answers (.qualifySoakEnd n) s fun t =>
      t.fbit (RefselInStat.qualified n) = true ∧ t.fbit (RefselInStat.soaking n) = false ∧ (t.inp n).soakFrom = none)

/-- Of R39, R279 to R282, R284 and R285: the candidates are ranked every 100 ms while core 27 runs: with nothing selected and none forced an only candidate is
selected, and with none left the selected input is given up. A candidate above the selected input for wait-to-restore is selected, unless core 27 does not run.
A forced input is selected while it is qualified, else nothing; forced free run selects nothing and ends the history. A build-out's slew ends once slew_ppb
allows it (the phase itself is the model's free value, log entry 219). Lock is gained and lost by the phase error. -/
def Obligations.TimingSelection : Prop :=
  (∀ s : State, s.coreRuns 27 = true → tenthTicks 1 ≤ s.since s.tim.nextAt → Answers .rankCandidates s fun t => t.tim.nextAt = s.ticks) ∧
  (∀ (n : InputN) (s : State), s.coreRuns 27 = true → tenthTicks 1 ≤ s.since s.tim.nextAt → s.forEach (List.range 16) State.syncCand = s →
    s.fbit RefselCfg.forceFr = false → s.fbit RefselCfg.forceEn = false → s.fbit RefselStat.selValid = false →
    s.fbit (RefselInStat.candidate n) = true → (∀ m < 16, m = n.val ∨ s.fbit (RefselInStat.candidate m) = false) →
    Answers .rankCandidates s fun t => t.fbit RefselStat.selValid = true ∧ t.fget RefselStat.sel = n) ∧
  (∀ (s : State), s.coreRuns 27 = true → tenthTicks 1 ≤ s.since s.tim.nextAt → s.forEach (List.range 16) State.syncCand = s →
    s.fbit RefselCfg.forceFr = false → s.fbit RefselCfg.forceEn = false → s.fbit RefselStat.nextValid = false →
    (∀ m < 16, s.fbit (RefselInStat.candidate m) = false) →
    Answers .rankCandidates s fun t => t.fbit RefselStat.selValid = false) ∧
  (∀ (n x : Nat) (s : State), s.coreRuns 27 = true → s.tim.above = some (n, x) → n < 16 → s.fbit RefselCfg.revert = true →
    s.fbit RefselCfg.forceEn = false → s.fbit RefselCfg.forceFr = false → s.fbit RefselStat.selValid = true →
    s.fbit (RefselInStat.candidate n) = true → s.ranksAbove n (s.fget RefselStat.sel) = true →
    tenthTicks (10 * s.fget RefselCfg.wtr) ≤ s.since x →
    Answers .waitToRestoreExpiry s fun t => t.fget RefselStat.sel = n ∧ t.fbit RefselStat.selValid = true ∧ t.tim.above = none) ∧
  (∀ s : State, s.coreRuns 27 = false → Answers .waitToRestoreExpiry s fun t => t = s) ∧
  (∀ (m : Master) (s s1 : State), PlainWrite s m RefselCfg.reg ((s.rget RefselCfg.reg).toNat ||| 2 ^ 14) s1 →
    Answers (.forceFreeRun m) s fun t =>
      t.fget RefselStat.state = 0 ∧ t.fbit RefselStat.selValid = false ∧ t.fbit RefselStat.histValid = false ∧ t.tim.hist = []) ∧
  (∀ (m : Master) (n : InputN) (s s1 : State),
    PlainWrite s m RefselCfg.reg (RefselCfg.forceIn.put (RefselCfg.forceEn.put (s.rget RefselCfg.reg) 1) n).toNat s1 →
    s1.fbit RefselCfg.forceFr = false → s1.fbit RefselCfg.forceEn = true → s1.fget RefselCfg.forceIn = n.val →
    Answers (.forceInput m n) s fun t =>
      t.fbit RefselStat.selValid = s1.fbit (RefselInStat.qualified n) ∧
      (s1.fbit (RefselInStat.qualified n) = true → t.fget RefselStat.sel = n.val)) ∧
  (∀ s : State, s.fbit RefselStat.slewing = true →
    5000000000 * s.tim.buildOut.natAbs ≤ s.since s.tim.slewFrom * 2097152 * s.fget RefselSlew.slewPpb →
    Answers .buildOutRemoved s fun t => t.fbit RefselStat.slewing = false ∧ t.tim.buildOut = 0) ∧
  (∀ (e : Int) (s : State), s.fget RefselStat.state = 1 → s.fget RefselStat.sel ≠ 15 → e.natAbs ≤ 256 * s.fget RefselLock.thrNs →
    tenthTicks (10 * s.fget RefselLock.lockS) ≤ s.since s.tim.since →
    Answers (.dpllLock e) s fun t => t.fget RefselStat.state = 2 ∧ t.fget RefselPherr.pherr = ofSigned 32 e) ∧
  (∀ (e : Int) (s : State), s.fget RefselStat.state = 2 → s.fget RefselStat.sel ≠ 15 → 1024 * s.fget RefselLock.thrNs < e.natAbs →
    Answers (.dpllLockLost e) s fun t => t.fget RefselStat.state = 1 ∧ t.fget RefselPherr.pherr = 0)

/-- Of R286, R287 and R289 to R291: with input 15 selected a write of REFSEL_DCO_WR_HI sets or adds to the DCO word, saturating, which is staged for the next whole
microsecond; with another input, or none, selected it is only flagged. Either restarts the watchdog. A staged word is in force once its instant has come, and
with none staged the word of the loop, a free value within the limit (log entry 42). Each second of lock enters the history, a write of REFSEL_HIST ends it, and in holdover
and LOST a word is predicted and staged every 100 ms. -/
def Obligations.OscillatorControl : Prop :=
  (∀ (m : Master) (hi : Byte) (s s1 : State), PlainWrite s m RefselDcoWrHi.reg hi.toNat s1 → s1.fbit (RefselInStat.actFault 15) = false →
    s1.fbit RefselStat.selValid = true → s1.fget RefselStat.sel = 15 →
    Answers (.dcoSet m hi) s fun t =>
      t.tim.dNext = some (toSigned 40 (hi.toNat * 2 ^ 32 + s1.fget RefselDcoWrLo.wordLo), (s.now / tUs + 1) * tUs) ∧ t.tim.wdogAt = s.ticks) ∧
  (∀ (m : Master) (hi : Byte) (s s1 : State), PlainWrite s m RefselDcoWrHi.reg (2 ^ 31 + hi.toNat) s1 →
    s1.fbit (RefselInStat.actFault 15) = false → s1.fbit RefselStat.selValid = true → s1.fget RefselStat.sel = 15 → s1.tim.dNext = none →
    Answers (.dcoAdd m hi) s fun t =>
      t.tim.dNext = some (max (-2 ^ 39) (min (2 ^ 39 - 1) (s1.tim.d + toSigned 40 (hi.toNat * 2 ^ 32 + s1.fget RefselDcoWrLo.wordLo))),
        (s.now / tUs + 1) * tUs) ∧ t.tim.wdogAt = s.ticks) ∧
  (∀ (m : Master) (hi : Byte) (s s1 : State), PlainWrite s m RefselDcoWrHi.reg hi.toNat s1 → s1.fbit (RefselInStat.actFault 15) = false →
    s1.fbit RefselStat.selValid = false ∨ s1.fget RefselStat.sel ≠ 15 →
    Answers (.dcoSet m hi) s fun t =>
      t.tim.dNext = s1.tim.dNext ∧ t.tim.wdogAt = s.ticks ∧ (t.fget RefselStky.stky).testBit 5 = true) ∧
  (∀ (d : Int) (x : Nat) (s : State), s.tim.dNext = some (d, x) → x ≤ s.now →
    Answers .dcoApply s fun t => t.tim.d = d ∧ t.tim.dNext = none ∧ t.tim.dAt = x) ∧
  (∀ (s : State), s.tim.dNext = none → s.loopDrives = true →
    Answers .dcoApply s fun t => -s.dcoLimit ≤ t.tim.d ∧ t.tim.d ≤ s.dcoLimit ∧ t.tim.dNext = none) ∧
  (∀ s : State, s.fget RefselStat.state = 2 → tenthTicks 10 ≤ s.since s.tim.sampleAt →
    Answers .historySample s fun t =>
      t.tim.sampleAt = s.ticks ∧ t.tim.hist.tail = s.tim.hist.take (s.fget RefselHist.histS + 59) ∧ t.tim.hist ≠ []) ∧
  (∀ (m : Master) (value : Word) (s s1 : State), PlainWrite s m RefselHist.reg value.toNat s1 →
    Answers (.historyReset m value) s fun t => t.fbit RefselStat.histValid = false ∧ t.tim.hist = []) ∧
  (∀ s : State, s.fget RefselStat.state = 3 ∨ s.fget RefselStat.state = 4 → s.tim.predict = true → tenthTicks 1 ≤ s.since s.tim.hoLast →
    Answers .holdoverUpdate s fun t => t.tim.dNext.isSome = true ∧ t.tim.hoLast = s.tim.hoLast + tenthTicks 1)

/-- Of R181 and R294 to R298: one of outputs 0 to 9 that is enabled has a new grid pending, fixed at the first whole second at least 1 s away. A PULSE_ALIGN that is due,
with no other due occurrence and no epoch before it, realigns an enabled output to its start and is reported; where the device has no timing role it is counted
as missed. An output that reaches its new grid is aligned, with nothing pending or misaligned. The ToD message of an edge is sent once, 1 ms after it, where the device
drives it. A good message received is shown, one with a wrong CRC flagged, and after 2 s without a good one the input is stale. -/
def Obligations.TimingOutputs : Prop :=
  (∀ (m : Master) (o : OutN) (s s1 : State), o.val ≤ 9 → s.fbit (RefselOutCfg.en o) = false → PlainWrite s m (RefselOutCfg.reg o) 1 s1 →
    Answers (.outputEnable m o) s fun t =>
      t.fbit (RefselOutStat.pending o) = true ∧ (t.outp o).nextTa = (s.now + 2 * tSec - 1) / tSec * tSec ∧ (t.outp o).reachAt.isSome = true) ∧
  (∀ (w : WinN) (k o : Nat) (s : State), s.actionDue w 2 = some k → s.dueActions.filter (fun e => firesBefore e (s.occStart w k, w)) = [(s.occStart w k, w.val)] →
   
    s.epochFirst (s.occStart w k) = s → s.domOn 3 = true → s.fget (WinCfg.target w) = o → o ≤ 9 →
    s.fbit (RefselOutCfg.en o) = true → s.timingRole = true → s.winOwner w = 0 →
    Answers (.pulseAlign w) s fun t =>
      t.fbit (RefselOutStat.pending o) = true ∧ (t.outp o).nextTa = s.occStart w k ∧ (t.winSt w).nextOcc = k + 1 ∧
      Reported s t 0 5 (s.winLocal w) (2 + if s.sys.lateFrom < s.occStart w k ∧ s.occStart w k < s.sys.lateTo then 2 ^ 9 else 0) 0) ∧
  (∀ (w : WinN) (k : Nat) (s : State), s.actionDue w 2 = some k → s.dueActions.filter (fun e => firesBefore e (s.occStart w k, w)) = [(s.occStart w k, w.val)] →
   
    s.epochFirst (s.occStart w k) = s → s.timingRole = false ∨ s.domOn 3 = false →
    Answers (.pulseAlign w) s fun t => t.tim = s.tim ∧ (t.winSt w).nextOcc = k + 1 ∧
      t.fget (TimeActMiss.count (s.winOwner w)) = (s.fget (TimeActMiss.count (s.winOwner w)) + 1) % 2 ^ 32) ∧
  (∀ (o : OutN) (x : Nat) (s : State), (s.outp o).reachAt = some x → x ≤ s.now →
    Answers (.outputAligned o) s fun t =>
      t.fbit (RefselOutStat.aligned o) = true ∧ t.fbit (RefselOutStat.pending o) = false ∧ t.fbit (RefselOutStat.misaligned o) = false ∧
      (t.outp o).mis = 0 ∧ (t.outp o).ta = (s.outp o).nextTa ∧ t.fget (RefselOutMis.mis o) = 0) ∧
  (∀ (e : Nat) (s : State), s.ppsEdge (s.now - tMs) = some e → s.fbit MgmtTodCfg.txEn = true → s.tim.todSent ≠ some e →
    Answers .todTxMessage s fun t => t.tim.todSent = some e ∧ t.regs = s.regs ∧
      t.out = (if (s.outp 10).driven then [.tod (withCrc16 (s.todBody e))] else []) ++ s.out) ∧
  (∀ (bs : List Byte) (s : State), s.fbit MgmtTodCfg.rxEn = true → bs.length = 16 → withCrc16 (bs.take 14) = bs → bs.take 2 = [0xC5, 0x01] →
    Answers (.todRxMessage bs) s fun t =>
      t.fbit MgmtTodStat.rxValid = true ∧ t.fbit MgmtTodStat.rxStale = false ∧
      t.fget MgmtTodRx0.secLo = ofBe ((bs.drop 2).take 6) % 2 ^ 32 ∧ t.tim.todAt = some s.ticks) ∧
  (∀ (bs : List Byte) (s : State), s.fbit MgmtTodCfg.rxEn = true → bs.length = 16 → withCrc16 (bs.take 14) ≠ bs →
    Answers (.todRxMessage bs) s fun t => t.fbit MgmtTodStat.crcErr = true ∧ RegsBut [MgmtTodStat.reg] s t ∧ t.tim = s.tim) ∧
  (∀ s : State, (∀ x, s.tim.todAt = some x → tenthTicks 20 ≤ s.since x) →
    Answers .todRxStale s fun t => t.fbit MgmtTodStat.rxValid = false ∧ t.fbit MgmtTodStat.rxStale = true)

/-- Of R255 to R258: a paired device sends its frame with the next sequence, not before 100 us after the last. A good frame of the other side shows the peer's
role, makes it valid and is kept; one that is not good breaks its path's row, and one of the own side is noted. A path without good frames for hb_miss
intervals is lost, the ring path also while it is not monitored; an own-side frame is forgotten after 10 ms. -/
def Obligations.Heartbeats : Prop :=
  (∀ s : State, s.role ≠ 0 → (∀ x, s.pair.sentAt = some x → 15625 ≤ s.since x) → s.coreRuns 28 = true → s.fbit CasCfg.en = false →
    Answers .heartbeatSend s fun t =>
      t.pair.hbSeq = (s.pair.hbSeq + 1) % 65536 ∧ t.pair.sentAt = some s.ticks ∧ t.regs = s.regs ∧
      t.out = .heartbeat ((List.range 3).map fun i =>
        BitVec.ofNat 32 ((s.hbFrame s.pair.hbSeq + hbCrc (s.hbFrame s.pair.hbSeq) * 2 ^ 80) / 2 ^ (32 * i))) :: s.out) ∧
  (∀ s : State, s.role ≠ 0 → (∀ x, s.pair.sentAt = some x → 15625 ≤ s.since x) →
    Answers .heartbeatSend s fun t => t.pair.hbSeq = (s.pair.hbSeq + 1) % 65536 ∧ t.pair.sentAt = some s.ticks) ∧
  (∀ (x : Nat) (s : State), s.role = 0 ∨ (s.pair.sentAt = some x ∧ s.since x < 15625) → Answers .heartbeatSend s fun t => t = s) ∧
  (∀ (cas : Bool) (frame : BitVec 96) (s : State), frame.toNat % 256 = 0xB4 →
    (cas = false → frame.toNat / 2 ^ 80 = hbCrc (frame.toNat % 2 ^ 80)) → (cas = true → s.fbit ProtPairCfg.hbCas = true) →
    frame.toNat.testBit 8 = !s.fbit ProtPairStat.side →
    Answers (.heartbeatRx cas frame) s fun t =>
      t.fget ProtPairStat.peerRole = frame.toNat / 2 ^ 9 % 4 ∧ t.pair.lastGood = some s.ticks ∧ t.fbit ProtPairStat.peerValid = true ∧
      ∀ i < 3, t.fget (ProtPairHb.frame i) = frame.toNat % 2 ^ 80 / 2 ^ (32 * i) % 2 ^ 32) ∧
  (∀ (frame : BitVec 96) (s : State), frame.toNat % 256 ≠ 0xB4 ∨ frame.toNat / 2 ^ 80 ≠ hbCrc (frame.toNat % 2 ^ 80) →
    Answers (.heartbeatRx false frame) s fun t => t.pair.goodPin = 0 ∧ t.pair.lastGood = s.pair.lastGood ∧ t.regs = s.regs) ∧
  (∀ (frame : BitVec 96) (s : State), frame.toNat % 256 = 0xB4 → frame.toNat / 2 ^ 80 = hbCrc (frame.toNat % 2 ^ 80) →
    frame.toNat.testBit 8 = s.fbit ProtPairStat.side →
    Answers (.heartbeatRx false frame) s fun t =>
      t.pair.ownSide = some s.ticks ∧ t.fbit ProtPairStat.hbSelf = true ∧
      t.role = (if s.role = 2 ∨ s.role = 3 ∨ ((s.role = 4 ∨ s.role = 5) ∧ frame.toNat / 2 ^ 9 % 4 = 1) then 1 else s.role)) ∧
  (∀ s : State, s.recent s.pair.lastPin (15625 * s.fget ProtPairCfg.hbMiss) = false →
    Answers (.heartbeatPathLoss false) s fun t => t.fbit ProtPairStat.hbPinOk = false ∧ t.pair.goodPin = 0) ∧
  (∀ s : State, s.fbit ProtPairCfg.hbCas = false ∨ s.recent s.pair.lastCas (15625 * s.fget ProtPairCfg.hbMiss) = false →
    Answers (.heartbeatPathLoss true) s fun t => t.fbit ProtPairStat.hbCasOk = false ∧ t.pair.goodCas = 0) ∧
  (∀ s : State, s.recent s.pair.ownSide ms10 = false → Answers .sameSideExpiry s fun t => t.pair.ownSide = none)

/-- Of R258 to R261: a standby claims a vacancy. A claim drives the wire when it has read high long enough, and a handover's claim is then active. Side B releases
the wire 10 us after its drive, samples it in the release, backs off from a low one, and drives a high one again 2 us after the release began. A claim is
active 20 us after its drive without back-off. A wire that reads high for 1 us against the device's drive, or low with no holder, is a claim fault. -/
def Obligations.Claims : Prop :=
  (∀ s : State, s.role = 1 → s.fbit ProtPairCfg.autoClaim = true → s.pair.ownSide = none → s.recent s.pair.releasedAt ms10 = false →
    (if s.timingOk && s.healthy then ms1 else sec1) ≤ s.since s.pair.lastActive →
    Answers .claimVacancy s fun t => t.role = 2 ∧ t.pair.claim = 0 ∧ t.pair.qualFrom = s.ticks) ∧
  (∀ s : State, s.role = 2 → s.fbit ProtPairStat.wireIn = true →
    (if s.pair.claim = 1 then 313 else 15625) ≤ s.since (max s.pair.qualFrom s.pair.wireAt) →
    Answers .claimQualified s fun t =>
      t.role = (if s.pair.claim = 1 then 4 else 3) ∧ t.fbit ProtPairStat.wireDrive = true ∧ t.pair.claimAt = s.ticks) ∧
  (∀ s : State, s.role = 3 → s.fbit ProtPairStat.side = true → s.pair.claim = 0 → s.pair.probeAt = none → 1563 ≤ s.since s.pair.claimAt →
    Answers .claimProbe s fun t => t.fbit ProtPairStat.wireDrive = false ∧ t.pair.probeAt = some s.ticks ∧ t.role = 3) ∧
  (∀ (x : Nat) (s : State), s.role = 3 → s.pair.claim = 2 → s.pair.probeAt = some x → 313 ≤ s.since x →
    Answers .claimProbe s fun t => t.fbit ProtPairStat.wireDrive = true ∧ t.pair.probeAt = none ∧ t.role = 3) ∧
  (∀ (low : Bool) (x : Nat) (s : State), s.pair.probeAt = some x → s.pair.claim = 0 → s.role = 3 → 235 ≤ s.since x →
    Answers (.claimProbeSample low) s fun t =>
      (low = true → t.pair.probeAt = none ∧ t.role = 1 ∧ t.fbit ProtPairStat.backoff = true) ∧
      (low = false → t.pair.claim = 2 ∧ t.role = 3 ∧
        t.fbit ProtPairStat.wireDrive = if 313 ≤ s.since x then true else s.fbit ProtPairStat.wireDrive)) ∧
  (∀ s : State, s.role = 3 → 3125 ≤ s.since s.pair.claimAt → s.fbit ProtPairStat.side = false ∨ s.pair.claim = 2 →
    Answers .claimActive s fun t => t.role = 4) ∧
  (∀ s : State, s.role ≠ 0 → s.heldByNone = true → Answers .claimFault s fun t => t.fbit ProtPairStat.claimFault = true) ∧
  (∀ s : State, s.role ≠ 0 → s.fbit ProtPairStat.wireDrive = true → s.fbit ProtPairStat.wireIn = true →
    157 ≤ s.since (max s.pair.driveAt s.pair.wireAt) → Answers .claimFault s fun t => t.fbit ProtPairStat.claimFault = true) ∧
  (∀ (high : Bool) (s : State),
    Answers (.claimWireChange high) s fun t => t.fbit ProtPairStat.wireIn = high ∧ t.pair.wireAt = s.ticks ∧ t.role = s.role)

/-- Of R254, R258, R262 to R266 and R535: each operation of PROT_PAIR_CTL gives its role and result. At the instant of a handover the yielding device is standby and
the armed standby claims; one that left the wire high is reported failed and claims, unless its own side was seen. An output follows the role in its low
half-period; contention sets its bits, and side B stands down. The order of a result's tests is the model's reading (log entry 55). -/
def Obligations.PairOperations : Prop :=
  (∀ s : State, Answers .enable s fun t =>
    t.fget ProtPairStat.cmdResult = (if s.role = 0 then 0 else 2) ∧ t.role = if s.role = 0 then 1 else s.role) ∧
  (∀ s : State, Answers .disable s fun t =>
    if s.role ≠ 1 ∧ s.role ≠ 4 then t.role = s.role ∧ t.fget ProtPairStat.cmdResult = 2
    else if s.recent s.pair.lastGood sec1 = true then t.role = s.role ∧ t.fget ProtPairStat.cmdResult = 1
    else t.role = 0 ∧ t.fget ProtPairStat.cmdResult = 0 ∧ t.fbit ProtPairStat.wireDrive = false) ∧
  (∀ (h : Nat) (s : State), h = (s.now / tSec / 2 ^ 32 * 2 ^ 32 + s.fget ProtPairT.tSec) * tSec + tSec / 2 →
    Answers .handover s fun t =>
      if s.role = 5 then t.role = 5 ∧ t.fget ProtPairStat.cmdResult = 4
      else if s.role ≠ 4 then t.role = s.role ∧ t.fget ProtPairStat.cmdResult = 2
      else if h < s.now + 100 * tMs ∨ s.now + 60 * tSec < h ∨ s.recent s.pair.lastFit ms1 = false then
        t.role = 4 ∧ t.fget ProtPairStat.cmdResult = 1
      else t.role = 5 ∧ t.fget ProtPairStat.cmdResult = 0 ∧ t.pair.hoAt = some h) ∧
  (∀ s : State, Answers .claim s fun t =>
    if s.role = 2 ∨ s.role = 3 then t.role = s.role ∧ t.fget ProtPairStat.cmdResult = 4
    else if s.role ≠ 1 then t.role = s.role ∧ t.fget ProtPairStat.cmdResult = 2
    else if s.pair.ownSide ≠ none then t.role = 1 ∧ t.fget ProtPairStat.cmdResult = 1
    else t.role = 2 ∧ t.fget ProtPairStat.cmdResult = 0 ∧ t.pair.claim = 0) ∧
  (∀ s : State, s.role = 4 ∨ s.role = 5 →
    Answers .standDown s fun t =>
      t.role = 1 ∧ t.fget ProtPairStat.cmdResult = 0 ∧ t.fbit ProtPairStat.wireDrive = false ∧ t.pair.hoAt = none ∧
      ∀ o < 11, (t.outp o).driven = false) ∧
  (∀ s : State, s.role ≠ 4 → s.role ≠ 5 → Answers .standDown s fun t => t.role = s.role ∧ t.fget ProtPairStat.cmdResult = 2) ∧
  (∀ (h : Nat) (s : State), s.role = 5 → s.pair.hoAt = some h → h ≤ s.now →
    Answers .handoverInstant s fun t =>
      t.role = 1 ∧ t.pair.hoAt = none ∧ t.pair.gave = some h ∧ t.fbit ProtPairStat.wireDrive = false ∧ t.pair.failAt = some (h + 10 * tUs)) ∧
  (∀ (h : Nat) (s : State), s.role = 1 → s.pair.armed = some h → h ≤ s.now → s.pair.ownSide = none →
    Answers .handoverInstant s fun t => t.role = 2 ∧ t.pair.claim = 1 ∧ t.pair.hoAt = some h ∧ t.pair.armed = none) ∧
  (∀ (x : Nat) (s : State), s.pair.failAt = some x → x ≤ s.now → s.role = 1 → s.fbit ProtPairStat.wireIn = true →
    Answers .handoverFail s fun t =>
      t.role = (if s.pair.ownSide = none then 2 else 1) ∧ t.fget ProtPairStat.cmdResult = 3 ∧ t.pair.failAt = none) ∧
  (∀ (o : OutN) (s : State),
    Answers (.roleOutputEnable o) s fun t => (t.outp o).driven = s.wantsDrive o ∧ t.regs = s.regs ∧ t.tim.ins = s.tim.ins) ∧
  (∀ (o : OutN) (short : Bool) (s : State),
    Answers (.contentionDetect o short) s fun t =>
      (t.fget ProtOutCont.cont).testBit o = true ∧ t.fbit ProtPairStat.outCont = true ∧
      (short = true → (t.fget MgmtIoFault.out).testBit o = true) ∧
      t.role = if s.fbit ProtPairStat.side = true ∧ s.role ≠ 0 then 1 else s.role)

/-- Of R465 and R470 to R472: each operation changes the phase where it is legal and is refused with result 2 where it is not, and dusk ends by itself
unless it is held. The end of a digest lap shows its value: with no committed reference it matches nothing; one equal to the reference, with no poison met,
matches, and any other is counted as a mismatch. A commit takes the reference and starts a lap. Of R509 and R516 to R518: clearing zeroes the 16 counters and reads 0, enabling one zeroes it and no other write of its register does. At a boundary not yet
written a telemetry record with room waits whole, a head and the entries of its contents, and one without room is dropped and counted. -/
def Obligations.PhasesAndTelemetry : Prop :=
  (∀ s : State, Answers .dusk s fun t => RegsBut [GlbPhaseCtl.reg, GlbPhase.reg] s t ∧
    if s.fget GlbPhase.phase = 1 then
      t.fget GlbPhase.phase = 2 ∧ t.fget GlbPhase.cause = 3 ∧ t.fget GlbPhase.ctlRes = 1 ∧ t.sys.duskHeld = true
    else t.fget GlbPhase.phase = s.fget GlbPhase.phase ∧ t.fget GlbPhase.ctlRes = 2) ∧
  (∀ s : State, Answers .day s fun t => RegsBut [GlbPhaseCtl.reg, GlbPhase.reg] s t ∧
    if s.fget GlbPhase.phase = 2 ∨ s.fget GlbPhase.phase = 3 then
      t.fget GlbPhase.phase = 1 ∧ t.fget GlbPhase.ctlRes = 1 ∧ t.sys.duskHeld = false
    else t.fget GlbPhase.phase = s.fget GlbPhase.phase ∧ t.fget GlbPhase.ctlRes = 2) ∧
  (∀ s : State, Answers .night s fun t => RegsBut [GlbPhaseCtl.reg, GlbPhase.reg] s t ∧
    if (s.fget GlbPhase.phase = 1 ∨ s.fget GlbPhase.phase = 2) ∧ s.anyAdmitted = false then
      t.fget GlbPhase.phase = 3 ∧ t.fget GlbPhase.ctlRes = 1
    else t.fget GlbPhase.phase = s.fget GlbPhase.phase ∧ t.fget GlbPhase.ctlRes = 2) ∧
  (∀ s : State, s.fget GlbPhase.phase = 2 → s.sys.duskHeld = false →
    s.sys.duskSince + ticksOfNs (s.fget GlbPhaseCfg.duskHoldMs * 1000000) ≤ s.ticks →
    Answers .duskHoldExpiry s fun t => t.fget GlbPhase.phase = 1 ∧ RegsBut [GlbPhase.reg] s t) ∧
  (∀ s : State, s.fbit IntegDigCfg.en = true → s.domOn 5 = true → s.ticks ≠ s.mem.digLapAt →
    Answers .digestLapEnd s fun t => t.fget IntegDigVal.val = s.digest.1 % 2 ^ 32 ∧ t.mem.digLapAt = s.ticks ∧
      if s.fbit IntegDigStat.committed = false then t.fbit IntegDigStat.matchLast = false
      else if s.digest.2.1 = false ∧ s.digest.1 = s.fget IntegDigRef.ref then t.fbit IntegDigStat.matchLast = true ∧ t.mem.digMism = 0
      else t.fbit IntegDigStat.matchLast = false ∧ t.fbit IntegDigStat.mism = true ∧ t.mem.digMism = s.mem.digMism + 1) ∧
  (∀ (value : Word) (s : State),
    Answers (.digestCommit value) s fun t =>
      t.fget IntegDigRef.ref = value.toNat ∧ t.fbit IntegDigStat.committed = true ∧ t.mem.digLapAt = s.ticks ∧ t.mem.digMism = 0 ∧
      RegsBut [IntegDigRef.reg, IntegDigStat.reg] s t) ∧
  (∀ (m : Master) (value : Word) (s s1 : State), PlainWrite s m (PerfCtl.reg (viewPart m)) value.toNat s1 →
    s1.fbit (PerfCtl.clear (viewPart m)) = true →
    Answers (.perfClear m value) s fun t =>
      t.fbit (PerfCtl.clear (viewPart m)) = false ∧ ∀ k < 16, t.ctr .perf (viewPart m) k = 0) ∧
  (∀ (m : Master) (k : BitVec 4) (value : Word) (s s1 : State), PlainWrite s m (PerfCntCfg.reg (viewPart m) k.toNat) value.toNat s1 →
    Answers (.counterEnable m k value) s fun t => t.regs = s1.regs ∧
      if s.fbit (PerfCntCfg.en (viewPart m) k.toNat) = false ∧ s1.fbit (PerfCntCfg.en (viewPart m) k.toNat) = true then
        t.ctr .perf (viewPart m) k.toNat = 0
      else t.counters = s1.counters) ∧
  (∀ (p : Part) (r : RingN) (b n : Nat) (s : State), s.ringIs p r 5 = true → s.domOn 6 = true →
    b = s.now / (s.telPeriod p r * tMs) * (s.telPeriod p r * tMs) → (s.ring p r).telAt < b →
    n = (if (s.telContent p r).testBit 0 then 4 else 0) + (if (s.telContent p r).testBit 1 && p.val == 0 then 1 else 0) +
      (if (s.telContent p r).testBit 2 then ((s.lanesOf p).length + 27) / 28 else 0) →
    Answers (.telemetryRecord p r) s fun t => (t.ring p r).telAt = b ∧
      if s.ringUsed p r + n + 1 ≤ s.ringSize p r then
        (t.ring p r).telSeq = ((s.ring p r).telSeq + 1) % 65536 ∧ (t.ring p r).dropped = 0 ∧
        (t.ring p r).waiting.length = (s.ring p r).waiting.length + n + 1
      else (t.ring p r).waiting = (s.ring p r).waiting ∧ (t.ring p r).dropped = min 65535 ((s.ring p r).dropped + 1))

/-- Of R39, R481, R485, R486, R489, R491, R492 and R496: what each reset of the device leaves: class T memory unwritten, no tributary, the phase DAWN; device
time stays over a soft reset and the boot watchdog, and is 0 after the others. The straps are sampled as a power-on reset is released. The device leaves reset,
once nothing else holds it, with core 0 running in the boot ROM. Domain 4 follows TRST_N. That the device stays in reset after a lost clock until PERST_N rises is the model's choice (log
entry 134). Of R375, R376 and R489: a function-level reset stops the partition, disables its rings and bus mastering, and empties its configuration space; a hot
reset does so for every partition and takes the link down, and lanes and slicer engines go on. -/
def Obligations.Resets : Prop :=
  (∀ s : State, Answers .powerOnReset s fun t =>
    t.sys.porHeld = true ∧ t.clock = 0 ∧ t.tbl = [] ∧ t.tribs = [] ∧ t.lanes = [] ∧ t.fget GlbPhase.phase = 0 ∧ t.ticks = s.ticks) ∧
  (∀ s : State, s.sys.porHeld = true → Answers .powerOnResetRelease s fun t =>
    t.sys.porHeld = false ∧ t.fget GlbStrap.mode = s.sys.pinMode % 4 ∧
    t.inReset = (!s.sys.perstN || s.sys.thermalHold || s.sys.clkLost)) ∧
  (∀ s : State, s.sys.porHeld = true → s.sys.perstN = true → s.sys.thermalHold = false → s.sys.clkLost = false →
    Answers .powerOnResetRelease s fun t => t.coreState 0 = 1 ∧ (t.core 0).pc = 0x80000) ∧
  (∀ s : State, s.sys.perstN = true → Answers .perstAssert s fun t => t.sys.perstN = false ∧ t.inReset = true) ∧
  (∀ s : State, s.sys.perstN = true → s.sys.porHeld = false → s.sys.thermalHold = false →
    Answers .perstAssert s fun t =>
      t.clock = 0 ∧ t.tbl = [] ∧ t.tribs = [] ∧ t.fget GlbPhase.phase = 0 ∧ t.fget GlbStrap.mode = s.fget GlbStrap.mode) ∧
  (∀ s : State, s.sys.perstN = false → s.sys.porHeld = false → s.sys.thermalHold = false →
    Answers .perstRelease s fun t => t.sys.perstN = true ∧ t.coreState 0 = 1 ∧ (t.core 0).pc = 0x80000) ∧
  (∀ s : State, s.inReset = false →
    Answers .softReset s fun t =>
      t.clock = s.clock ∧ t.tbl = [] ∧ t.tribs = [] ∧ t.fget GlbPhase.phase = 0 ∧ t.coreState 0 = 1) ∧
  (∀ s : State, s.inReset = true → Answers .softReset s fun t => t = s) ∧
  (∀ (x : Nat) (s : State), s.sys.wdStart = some x → s.fbit GlbPhase.bootDone = false → x + 120 * sec1 ≤ s.ticks → s.inReset = false →
    Answers .bootWatchdog s fun t =>
      t.sys.wdExpiries = min 15 (s.sys.wdExpiries + 1) ∧ t.clock = s.clock ∧ t.fget GlbPhase.phase = 0 ∧ t.coreState 0 = 1) ∧
  (∀ s : State, Answers .thermalTrip s fun t => t.sys.thermalHold = true ∧ t.inReset = true ∧ t.tbl = [] ∧ t.tribs = []) ∧
  (∀ s : State, Answers .transmitSystemClockLost s fun t => t.sys.clkLost = true ∧ t.inReset = true ∧ t.tbl = [] ∧ t.tribs = []) ∧
  (∀ (high : Bool) (s : State), Answers (.trstNChange high) s fun t => t.sys.trstN = high ∧ t.domOn 4 = high) ∧
  (∀ (p : Part) (s : State),
    Answers (.functionLevelReset p) s fun t =>
      t.fbit (HostStat.running p) = false ∧ t.fbit (HostStat.bme p) = false ∧ (t.part p).msix = [] ∧ (t.part p).d3hot = false ∧
      ∀ r < 64, t.fbit (HostRingCfg.en p r) = false) ∧
  (∀ s : State,
    Answers .hotReset s fun t => t.fbit HostLink.up = false ∧ t.lanes = s.lanes ∧ t.slcs = s.slcs ∧
      ∀ p < 16, t.fbit (HostStat.running p) = false ∧ (t.part p).msix = [] ∧ ∀ r < 64, t.fbit (HostRingCfg.en p r) = false)

/-- Of R476, R477, R482, R484 to R486, R488 and R499: an image is fetched on the host's go, with the watchdog started at a cold boot. Its absence, an image that is not one, a bad record
and a failed check end the boot with their errors 1, 2, 3 and that of the check; an image that passes starts core 0 at its instruction memory. A re-boot where it is accepted
restarts core 0, else only shows its request; boot waits 10 ms for PWRFAIL_N. BOOT_DONE with a map in order begins DAY, in mode 11 NIGHT, and one that is not fails with error 8. A
last gasp says it is done, once. That a check is a free function of the image is the model's (log entries 18 and 19). -/
def Obligations.Boot : Prop :=
  (∀ (m : Master) (value : Word) (x : Nat) (s s1 : State), PlainWrite s m BootHostImgGo.reg value.toNat s1 →
    s1.sys.bootAt = some x → x ≤ s1.ticks → s1.fbit BootHostImgGo.go = true → s1.fget GlbStrap.mode = 0 → s1.fget BootStat.stage = 0 →
    s1.fbit GlbPhase.bootDone = false ∨ s1.sys.warm = true →
    Answers (.hostImageGo m value) s fun t =>
      t.fget BootStat.stage = 1 ∧ t.sys.wdStart = (if s1.sys.warm then s1.sys.wdStart else some s.ticks) ∧
      t.out = .hostRead 0 (s1.fwide (BootHostImg.addr 0) (BootHostImg.addr 1)) (s1.fget BootHostImgLen.len) 1024 :: s1.out) ∧
  (∀ s : State, s.fget BootStat.stage = 1 → s.bootStarted = true →
    Answers (.imageAuthenticate none) s fun t => t.fget BootStat.stage = 5 ∧ t.fget BootStat.err = 1) ∧
  (∀ (all : List Byte) (s : State), s.fget BootStat.stage = 1 → s.bootStarted = true → imageBody all = none →
    Answers (.imageAuthenticate (some all)) s fun t => t.fget BootStat.stage = 5 ∧ t.fget BootStat.err = 2) ∧
  (∀ (all bs : List Byte) (rs : List (Nat × List Byte)) (ok : Bool) (s : State), s.fget BootStat.stage = 1 → s.bootStarted = true →
    imageBody all = some bs → bootRecords bs.length ((bs.take (bs.length - 96)).drop 112) = (rs, ok) →
    Answers (.imageAuthenticate (some all)) s fun t =>
      if ok = false then t.fget BootStat.stage = 5 ∧ t.fget BootStat.err = 3
      else if s.authenticate bs ≠ 0 then t.fget BootStat.stage = 5 ∧ t.fget BootStat.err = s.authenticate bs
      else t.fget BootStat.stage = 3 ∧ (s.coreState 0 = 1 → (t.core 0).pc = 0)) ∧
  (∀ s : State, s.fget GlbPhase.phase = 1 → s.fget GlbStrap.mode = 0 ∨ s.fget GlbStrap.mode = 2 →
    Answers .bootReboot s fun t =>
      t.fbit BootStat.warm = true ∧ t.sys.warm = true ∧ t.coreState 0 = (if s.fbit (SepDbgCtl.haltReq 0) then 4 else 1) ∧
      (t.core 0).pc = 0x80000 ∧ t.fget GlbPhase.phase = 1) ∧
  (∀ s : State, s.fget GlbPhase.phase ≠ 1 ∨ (s.fget GlbStrap.mode ≠ 0 ∧ s.fget GlbStrap.mode ≠ 2) →
    Answers .bootReboot s fun t => t.cores = s.cores ∧ RegsBut [BootReboot.reg] s t) ∧
  (∀ s : State, Answers .pwrfailRise s fun t => t.sys.pwrfailN = true ∧
    t.sys.bootAt = some (match s.sys.bootAt with | some x => x | none => s.ticks + ms10)) ∧
  (∀ s : State, s.fbit GlbPhase.bootDone = false → s.sys.warm = false → s.checkMap = none → s.fget GlbStrap.mode ≠ 3 ∨ s.tribs = [] →
    Answers .bootDone s fun t =>
      t.fbit GlbPhase.bootDone = true ∧ t.fget GlbPhase.phase = (if s.fget GlbStrap.mode = 3 then 3 else 1) ∧ t.fget BootStat.stage = 4 ∧
      t.fbit BootMapStat.inForce = true) ∧
  (∀ (e p : Nat) (s : State), s.fbit GlbPhase.bootDone = false → s.sys.warm = false → s.checkMap = some (e, p) →
    Answers .bootDone s fun t =>
      t.fget GlbPhase.phase = s.fget GlbPhase.phase ∧ t.fget BootStat.stage = 5 ∧ t.fget BootStat.err = 8 ∧
      t.fget BootMapStat.err = e ∧ t.fget BootMapStat.part = p ∧ t.fbit BootMapStat.inForce = false) ∧
  (∀ s : State, s.inReset = false → s.sys.lastGasp = false →
    Answers .lastGasp s fun t =>
      t.sys.lastGasp = true ∧ t.fbit PwrStat.lgDone = true ∧ t.sys.gaspTime = s.now ∧ t.sys.pwrfailN = false ∧
      t.fbit ProtPairStat.wireDrive = false) ∧
  (∀ s : State, s.inReset = true ∨ s.sys.lastGasp = true →
    Answers .lastGasp s fun t => t.regs = s.regs ∧ t.out = s.out ∧ t.sys.pwrfailN = false)

/-- Of R501 to R504: lost attempts on the I2C bus are counted until the transfer is abandoned with the eighth, and a stuck bus is cleared. The enabled sensor's value is
shown, or goes stale with the third failure in a row. The ledger is loaded once, from its newest good slot or as new; it is written with the next sequence, first after a power-on
reset and every 60 min powered. That a good write lies in the slot at once is the model's reading (log entry 139). -/
def Obligations.ManagementPorts : Prop :=
  (∀ s : State, Answers .i2cArbitrationLost s fun t =>
    (s.sys.i2cLost < 7 → t.sys.i2cLost = s.sys.i2cLost + 1 ∧ t.fbit MgmtI2cStat.busy = true) ∧
    (7 ≤ s.sys.i2cLost → t.sys.i2cLost = 0 ∧ t.fbit MgmtI2cStat.busy = false ∧ t.fbit MgmtI2cStat.arbFail = true)) ∧
  (∀ s : State, Answers .i2cStuck s fun t =>
    t.fbit MgmtI2cStat.busy = false ∧ t.fbit MgmtI2cStat.stuck = true ∧ t.out = .i2cClear :: s.out) ∧
  (∀ (v : BitVec 16) (s : State), s.fbit MgmtSens.en = true →
    Answers (.sensorPoll (some v)) s fun t =>
      t.fget MgmtSensVal.temp = v.toNat ∧ t.fbit MgmtSensVal.stale = false ∧ t.sys.sensFails = 0) ∧
  (∀ s : State, s.fbit MgmtSens.en = true →
    Answers (.sensorPoll none) s fun t => t.fget MgmtSensVal.temp = s.fget MgmtSensVal.temp ∧
      t.fbit MgmtSensVal.stale = (s.fbit MgmtSensVal.stale || decide (2 ≤ s.sys.sensFails)) ∧ t.sys.sensFails = min 3 (s.sys.sensFails + 1)) ∧
  (∀ s : State, s.ledgerRuns = true → s.sys.ledgerOn = false → s.ledgerNewest = none →
    Answers .ledgerLoad s fun t =>
      t.sys.ledgerOn = true ∧ t.fbit BootStat.ledgerNew = true ∧ t.sys.powerOns = (if s.sys.coldPower then 1 else 0) ∧
      t.sys.minutes = 0) ∧
  (∀ (bs : List Byte) (s : State), s.ledgerRuns = true → s.sys.ledgerOn = false → s.ledgerNewest = some bs →
    Answers .ledgerLoad s fun t =>
      t.sys.ledgerOn = true ∧ t.sys.ledgerSeq = leAt bs 0 4 ∧ t.sys.powerOns = leAt bs 4 4 + (if s.sys.coldPower then 1 else 0) ∧
      t.sys.minutes = leAt bs 8 4 ∧ t.regs = s.regs) ∧
  (∀ s : State, s.ledgerRuns = true → s.sys.ledgerOn = true →
    s.sys.ledgerFirst = true ∨ s.sys.ledgerAt + 60 * minuteTicks ≤ s.ticks →
    Answers .ledgerWrite s fun t =>
      t.sys.ledgerSeq = (s.sys.ledgerSeq + 1) % 2 ^ 32 ∧ t.sys.ledgerFirst = false ∧ t.sys.ledgerAt = s.ticks ∧ t.regs = s.regs ∧
      ∃ bs, SMap.find t.sys.ledger ((s.sys.ledgerSeq + 1) % 2 ^ 32 % 16) = some bs ∧ slotGood bs = true ∧
        leAt bs 0 4 = (s.sys.ledgerSeq + 1) % 2 ^ 32 ∧
        t.out = .eepromWrite (s.fget MgmtEep.ledgerBase + 64 * ((s.sys.ledgerSeq + 1) % 2 ^ 32 % 16)) bs :: s.out)

/-- Of R308 and R313 to R319: a received cell leaves its queue; a bad cell counts on 2 and one of a reserved kind also on 7, a first fragment is held, one
out of order counts on 5, and a whole message of DISCOVER or TT_STAMP waits for its command. A worker holds the number that a DISCOVER gives it and sends the
next one on; the leading manager ends its own enumeration by it, with result 3 for more than 64 nodes. TIME_DIST, RING and silence decide which ports are
reachable, who leads and whether the ring is intact; which messages a manager counts as another's, and when an old one is given up, are the model's reading
(log entries 61 and 62), as is that a waiting message is taken while the core of its port runs (log entry 59). -/
def Obligations.CascadeRing : Prop :=
  (∀ (c : CellIn) (cs : List CellIn) (v : Nat) (s : State), s.cellsIn = c :: cs → c.payload.toNat = v →
    c.errored = true ∨ v % 256 ≠ 0x33 ∨ cellChk v ≠ v / 2 ^ 60 →
    Answers .cascadeCellRx s fun t =>
      t.cellsIn = cs ∧ t.ctr .cas (c.lane / 2) 2 = (s.ctr .cas (c.lane / 2) 2 + 1) % 2 ^ 48 ∧ t.regs = s.regs ∧ t.cas = s.cas) ∧
  (∀ (c : CellIn) (cs : List CellIn) (v : Nat) (s : State), s.cellsIn = c :: cs → c.errored = false → c.payload.toNat = v → v % 256 = 0x33 →
    cellChk v = v / 2 ^ 60 → kindCells (v / 2 ^ 8 % 16) = 0 →
    Answers .cascadeCellRx s fun t =>
      t.cellsIn = cs ∧ t.ctr .cas (c.lane / 2) 1 = (s.ctr .cas (c.lane / 2) 1 + 1) % 2 ^ 48 ∧
      t.ctr .cas (c.lane / 2) 7 = (s.ctr .cas (c.lane / 2) 7 + 1) % 2 ^ 48 ∧ t.regs = s.regs ∧ t.cas = s.cas) ∧
  (∀ (c : CellIn) (cs : List CellIn) (v : Nat) (s : State), s.cellsIn = c :: cs → c.errored = false → c.payload.toNat = v → v % 256 = 0x33 →
    cellChk v = v / 2 ^ 60 → 1 < kindCells (v / 2 ^ 8 % 16) → v.testBit 27 = false →
    (s.cas.asm.all fun m => m.port != c.lane / 2 || m.kind != v / 2 ^ 8 % 16 || m.src != v / 2 ^ 19 % 64) = true →
    Answers .cascadeCellRx s fun t =>
      t.cellsIn = cs ∧ t.ctr .cas (c.lane / 2) 1 = (s.ctr .cas (c.lane / 2) 1 + 1) % 2 ^ 48 ∧ t.regs = s.regs ∧
      if v / 2 ^ 25 % 4 = 0 then
        t.cas.asm = s.cas.asm ++ [⟨c.lane / 2, v / 2 ^ 8 % 16, v.testBit 12, v / 2 ^ 13 % 64, v / 2 ^ 19 % 64, [v / 2 ^ 28 % 2 ^ 32]⟩]
      else t.cas.asm = s.cas.asm ∧ t.ctr .cas (c.lane / 2) 5 = (s.ctr .cas (c.lane / 2) 5 + 1) % 2 ^ 48) ∧
  (∀ (c : CellIn) (cs : List CellIn) (v : Nat) (s : State), s.cellsIn = c :: cs → c.errored = false → c.payload.toNat = v → v % 256 = 0x33 →
    cellChk v = v / 2 ^ 60 → v / 2 ^ 8 % 16 = 1 → v / 2 ^ 25 % 4 = 0 → v.testBit 27 = true → s.casRole ≠ 0 →
    (s.cas.asm.all fun m => m.port != c.lane / 2 || m.kind != 1 || m.src != v / 2 ^ 19 % 64) = true →
    Answers .cascadeCellRx s fun t =>
      t.cellsIn = cs ∧ t.cas.asm = s.cas.asm ∧
      t.cas.inbox = s.cas.inbox ++ [⟨c.lane / 2, 1, v.testBit 12, v / 2 ^ 13 % 64, v / 2 ^ 19 % 64, [v / 2 ^ 28 % 2 ^ 32]⟩]) ∧
  (∀ (c : CellIn) (cs : List CellIn) (v w0 w1 : Nat) (s : State), s.cellsIn = c :: cs → c.errored = false → c.payload.toNat = v → v % 256 = 0x33 →
    cellChk v = v / 2 ^ 60 → v / 2 ^ 8 % 16 = 3 → v / 2 ^ 25 % 4 = 2 → v.testBit 27 = true → s.casRole ≠ 0 →
    s.cas.asm = [⟨c.lane / 2, 3, v.testBit 12, v / 2 ^ 13 % 64, v / 2 ^ 19 % 64, [w0, w1]⟩] →
    Answers .cascadeCellRx s fun t =>
      t.cellsIn = cs ∧ t.cas.asm = [] ∧
      t.cas.inbox = s.cas.inbox ++
        [⟨c.lane / 2, 3, v.testBit 12, v / 2 ^ 13 % 64, v / 2 ^ 19 % 64, [w0, w1, v / 2 ^ 28 % 2 ^ 32]⟩]) ∧
  (∀ (m : CasMsg) (s s1 : State), s.takeMsg 1 = some (m, s1) → m.port = 0 → s.casRole = 2 →
    Answers .discover s fun t =>
      t.cas.provisional = (if m.word 0 % 128 ≤ 63 then some (m.word 0 / 128 % 16, m.word 0 % 128) else none) ∧
      t.cas.inbox = s.cas.inbox.erase m ∧ t.regs = s.regs ∧
      (s.casBit CasStat.portUp 1 = true → (s.casPort 1).queued + 1 ≤ 1024 →
        (t.casPort 1).queue = (s.casPort 1).queue ++
          [(1, [mkCell 1 false 0 (s.fget CasStat.node) 0 true (m.word 0 / 128 * 128 + min 127 (m.word 0 % 128 + 1))])])) ∧
  (∀ (m : CasMsg) (s s1 : State), s.takeMsg 1 = some (m, s1) → m.port = 0 → s.casRole = 1 → s.fbit CasStat.leading = true →
    s.recent s.cas.enumAt ms1 = true → m.word 0 / 128 % 16 = (s.fget CasStat.gen + 1) % 16 → m.word 0 / 2 ^ 16 = s.fget CasCfg.devId →
    Answers .discover s fun t =>
      t.cas.enumAt = none ∧ t.cas.inbox = s.cas.inbox.erase m ∧
      if 64 < m.word 0 % 128 then t.fget CasStat.enumRes = 3 ∧ RegsBut [CasStat.reg] s t
      else
        t.fget CasStat.enumRes = 1 ∧ t.fget CasStat.gen = m.word 0 / 128 % 16 ∧ t.fget CasStat.ringN = m.word 0 % 128 ∧
        t.fbit CasStat.numbered = true ∧ t.fget CasStat.node = 0 ∧
        ∀ n < 64, t.fbit (CasAgrCtl.present n) = decide (n < m.word 0 % 128)) ∧
  (∀ (m : CasMsg) (s s1 : State), s.takeMsg 1 = some (m, s1) → m.port ≠ 0 →
    Answers .discover s fun t => t.cas.inbox = s.cas.inbox.erase m ∧ t.regs = s.regs ∧ t.cas.enumAt = s.cas.enumAt ∧
      t.cas.provisional = s.cas.provisional) ∧
  (∀ s : State,
    Answers .enumerate s fun t => t.fget CasCtl.op = 1 ∧ RegsBut [CasCtl.reg] s t ∧
      if s.fbit CasStat.leading = true ∧ s.fbit CasCfg.en = true then
        t.cas.enumAt = some s.ticks ∧
        (s.casBit CasStat.portUp 1 = true → (s.casPort 1).queued + 1 ≤ 1024 →
          (t.casPort 1).queue = (s.casPort 1).queue ++
            [(1, [mkCell 1 false 0 (s.fget CasStat.node) 0 true (1 + (s.fget CasStat.gen + 1) % 16 * 2 ^ 7 + s.fget CasCfg.devId * 2 ^ 16)])])
      else t.cas = s.cas) ∧
  (∀ (x : Nat) (s : State), s.cas.enumAt = some x → ms1 ≤ s.since x →
    Answers .enumTimeout s fun t => t.cas.enumAt = none ∧ t.fget CasStat.enumRes = 2 ∧ RegsBut [CasStat.reg] s t) ∧
  (∀ (m : CasMsg) (s s1 : State), s.takeMsg 2 = some (m, s1) → s.casRole = 2 →
    Answers .timeDist s fun t => t.cas.mgrEpoch = some (m.word 1) ∧ (t.casPort m.port).distAt = some s.ticks ∧
      (t.casPort m.port).ringDown = false ∧ t.fget (CasHopStat.hops m.port) = m.word 0 % 64 ∧
      t.fget CasStat.ringN = m.word 0 / 64 % 128 ∧ t.fget CasStat.gen = m.word 0 / 2 ^ 13 % 16 ∧
      t.fbit CasStat.intact = (m.word 0).testBit 17 ∧ t.fget CasMgr.devId = m.word 2 % 2 ^ 16 ∧
      t.casBit CasStat.reach m.port = s.casBit CasStat.portUp m.port ∧
      ∀ g node, s.cas.provisional = some (g, node) → g = m.word 0 / 2 ^ 13 % 16 →
        t.fbit CasStat.numbered = true ∧ t.fget CasStat.node = node % 64) ∧
  (∀ (m : CasMsg) (s s1 : State), s.takeMsg 2 = some (m, s1) → s.casRole = 1 → s1.otherManager m = false →
    Answers .timeDist s fun t => t.ctr .cas m.port 4 = (s.ctr .cas m.port 4 + 1) % 2 ^ 48 ∧
      ((s.cas.tags.any fun e => e.1 == m.word 2 / 65536 && decide (s.since e.2.1 ≤ 31250) && (e.2.2 ||| 2 ^ m.port) == 3) = true →
        t.fbit CasStat.intact = true)) ∧
  (∀ (m : CasMsg) (s s1 : State), s.takeMsg 2 = some (m, s1) → s.casRole = 1 → s1.otherManager m = true →
    Answers .timeDist s fun t => t.cas.inbox = s.cas.inbox.erase m ∧
      if m.word 2 % 65536 ≤ s.fget CasCfg.devId then
        t.fbit CasStat.clash = true ∧ t.fbit CasStat.leading = false ∧ t.fbit CasStat.intact = false ∧
        (if m.word 2 % 65536 = s.fget CasCfg.devId then t.fbit CasMgr.dupId = true ∧ t.cas.noLead = true
         else t.fget CasMgr.devId = m.word 2 % 65536 ∧ t.cas.leaderAt = s.ticks)
      else t.regs = s.regs) ∧
  (∀ s : State, s.leads = true →
    Answers .timeDistSend s fun t =>
      t.cas.lfsr = nextTag s.cas.lfsr ∧ t.cas.tags.head? = some (s.cas.lfsr, s.ticks, 0) ∧ t.regs = s.regs ∧
      ∀ p < 2, s.coreRuns (25 + p) = true → s.casBit CasStat.portUp p = true → (s.casPort p).queued + 3 ≤ 1024 →
        (t.casPort p).queue = (s.casPort p).queue ++ [(2, msgCells 2 true 0 (s.fget CasStat.node)
          [1 + s.fget CasStat.ringN % 128 * 64 + s.fget CasStat.gen * 2 ^ 13 + (if s.fbit CasStat.intact then 2 ^ 17 else 0)
             + s.fget RefselStat.qlOut * 2 ^ 18 + s.fget RefselStat.state * 2 ^ 22,
           s.fget CasEpoch.epoch, s.fget CasCfg.devId + s.cas.lfsr * 2 ^ 16])]) ∧
  (∀ (e : Nat × Nat × Nat) (s : State), s.casRole = 1 →
    s.cas.tags.find? (fun e => decide (31250 < s.since e.2.1) || e.2.2 == 3) = some e →
    Answers .intactTimeout s fun t => if e.2.2 = 3 then t = s else t.fbit CasStat.intact = false ∧ RegsBut [CasStat.reg] s t) ∧
  (∀ s : State,
    Answers .leadTakeover s fun t =>
      if s.casRole = 1 ∧ s.fbit CasCfg.en = true ∧ s.fbit CasStat.leading = false ∧ s.cas.noLead = false ∧ 2 * ms1 ≤ s.since s.cas.leaderAt then
        t.fbit CasStat.leading = true ∧ t.fbit CasStat.clash = false ∧ t.fget CasMgr.devId = s.fget CasCfg.devId ∧
        RegsBut [CasStat.reg, CasMgr.reg] s t ∧
        (if s.fbit CasStat.intact then t.cas.enumAt = some s.ticks else t.cas.enumWhenIntact = true)
      else t = s) ∧
  (∀ (m : CasMsg) (s s1 : State), s.takeMsg 8 = some (m, s1) →
    Answers .ring s fun t => t.cas.inbox = s.cas.inbox.erase m ∧
      if m.word 0 % 2 = 1 then t.casBit CasStat.reach m.port = false ∧ (t.casPort m.port).ringDown = true
      else t.regs = s.regs) ∧
  (∀ (p : CasPort) (s : State),
    Answers (.reachTimeout p) s fun t =>
      if s.casBit CasStat.reach p = true ∧ s.recent (s.casPort p).distAt 78125 = false then t.casBit CasStat.reach p = false else t = s) ∧
  (∀ (x : Nat) (s : State), s.cas.fewerSince = some x → s.casRole = 2 → sec1 ≤ s.since x →
    Answers .upstreamRevert s fun t => t.fget CasStat.upPort = 1 - s.fget CasStat.upPort ∧ t.fbit CasStat.upValid = true) ∧
  (∀ (m : CasMsg) (s s1 : State), s.takeMsg 9 = some (m, s1) →
    Answers .msg s fun t => t.cas.msgs = s.cas.msgs ++ [m] ∧ t.cas.inbox = s.cas.inbox.erase m ∧ t.regs = s.regs)

/-- Of R320 to R323: after 16 multiframes a port sends the forward difference it holds of each lane; a neighbour's difference is held for its lane,
and where both pairings of the chosen set are then there the port has a valid result: the mean of the two with its correction, saturated to 32 bits (the
statement says the value where the mean is whole; else its rounding is open). On the upstream port of a worker it judges the seconds. A port without a valid
result for 500 us is not valid; with the upstream port so, with none, or in another role, input 14 has an activity fault. Of R330 and R331: at each whole millisecond the leading manager keeps its own report and a numbered worker with an upstream port sends its own; the
leading manager holds the words of what it hears. It judges at most once a boundary, 500 us after it: a node that it does not judge keeps its state. A node
that has reported nothing for the boundary disagrees as silent, and one whose report of it has the manager's own epoch of the boundary, no digest
mismatch and no unexpected reference has no cause. -/
def Obligations.TransferAndReports : Prop :=
  (∀ (p : CasPort) (s : State), 16 ≤ (s.casPort p).sinceStamp → s.coreRuns (25 + p) = true →
    Answers (.ttStampSend p) s fun t => (t.casPort p).sinceStamp = 0 ∧ t.regs = s.regs ∧ (t.casPort p).fwd = (s.casPort p).fwd) ∧
  (∀ (p : CasPort) (r0 r1 : TtRec) (s : State), 16 ≤ (s.casPort p).sinceStamp → s.coreRuns (25 + p) = true →
    (s.casPort p).fwd.find? (fun r => r.lane == 0) = some r0 → (s.casPort p).fwd.find? (fun r => r.lane == 1) = some r1 →
    s.casBit CasStat.portUp p = true → (s.casPort p).queued + 6 ≤ 1024 →
    Answers (.ttStampSend p) s fun t => (t.casPort p).queue = (s.casPort p).queue ++
      [(3, msgCells 3 false 0 (s.fget CasStat.node) [r0.seq * 2 ^ 16, ofSigned 64 r0.diff % 2 ^ 32, ofSigned 64 r0.diff / 2 ^ 32]),
       (3, msgCells 3 false 0 (s.fget CasStat.node) [1 + r1.seq * 2 ^ 16, ofSigned 64 r1.diff % 2 ^ 32, ofSigned 64 r1.diff / 2 ^ 32])]) ∧
  (∀ (m : CasMsg) (s s1 : State), s.takeMsg 3 = some (m, s1) →
    Answers .ttStamp s fun t => t.cas.inbox = s.cas.inbox.erase m ∧
      (t.casPort m.port).rev.head?.map (fun r => (r.lane, r.seq, r.diff)) = some (m.word 0 % 2, m.word 0 / 65536, m.wide 1) ∧
      ∀ a b, (t.pairings m.port).1 = [some a, some b] →
        t.fbit (CasHopStat.valid m.port) = true ∧ (t.casPort m.port).resultAt = some s.ticks ∧
        ((a.1 + b.1) % 4 = 0 → toSigned 32 (t.fget (CasHopOff.off m.port)) =
          max (-2147483648) (min 2147483647 ((a.1 + b.1) / 4 + toSigned 32 (s.fget (CasHopCorr.corr m.port)))) ∧
         (s.casRole = 2 → s.fbit CasStat.upValid = true → s.fget CasStat.upPort = m.port →
          t.fbit CasStat.secErr = decide ((2 * ((a.1 + b.1) / 4 + toSigned 32 (s.fget (CasHopCorr.corr m.port))) + tSec) / (2 * (tSec : Int)) ≠ 0)))) ∧
  (∀ s : State,
    Answers .timeTransferTimeout s fun t =>
      t.fbit (CasHopStat.valid 0) = (s.fbit (CasHopStat.valid 0) && s.recent (s.casPort 0).resultAt 78125) ∧
      t.fbit (CasHopStat.valid 1) = (s.fbit (CasHopStat.valid 1) && s.recent (s.casPort 1).resultAt 78125) ∧
      (s.casRole ≠ 2 ∨ s.fbit CasStat.upValid = false ∨ s.recent (s.casPort (s.fget CasStat.upPort)).resultAt 78125 = false →
        t.fbit (RefselInStat.actFault 14) = true)) ∧
  (∀ s : State, s.cas.reportedMs < s.now / tMs →
    Answers .reportSend s fun t =>
      t.cas.reportedMs = s.now / tMs ∧ t.regs = s.regs ∧
      (s.casRole = 1 → s.fbit CasStat.leading = true →
        (SMap.getD t.cas.reports 0 []).head? = some (s.now / tMs, s.reportWords (s.now / tMs))) ∧
      (s.casRole = 2 ∧ s.fbit CasStat.numbered = true ∧ s.fbit CasStat.upValid = true ∧ s.coreRuns (25 + s.fget CasStat.upPort) = true ∧
        s.casBit CasStat.portUp (s.fget CasStat.upPort) = true ∧ (s.casPort (s.fget CasStat.upPort)).queued + 4 ≤ 1024 →
        (t.casPort (s.fget CasStat.upPort)).queue = (s.casPort (s.fget CasStat.upPort)).queue ++
          [(4, msgCells 4 false 0 (s.fget CasStat.node) (s.reportWords (s.now / tMs)))])) ∧
  (∀ s : State, s.now / tMs ≤ s.cas.reportedMs → Answers .reportSend s fun t => t = s) ∧
  (∀ (m : CasMsg) (s s1 : State), s.takeMsg 4 = some (m, s1) → m.src < 64 →
    Answers .report s fun t => t.cas.inbox = s.cas.inbox.erase m ∧
      if s.fbit CasStat.leading = true then
        (SMap.getD t.cas.reports m.src []).head?.map Prod.snd = some m.words ∧
        t.fget (CasAgrWord.word m.src 0) = m.word 0 % 2 ^ 32 ∧ t.fget (CasAgrWord.word m.src 1) = m.word 1 % 2 ^ 32 ∧
        t.fget (CasAgrWord.word m.src 2) = m.word 2 % 2 ^ 32 ∧ t.fget (CasAgrWord.word m.src 3) = m.word 3 % 2 ^ 32
      else t.regs = s.regs ∧ t.cas.reports = s.cas.reports) ∧
  (∀ s : State,
    Answers .agreementJudge s fun t => t.cas.reports = s.cas.reports ∧
      if s.fbit CasStat.leading = true ∧ s.cas.judgedMs < (s.now - 500 * tUs) / tMs then
        t.cas.judgedMs = (s.now - 500 * tUs) / tMs ∧
        ∀ n < 64,
          if s.fbit (CasAgrCtl.present n) = true ∧ s.fbit (CasAgrCtl.ignore n) = false then
            (t.fget (CasAgrCtl.cause n) ≠ 0 → t.fbit (CasAgrCtl.disagree n) = true) ∧
            ((SMap.getD s.cas.reports n []) = [] → t.fget (CasAgrCtl.cause n) = 1) ∧
            (∀ e d q x, (SMap.getD s.cas.reports 0 []).head? = some ((s.now - 500 * tUs) / tMs, [e, d, q, x]) →
              ∀ d' q' x', (SMap.getD s.cas.reports n []).head? = some ((s.now - 500 * tUs) / tMs, [e, d', q', x']) → x'.testBit 13 = false →
                s.fget (CasAgrExp.exp n) = 0 ∨ s.fget (CasAgrExp.exp n) = q' → t.fget (CasAgrCtl.cause n) = 0)
          else t.rget (CasAgrCtl.reg n) = s.rget (CasAgrCtl.reg n)
      else t = s)

/-- Of R181, R182 and R325 to R329: a legal proposal of the leading manager is pending and leaves until its commit point C, where the manager decides by
its own readiness and the reports; an illegal one has result 6, one of a device that may not propose 7. A worker records a proposal and its first decision
for it. An armed device activates the epoch at T, a pending one without a decision does not. The EPOCH action of a stand-alone device that is ready
activates the staged epoch, and is missed on any other; a standby follows its active peer (both as log entry 65 reads them), and a worker adopts its
manager's epoch. A cancel before C ends the proposal with result 5, one after C changes nothing (log entry 63). -/
def Obligations.Epochs : Prop :=
  (∀ s : State,
    Answers (.propose false) s fun t => t.fget CasCtl.op = 2 ∧ RegsBut [CasCtl.reg, CasPropStat.reg, CasStageCtl.reg] s t ∧
      if s.leads = false ∨ s.fbit CasStat.clash = true ∨ s.role = 1 then t.fget CasPropStat.result = 7 ∧ t.cas = s.cas
      else if s.fbit CasStageCtl.pending = true ∨ s.fget CasPropE.epoch ≠ (s.fget CasEpoch.epoch + 1) % 2 ^ 32 ∨ malformed s.propWord = true ∨
          timeOf s.propWord < s.now + 20 * tMs ∨ s.now + 60 * tSec < timeOf s.propWord then
        t.fget CasPropStat.result = 6 ∧ t.cas = s.cas
      else
        t.fget CasPropStat.result = 1 ∧ t.fbit CasStageCtl.pending = true ∧ t.fbit CasStageCtl.armed = false ∧
        t.cas.propE = s.fget CasPropE.epoch ∧ t.cas.propT = timeOf s.propWord ∧ t.cas.propSent = s.ticks ∧ t.cas.decision = none ∧
        ∀ p < 2, s.casBit CasStat.portUp p = true → (s.casPort p).queued + 4 ≤ 1024 →
          (t.casPort p).queue = (s.casPort p).queue ++ [(5, msgCells 5 true 0 (s.fget CasStat.node)
            [s.fget CasPropE.epoch, timeWord (timeOf s.propWord) % 2 ^ 32, timeWord (timeOf s.propWord) / 2 ^ 32 % 2 ^ 32,
             timeWord (timeOf s.propWord) / 2 ^ 64])]) ∧
  (∀ (m : CasMsg) (s s1 : State), s.takeMsg 5 = some (m, s1) → s.casRole = 2 →
    s.fbit CasStageCtl.pending = false ∨ s.cas.propE ≠ m.word 0 →
    Answers (.propose true) s fun t =>
      t.fbit CasStageCtl.pending = true ∧ t.fbit CasStageCtl.armed = false ∧ t.cas.propE = m.word 0 ∧ t.cas.decision = none ∧
      t.cas.propT = timeOf (m.word 1 + m.word 2 * 2 ^ 32 + m.word 3 * 2 ^ 64) ∧ RegsBut [CasStageCtl.reg] s t) ∧
  (∀ s : State,
    Answers .proposeSend s fun t => t.regs = s.regs ∧
      if s.leads = true ∧ s.fget CasPropStat.result = 1 ∧ s.now < s.commitAt ∧ ms1 ≤ s.since s.cas.propSent then t.cas.propSent = s.ticks
      else t = s) ∧
  (∀ s : State, s.fget CasPropStat.result = 1 → s.commitAt ≤ s.now → s.cas.decision = none →
    Answers .commitPoint s fun t => RegsBut [CasPropStat.reg, CasStageCtl.reg] s t ∧ t.cas.decisionSent = s.ticks ∧
      t.cas.decision = some (s.readyFor s.cas.propE && s.allReady) ∧
      t.fget CasPropStat.result = (if s.readyFor s.cas.propE && s.allReady then 2 else 4) ∧
      t.fbit CasStageCtl.armed = (s.readyFor s.cas.propE && s.allReady) ∧
      (s.readyFor s.cas.propE = false ∨ s.allReady = false → t.fbit CasStageCtl.pending = false)) ∧
  (∀ s : State, s.fget CasPropStat.result ≠ 1 ∨ s.now < s.commitAt → Answers .commitPoint s fun t => t = s) ∧
  (∀ (go : Bool) (s : State), s.cas.decision = some go →
    Answers .decideSend s fun t => t.regs = s.regs ∧
      if s.leads = true ∧ (s.fget CasPropStat.result = 2 ∨ s.fget CasPropStat.result = 4) ∧ s.commitAt ≤ s.now ∧ s.now + tMs ≤ s.cas.propT ∧
          15625 ≤ s.since s.cas.decisionSent then t.cas.decisionSent = s.ticks
      else t = s) ∧
  (∀ (m : CasMsg) (s s1 : State), s.takeMsg 6 = some (m, s1) →
    Answers .decide s fun t => t.ctr .cas m.port 10 = (s.ctr .cas m.port 10 + 1) % 2 ^ 48 ∧ RegsBut [CasStageCtl.reg] s t ∧
      if s.casRole = 2 ∧ s.fbit CasStageCtl.pending = true ∧ s.cas.propE = m.word 0 ∧ s.cas.decision = none then
        t.cas.decision = some (m.word 1 % 2 == 1) ∧ (m.word 1 % 2 = 1 → t.fbit CasStageCtl.armed = true) ∧
        (m.word 1 % 2 = 0 → t.fbit CasStageCtl.pending = false ∧ t.fbit CasStageCtl.aborted = true)
      else t.cas.decision = s.cas.decision ∧ t.regs = s.regs) ∧
  (∀ s : State,
    Answers .epochActivate s fun t =>
      if s.fbit CasStageCtl.pending = true ∧ s.cas.propT ≤ s.now then
        t.fbit CasStageCtl.pending = false ∧
        (s.fbit CasStageCtl.armed = true → t.fget CasEpoch.epoch = s.cas.propE % 2 ^ 32 ∧ t.fbit CasStageCtl.armed = false ∧
          t.fbit CasStageCtl.ready = false ∧ (s.casRole = 1 → t.fget CasPropStat.result = 3)) ∧
        (s.fbit CasStageCtl.armed = false → t.fbit CasStageCtl.noDecision = true ∧ RegsBut [CasStageCtl.reg] s t)
      else t = s) ∧
  (∀ (w : WinN) (k : Nat) (s : State), s.actionDue w 3 = some k → s.dueActions.filter (fun e => firesBefore e (s.occStart w k, w)) = [(s.occStart w k, w.val)] →
    s.epochFirst (s.occStart w k) = s → s.domOn 3 = true → s.casRole = 0 →
    s.readyFor (s.fget CasStage.epoch) = true → s.timingRole = true → s.winOwner w = 0 →
    Answers (.epoch w) s fun t => t.fget CasEpoch.epoch = s.fget CasStage.epoch ∧ (t.winSt w).nextOcc = k + 1) ∧
  (∀ (w : WinN) (k : Nat) (s : State), s.actionDue w 3 = some k → s.dueActions.filter (fun e => firesBefore e (s.occStart w k, w)) = [(s.occStart w k, w.val)] →
    s.epochFirst (s.occStart w k) = s →
    s.domOn 3 = false ∨ s.casRole ≠ 0 ∨ s.readyFor (s.fget CasStage.epoch) = false ∨ s.timingRole = false ∨ s.winOwner w ≠ 0 →
    Answers (.epoch w) s fun t => t.fget CasEpoch.epoch = s.fget CasEpoch.epoch ∧ (t.winSt w).nextOcc = k + 1 ∧
      t.fget (TimeActMiss.count (s.winOwner w)) = (s.fget (TimeActMiss.count (s.winOwner w)) + 1) % 2 ^ 32) ∧
  (∀ (x : Nat) (s : State), s.pair.lastGood = some x →
    Answers .pairEpochFollow s fun t =>
      if s.casRole = 0 ∧ s.role = 1 ∧ s.fget ProtPairStat.peerRole = 1 ∧ s.readyFor (s.fget (ProtPairHb.frame 1)) = true ∧
          ((s.now - s.since x * tickFifths / 5) / tMs + 1) * tMs ≤ s.now then t.fget CasEpoch.epoch = s.fget (ProtPairHb.frame 1)
      else t = s) ∧
  (∀ s : State,
    Answers .cancel s fun t => t.fget CasCtl.op = 3 ∧
      if s.leads = true ∧ s.fget CasPropStat.result = 1 ∧ s.now < s.commitAt then
        t.fget CasPropStat.result = 5 ∧ t.fbit CasStageCtl.pending = false ∧ t.fbit CasStageCtl.armed = false ∧
        t.cas.decision = some false ∧ t.cas.decisionSent = s.ticks ∧ RegsBut [CasCtl.reg, CasPropStat.reg, CasStageCtl.reg] s t
      else t.cas = s.cas ∧ RegsBut [CasCtl.reg] s t) ∧
  (∀ (e : Nat) (s : State), s.cas.mgrEpoch = some e → e < 2 ^ 32 →
    Answers .adopt s fun t => t.fget CasCtl.op = 4 ∧
      if s.casRole = 2 ∧ s.fget CasEpoch.epoch ≠ e then t.fget CasEpoch.epoch = e
      else t.cas = s.cas ∧ RegsBut [CasCtl.reg] s t)

/-- Of R175, R456 and R457: a request of an item that is defined clears valid and takes a snapshot of it, whatever the mailbox: a counter of a lane is
snapshot as its 48-bit value, a lag probe as the whole nanoseconds below and above. A lag probe without an observed unit never becomes valid, and a request
of 0 to REFSEL_DCO_RD_REQ takes no snapshot (log entries 142 and 145). A snapshot that waits becomes valid unchanged; the read of the last value word
answers it and clears valid, but not for a master that peeks. -/
def Obligations.Mailboxes : Prop :=
  (∀ (m : Master) (n : Lane) (req : Word) (s : State), Reached s m (mailboxKey (viewPart m) (.laneCnt n)) →
    s.mailDefined m (.laneCnt n) (req.toNat &&& mbxMask (.laneCnt n)) = true →
    Answers (.mailboxRequest m (.laneCnt n) req) s fun t =>
      (t.mailOf m (.laneCnt n)).valid = false ∧ (t.mailOf m (.laneCnt n)).waiting = true ∧
      (t.mailOf m (.laneCnt n)).words = counterWords (s.ctr .lane n (req.toNat % 64)) ∧ t.regs = s.regs) ∧
  (∀ (m : Master) (b : Mailbox) (req : Word) (s : State), b ≠ .timeLag → b ≠ .dcoRd → Reached s m (mailboxKey (viewPart m) b) →
    s.mailDefined m b (req.toNat &&& mbxMask b) = true →
    Answers (.mailboxRequest m b req) s fun t => (t.mailOf m b).valid = false ∧ (t.mailOf m b).waiting = true ∧
      (t.mailOf m b).req = req.toNat &&& mbxMask b ∧ t.regs = s.regs) ∧
  (∀ (m : Master) (req : Word) (s : State), Reached s m (mailboxKey (viewPart m) .dcoRd) →
    Answers (.mailboxRequest m .dcoRd req) s fun t => t.regs = s.regs ∧
      if req.toNat % 2 = 1 then (t.mailOf m .dcoRd).valid = false ∧ (t.mailOf m .dcoRd).waiting = true ∧
        (t.mailOf m .dcoRd).words = BitVec.ofInt 32 s.tim.d :: BitVec.ofNat 32 (ofSigned 40 s.tim.d / 2 ^ 32) :: timeWords s.tim.dAt
      else (t.mailOf m .dcoRd).words = (s.mailOf m .dcoRd).words ∧ (t.mailOf m .dcoRd).valid = (s.mailOf m .dcoRd).valid) ∧
  (∀ (m : Master) (req : Word) (x : Nat) (lo hi : Int) (s : State), Reached s m (mailboxKey (viewPart m) .timeLag) →
    s.namedTrib m (req.toNat % 2 ^ 12) = some x → (s.trib x).lag = some (lo, hi) →
    Answers (.lagProbeRequest m req) s fun t =>
      (t.mailOf m .timeLag).words = [lagNs false lo, lagNs true hi] ∧ (t.mailOf m .timeLag).waiting = true ∧
      (t.mailOf m .timeLag).valid = false ∧ (t.trib x).lag = none) ∧
  (∀ (m : Master) (req : Word) (x : Nat) (s : State), Reached s m (mailboxKey (viewPart m) .timeLag) →
    s.namedTrib m (req.toNat % 2 ^ 12) = some x → (s.trib x).lag = none →
    Answers (.lagProbeRequest m req) s fun t =>
      (t.mailOf m .timeLag).waiting = false ∧ (t.mailOf m .timeLag).valid = false ∧ (t.trib x).lag = none) ∧
  (∀ (m : Master) (b : Mailbox) (s : State),
    Answers (.mailboxSnapshotReady m b) s fun t =>
      (t.mailOf m b).words = (s.mailOf m b).words ∧ t.regs = s.regs ∧
      (t.mailOf m b).valid = ((s.mailOf m b).valid || (s.mailOf m b).waiting)) ∧
  (∀ (m : Master) (b : Mailbox) (s : State), s.deaf m = false → s.reaches m (mailboxKey (viewPart m) b) = true →
    Answers (.mailboxLastRead m b) s fun t =>
      (t.mailOf m b).valid = (s.peeks m && (s.mailOf m b).valid) ∧ (t.mailOf m b).words = (s.mailOf m b).words ∧
      t.out = .readData m (s.mailWord m b (mbxCount b - 1)) :: s.out ∧ t.regs = s.regs)

/-- R18: the reads with a side effect answer the register as it was and clear or restart what they read: R93, R114, R167, R182, R344, R422, R445, R461,
R479 and R518. -/
def Obligations.ReadsWithSideEffects : Prop :=
  (∀ (m : Master) (n : Lane) (s : State), s.deaf m = false → s.peeks m = false → s.reaches m (LaneDefIvl.reg n) = true → m = laneCore n →
    Answers (.laneDefIvlRead m n) s fun t =>
      t.out.head? = some (.readData m (s.rget (LaneDefIvl.reg n))) ∧ t.fget (LaneDefIvl.ivl n) = s.fget (LaneDef.defs n) % 256) ∧
  (∀ (m : Master) (n : Lane) (s : State), s.deaf m = false → s.peeks m = false → s.reaches m (LaneDskStat.reg n) = true →
    Answers (.deskewStatRead m n) s fun t =>
      t.out.head? = some (.readData m (s.rget (LaneDskStat.reg n))) ∧ t.fget (LaneDskStat.fillMin n) = s.fget (LaneDskStat.fill n) ∧
      t.fget (LaneDskStat.fillMax n) = s.fget (LaneDskStat.fill n)) ∧
  (∀ (m : Master) (n : Lane) (s : State), s.deaf m = false → s.peeks m = false → s.reaches m (LaneEthUnm.reg n) = true →
    Answers (.ethUnmatchedRead m n) s fun t =>
      t.out.head? = some (.readData m (s.rget (LaneEthUnm.reg n))) ∧ t.fget (LaneEthUnm.count n) = 0) ∧
  (∀ (m : Master) (s : State), s.deaf m = false → s.peeks m = false → s.reaches m (TimeActMiss.reg (viewPart m)) = true →
    Answers (.actionMissRead m) s fun t =>
      t.out.head? = some (.readData m (s.rget (TimeActMiss.reg (viewPart m)))) ∧ t.fget (TimeActMiss.count (viewPart m)) = 0) ∧
  (∀ (m : Master) (s : State), s.deaf m = false → s.peeks m = false → s.reaches m (HostUrgLog.reg (viewPart m)) = true →
    Answers (.urgentLogRead m) s fun t =>
      t.out.head? = some (.readData m (s.rget (HostUrgLog.reg (viewPart m)))) ∧ t.fbit (HostUrgLog.valid (viewPart m)) = false) ∧
  (∀ (m : Master) (s : State), s.deaf m = false → s.peeks m = false → s.reaches m (HostCtoLog.reg (viewPart m)) = true →
    Answers (.ctoLogRead m) s fun t =>
      t.out.head? = some (.readData m (s.rget (HostCtoLog.reg (viewPart m)))) ∧ t.fbit (HostCtoLog.valid (viewPart m)) = false) ∧
  (∀ (m : Master) (s : State), s.deaf m = false → s.peeks m = false → s.reaches m MemLog1.reg = true →
    Answers (.memLogRead m) s fun t =>
      t.out.head? = some (.readData m (s.rget MemLog1.reg)) ∧ t.fbit MemLog0.valid = false) ∧
  (∀ (m : Master) (s : State), s.deaf m = false → s.peeks m = false → s.reaches m (IntegBuserr1.reg (viewPart m)) = true →
    Answers (.buserrLogRead m false) s fun t =>
      t.out.head? = some (.readData m (s.rget (IntegBuserr1.reg (viewPart m)))) ∧ t.fbit (IntegBuserr0.valid (viewPart m)) = false) ∧
  (∀ (m : Master) (s : State), s.deaf m = false → s.peeks m = false → s.reaches m (IntegDwlog1.reg (viewPart m)) = true →
    Answers (.buserrLogRead m true) s fun t =>
      t.out.head? = some (.readData m (s.rget (IntegDwlog1.reg (viewPart m)))) ∧
      t.fget (IntegDwlog0.word (viewPart m)) = s.fget (IntegDwlog0.word (viewPart m)) % 2 ^ 15) ∧
  (∀ (m : Master) (s : State), s.deaf m = false → s.peeks m = false → s.reaches m (IntegDwlogCnt.reg (viewPart m)) = true →
    Answers (.errorCountRead m true) s fun t =>
      t.out.head? = some (.readData m (s.rget (IntegDwlogCnt.reg (viewPart m)))) ∧ t.fget (IntegDwlogCnt.count (viewPart m)) = 0) ∧
  (∀ (m : Master) (s : State), s.deaf m = false → s.peeks m = false → s.reaches m (IntegBuserrCnt.reg (viewPart m)) = true →
    Answers (.errorCountRead m false) s fun t =>
      t.out.head? = some (.readData m (s.rget (IntegBuserrCnt.reg (viewPart m)))) ∧ t.fget (IntegBuserrCnt.count (viewPart m)) = 0) ∧
  (∀ (m : Master) (c : CoreN) (s : State), s.deaf m = false → s.peeks m = false → s.reaches m (SepFifoCnt.reg c) = true →
    Answers (.fifoCountRead m c) s fun t =>
      t.out.head? = some (.readData m (s.rget (SepFifoCnt.reg c))) ∧ t.rget (SepFifoCnt.reg c) = 0) ∧
  (∀ (m : Master) (s : State), s.deaf m = false → s.peeks m = false → s.reaches m (PerfVtStat.reg (viewPart m)) = true →
    Answers (.vtStatRead m) s fun t =>
      t.out.head? = some (.readData m (s.rget (PerfVtStat.reg (viewPart m)))) ∧ t.fget (PerfVtStat.lost (viewPart m)) = 0 ∧
      t.fget (PerfVtStat.skipped (viewPart m)) = 0) ∧
  (∀ (m : Master) (s : State), s.deaf m = false → s.peeks m = false → s.reaches m PerfPaceMin.reg = true →
    Answers (.paceExtremeRead m false) s fun t =>
      t.out.head? = some (.readData m (s.rget PerfPaceMin.reg)) ∧ t.fget PerfPaceMin.period = s.fget PerfPaceNow.period) ∧
  (∀ (m : Master) (s : State), s.deaf m = false → s.peeks m = false → s.reaches m PerfPaceMax.reg = true →
    Answers (.paceExtremeRead m true) s fun t =>
      t.out.head? = some (.readData m (s.rget PerfPaceMax.reg)) ∧ t.fget PerfPaceMax.period = s.fget PerfPaceNow.period)

/-- Of R380, R382 and R390: an arithmetic instruction or LUI writes its result to rd, goes on at pc + 4 and counts one step, MUL two; x0
reads 0, a write to it is discarded, and a write to another register changes that one only. -/
def Obligations.SepiaArithmetic : Prop :=
  ∀ (c : CoreN) (rd ra rb : XReg) (imm : BitVec 18) (sh : BitVec 5) (top : BitVec 14) (s : State),
    let q := s.core c
    let a := s.xreg c ra
    let b := s.xreg c rb
    let does (i : Instr) (w v : Word) (n : Nat) : Prop :=
      CoreReady s c w → Answers i s fun t => t.core c = (q.setReg rd v).passed n (q.pc + 4) ∧ OnlyCore c s t
    does (.add c rd ra rb) (encA 0x01 rd ra rb) (a + b) 1 ∧
    does (.sub c rd ra rb) (encA 0x02 rd ra rb) (a - b) 1 ∧
    does (.and c rd ra rb) (encA 0x03 rd ra rb) (a &&& b) 1 ∧
    does (.or c rd ra rb) (encA 0x04 rd ra rb) (a ||| b) 1 ∧
    does (.xor c rd ra rb) (encA 0x05 rd ra rb) (a ^^^ b) 1 ∧
    does (.shl c rd ra rb) (encA 0x06 rd ra rb) (a <<< (b.toNat % 32)) 1 ∧
    does (.shr c rd ra rb) (encA 0x07 rd ra rb) (a >>> (b.toNat % 32)) 1 ∧
    does (.sra c rd ra rb) (encA 0x08 rd ra rb) (a.sshiftRight (b.toNat % 32)) 1 ∧
    does (.mul c rd ra rb) (encA 0x09 rd ra rb) (a * b) 2 ∧
    does (.slt c rd ra rb) (encA 0x0A rd ra rb) (if a.toInt < b.toInt then 1 else 0) 1 ∧
    does (.sltu c rd ra rb) (encA 0x0B rd ra rb) (if a.toNat < b.toNat then 1 else 0) 1 ∧
    does (.addi c rd ra imm) (encI 0x10 rd ra imm.toNat) (a + imm.signExtend 32) 1 ∧
    does (.andi c rd ra imm) (encI 0x11 rd ra imm.toNat) (a &&& imm.zeroExtend 32) 1 ∧
    does (.ori c rd ra imm) (encI 0x12 rd ra imm.toNat) (a ||| imm.zeroExtend 32) 1 ∧
    does (.xori c rd ra imm) (encI 0x13 rd ra imm.toNat) (a ^^^ imm.zeroExtend 32) 1 ∧
    does (.shli c rd ra sh) (encI 0x14 rd ra sh.toNat) (a <<< sh.toNat) 1 ∧
    does (.shri c rd ra sh) (encI 0x15 rd ra sh.toNat) (a >>> sh.toNat) 1 ∧
    does (.srai c rd ra sh) (encI 0x16 rd ra sh.toNat) (a.sshiftRight sh.toNat) 1 ∧
    does (.lui c rd top) (encI 0x17 rd 0 top.toNat) (top.zeroExtend 32 <<< 18) 1 ∧
    s.xreg c 0 = 0 ∧ (q.setReg 0 a = q) ∧ (rd ≠ 0 → (q.setReg rd a).reg rd = a) ∧ ∀ i : XReg, i ≠ rd → (q.setReg rd a).reg i = q.reg i

/-- Of R383, R384, R390, R396 and R398: where no store to its region waits, a load from instruction or data memory brings its 4, 2 or 1 bytes,
zero-extended, to rd, and inside a sequence the bytes of the newest held store where that covers just them; LDW also loads the boot ROM, whose content is open,
and registers of the control bus, here SEP_MBOX_IN of any core. A store outside a sequence with room in the write buffer waits there, to the bus only STW,
and one to memory inside a sequence is held by it, up to 16. -/
def Obligations.SepiaMemory : Prop :=
  ∀ (c : CoreN) (r ra : XReg) (off : BitVec 18) (g : Region) (s : State),
    let q := s.core c
    let a := memAddr (s.xreg c ra) off
    let mem : Prop := g = .instr ∨ g = .data
    let clear : Prop := ∀ x ∈ q.wbuf, (regionOf c x.addr).map Region.order ≠ some g.order
    let loads (i : Instr) (w : Word) (n : Nat) : Prop :=
      CoreReady s c w → mem → regionOf c a = some g → a.toNat % n = 0 → clear →
      (∀ v, (∀ t, q.atom = some t → ∀ i < n, t.covering (a.toNat + i) = none) → s.tpeekN (memOffset c g a) n = some v →
        Answers i s fun t => t.core c = (q.setReg r (BitVec.ofNat 32 v)).passed 1 (q.pc + 4) ∧ OnlyCore c s t) ∧
      ∀ t bs p xs, q.atom = some t → t.stores = ⟨a, bs, p⟩ :: xs → bs.length = n →
        Answers i s fun t => t.core c = (q.setReg r (BitVec.ofNat 32 (ofLe bs))).passed 1 (q.pc + 4) ∧ OnlyCore c s t
    let stores (i : Instr) (w : Word) (n : Nat) : Prop :=
      CoreReady s c w → regionOf c a = some g → a.toNat % n = 0 →
      (q.atom = none → mem ∨ g = .bus ∧ n = 4 → q.wbuf.length < 4 →
        Answers i s fun t =>
          t.core c = ({ q with wbuf := q.wbuf ++ [(⟨a, leBytes n (s.xreg c r).toNat, q.pc⟩ : Store)] } : CoreSt).passed 1 (q.pc + 4) ∧
          OnlyCore c s t) ∧
      ∀ x, q.atom = some x → mem → x.stores.length < 16 →
        Answers i s fun t =>
          t.core c = ({ q with atom := some { x with stores := ⟨a, leBytes n (s.xreg c r).toNat, q.pc⟩ :: x.stores } } : CoreSt).passed 1
            (q.pc + 4) ∧ OnlyCore c s t
    loads (.ldw c r ra off) (encI 0x18 r ra off.toNat) 4 ∧
    loads (.ldh c r ra off) (encI 0x19 r ra off.toNat) 2 ∧
    loads (.ldb c r ra off) (encI 0x1A r ra off.toNat) 1 ∧
    stores (.stw c r ra off) (encI 0x1C r ra off.toNat) 4 ∧
    stores (.sth c r ra off) (encI 0x1D r ra off.toNat) 2 ∧
    stores (.stb c r ra off) (encI 0x1E r ra off.toNat) 1 ∧
    (CoreReady s c (encI 0x18 r ra off.toNat) → q.atom = none → g = .rom → regionOf c a = some g → a.toNat % 4 = 0 → clear →
      Answers (.ldw c r ra off) s fun t =>
        t.core c = (q.setReg r (Config.romWord a.toNat)).passed 1 (q.pc + 4) ∧ OnlyCore c s t) ∧
    (∀ d : CoreN, CoreReady s c (encI 0x18 r ra off.toNat) → q.atom = none → g = .bus → a.toNat = 0x40000000 + SepMboxIn.reg d → clear →
      s.inReset = false →
      Answers (.ldw c r ra off) s fun t => t.regs = s.regs ∧ t.tbl = s.tbl ∧
        ∃ n, t.core c = (q.setReg r (s.rget (SepMboxIn.reg d))).passed n (q.pc + 4))

/-- Of R390: a branch goes to pc + 4 times its offset where its condition holds, and to pc + 4 otherwise; JMP, CALL and JR go to their targets, CALL with
pc + 4 in x15. Where control goes to the target, it is word aligned and in a region that the core fetches from. -/
def Obligations.SepiaJumps : Prop :=
  ∀ (c : CoreN) (ra rb : XReg) (off : BitVec 18) (far : BitVec 26) (s : State),
    let q := s.core c
    let a := s.xreg c ra
    let b := s.xreg c rb
    let near := q.pc + off.signExtend 32 * 4
    let target := q.pc + far.signExtend 32 * 4
    let fits (x : Word) : Prop := x.toNat % 4 = 0 ∧ fetchable c x = true
    let branches (i : Instr) (w : Word) (taken : Bool) : Prop :=
      CoreReady s c w → (taken = true → fits near) → Answers i s fun t => t.core c = q.passed 1 (if taken then near else q.pc + 4) ∧ OnlyCore c s t
    branches (.beq c ra rb off) (encI 0x20 ra rb off.toNat) (a == b) ∧
    branches (.bne c ra rb off) (encI 0x21 ra rb off.toNat) (a != b) ∧
    branches (.blt c ra rb off) (encI 0x22 ra rb off.toNat) (decide (a.toInt < b.toInt)) ∧
    branches (.bge c ra rb off) (encI 0x23 ra rb off.toNat) (decide (b.toInt ≤ a.toInt)) ∧
    (CoreReady s c (encJ 0x28 far) → fits target → Answers (.jmp c far) s fun t => t.core c = q.passed 1 target ∧ OnlyCore c s t) ∧
    (CoreReady s c (encJ 0x29 far) → fits target →
      Answers (.call c far) s fun t => t.core c = (q.setReg 15 (q.pc + 4)).passed 1 target ∧ OnlyCore c s t) ∧
    (CoreReady s c (encA 0x2A 0 ra 0) → fits a → Answers (.jr c ra) s fun t => t.core c = q.passed 1 a ∧ OnlyCore c s t)

/-- Of R388, R397, R398 and R401: CSRR reads a listed CSR (STEPS with its own step counted: the model's reading, log entry 162) and CSRW writes one;
FENCE goes on once the write buffer is empty, here of stores to data memory, and ATOM_BEGIN opens a sequence; ATOM_END leaves one, with a held store to data
memory committed; WAIT takes the pending events of its mask and clears them, and with none of them pending the core waits. -/
def Obligations.SepiaSystem : Prop :=
  ∀ (c : CoreN) (rd ra : XReg) (csr : BitVec 8) (mask : BitVec 7) (s : State),
    let q := s.core c
    (∀ v, CoreReady s c (encI 0x30 rd 0 csr.toNat) → q.atom = none → csr ≠ 9 → q.csr c csr.toNat = some v →
      Answers (.csrr c rd csr) s fun t => t.core c = (q.setReg rd v).passed 1 (q.pc + 4) ∧ OnlyCore c s t) ∧
    (CoreReady s c (encI 0x30 rd 0 9) → q.atom = none →
      Answers (.csrr c rd 9) s fun t => t.core c = (q.setReg rd (q.steps + 1)).passed 1 (q.pc + 4) ∧ OnlyCore c s t) ∧
    (∀ q1, CoreReady s c (encI 0x31 0 ra csr.toNat) → q.atom = none → q.setCsr csr.toNat (s.xreg c ra) s.now = some q1 →
      Answers (.csrw c ra csr) s fun t => t.core c = q1.passed 1 (q.pc + 4) ∧ OnlyCore c s t) ∧
    (CoreReady s c (encI 0x36 0 0 0) → q.atom = none → (∀ x ∈ q.wbuf, regionOf c x.addr = some .data ∧ x.bytes.length ≤ 4) →
      s.fbit MemFlipT.arm = false →
      Answers (.fence c) s fun t => t.core c = { q.passed 1 (q.pc + 4) with wbuf := [] } ∧ t.regs = s.regs ∧ t.sems = s.sems ∧
        (∀ d, d ≠ c.val → t.core d = s.core d) ∧ (q.wbuf = [] → t.tbl = s.tbl)) ∧
    (CoreReady s c (encI 0x34 0 0 0) → q.atom = none → q.wbuf = [] →
      Answers (.atomBegin c) s fun t =>
        t.core c = { q.passed 1 (q.pc + 4) with atom := some { start := q.pc, count := 1, stores := [] } } ∧
        t.fbit (SepStat.inAtom c) = true ∧ RegsBut [SepStat.reg c] s t ∧ t.tbl = s.tbl) ∧
    (∀ a, CoreReady s c (encI 0x35 0 0 0) → q.atom = some a → a.stores = [] →
      Answers (.atomEnd c) s fun t =>
        t.core c = { q.passed 1 (q.pc + 4) with atom := none } ∧ t.fbit (SepStat.inAtom c) = false ∧ RegsBut [SepStat.reg c] s t ∧
        t.tbl = s.tbl) ∧
    (∀ a x, CoreReady s c (encI 0x35 0 0 0) → q.atom = some a → a.stores = [x] → regionOf c x.addr = some .data → x.bytes.length ≤ 4 →
      s.fbit MemFlipT.arm = false →
      Answers (.atomEnd c) s fun t =>
        t.core c = { q.passed 1 (q.pc + 4) with atom := none } ∧ t.fbit (SepStat.inAtom c) = false ∧ RegsBut [SepStat.reg c] s t ∧
        (∀ i < x.bytes.length, t.tstored (memOffset c .data x.addr + i) = x.bytes[i]?) ∧
        ∀ k, (k < memOffset c .data x.addr ∨ memOffset c .data x.addr + x.bytes.length ≤ k) → t.tstored k = s.tstored k) ∧
    (CoreReady s c (encI 0x37 rd 0 mask.toNat) → q.atom = none → q.wbuf = [] → q.evpend &&& mask.toNat ≠ 0 →
      Answers (.wait c rd mask) s fun t =>
        t.core c = { q.setReg rd (BitVec.ofNat 32 (q.evpend &&& mask.toNat)) with
          evpend := q.evpend - (q.evpend &&& mask.toNat) }.passed 1 (q.pc + 4) ∧ OnlyCore c s t) ∧
    (CoreReady s c (encI 0x37 rd 0 mask.toNat) → q.atom = none → q.wbuf = [] → mask ≠ 0 → q.evpend &&& mask.toNat = 0 →
      Answers (.wait c rd mask) s fun t =>
        t.core c = { q.passed 1 q.pc with wait := .event mask.toNat rd } ∧ t.coreState c = 2 ∧ RegsBut [SepStat.reg c] s t ∧ t.tbl = s.tbl)

/-- Of R416 and R417: SLOCK of a free semaphore above those the core holds is granted with result 0, or 1 where it was abandoned; for a held one it waits
behind those that wait, or answers 4 with nowait. SFREE answers 0 and passes the semaphore to the first that waits, or leaves it free; of one not held
it answers 3 and changes nothing. -/
def Obligations.SepiaSemaphores : Prop :=
  ∀ (c : CoreN) (rd : XReg) (i : SemN) (nowait : Bool) (s : State),
    let q := s.core c
    let w := encI 0x32 rd 0 (i + (if nowait then 64 else 0))
    (CoreReady s c w → q.atom = none → (∀ j ∈ s.semsHeld c, j < i.val) → (s.sem i).holder = none →
      Answers (.slock c rd i nowait) s fun t =>
        (t.sem i).holder = some c.val ∧ (t.sem i).abandoned = false ∧ (t.sem i).waiters = (s.sem i).waiters ∧
        t.core c = (q.setReg rd (if (s.sem i).abandoned then 1 else 0)).passed 1 (q.pc + 4) ∧ t.regs = s.regs ∧ t.tbl = s.tbl ∧
        (∀ j, j ≠ i.val → t.sem j = s.sem j) ∧ ∀ d, d ≠ c.val → t.core d = s.core d) ∧
    (∀ h, CoreReady s c (encI 0x32 rd 0 (i + 64)) → q.atom = none → (∀ j ∈ s.semsHeld c, j < i.val) → (s.sem i).holder = some h →
      Answers (.slock c rd i true) s fun t => t.core c = (q.setReg rd 4).passed 1 (q.pc + 4) ∧ OnlyCore c s t) ∧
    (∀ h, CoreReady s c (encI 0x32 rd 0 i) → q.atom = none → (∀ j ∈ s.semsHeld c, j < i.val) → (s.sem i).holder = some h →
      Answers (.slock c rd i false) s fun t =>
        t.sem i = { s.sem i with waiters := (s.sem i).waiters ++ [c.val] } ∧ t.coreState c = 2 ∧
        t.core c = { q.passed 1 q.pc with wait := .lock i rd } ∧ RegsBut [SepStat.reg c] s t ∧ t.tbl = s.tbl ∧
        ∀ j, j ≠ i.val → t.sem j = s.sem j) ∧
    (CoreReady s c (encI 0x33 rd 0 i) → q.atom = none → (s.sem i).holder = some c.val → (s.sem i).waiters = [] →
      Answers (.sfree c rd i) s fun t =>
        (t.sem i).holder = none ∧ (t.sem i).abandoned = (s.sem i).abandoned ∧
        t.core c = (q.setReg rd 0).passed 1 (q.pc + 4) ∧ t.regs = s.regs ∧ t.tbl = s.tbl ∧
        (∀ j, j ≠ i.val → t.sem j = s.sem j) ∧ ∀ d, d ≠ c.val → t.core d = s.core d) ∧
    (∀ (h rh : Nat) (hs : List Nat), CoreReady s c (encI 0x33 rd 0 i) → q.atom = none → (s.sem i).holder = some c.val → (s.sem i).waiters = h :: hs →
      h ≠ c.val → (s.core h).wait = .lock i rh → (s.core h).trapPend = none → (s.core h).haltPend = none → (s.core h).stepping = false →
      (s.core h).stepPend = false →
      Answers (.sfree c rd i) s fun t =>
        (t.sem i).holder = some h ∧ (t.sem i).waiters = hs ∧ t.core c = (q.setReg rd 0).passed 1 (q.pc + 4) ∧ t.coreState h = 1 ∧
        t.core h = { (s.core h).setReg rh (if (s.sem i).abandoned then 1 else 0) with wait := .none, pc := (s.core h).pc + 4 } ∧
        RegsBut [SepStat.reg h] s t ∧ t.tbl = s.tbl ∧ ∀ j, j ≠ i.val → t.sem j = s.sem j) ∧
    (CoreReady s c (encI 0x33 rd 0 i) → q.atom = none → (s.sem i).holder ≠ some c.val →
      Answers (.sfree c rd i) s fun t => t.core c = (q.setReg rd 3).passed 1 (q.pc + 4) ∧ OnlyCore c s t)

/-- R416: a holder's request for a semaphore that is not above every one it holds, also for one it holds, is refused with ORDER_FAULT and changes
nothing, whether a core or a host side asks; a request above every one it holds is not; and a holder may release any semaphore it holds, whichever others it holds. -/
def Obligations.SemaphoreOrder : Prop :=
  (∀ (c : CoreN) (rd : XReg) (i : SemN) (nowait : Bool) (j : Nat) (s : State), CoreReady s c (encI 0x32 rd 0 (i + (if nowait then 64 else 0))) →
    (s.core c).atom = none → j ∈ s.semsHeld c → i.val ≤ j →
    Answers (.slock c rd i nowait) s fun t => t.core c = ((s.core c).setReg rd 2).passed 1 ((s.core c).pc + 4) ∧ OnlyCore c s t) ∧
  (∀ (p : Part) (i : SemN) (j : Nat) (s : State), s.peeks (32 + p) = false → s.semPermitted (32 + p) i = true → j ∈ s.semsHeld (32 + p) → i.val ≤ j →
    Answers (.semAcquireRead p i) s fun t => t = { s with out := .readData (32 + p) 2 :: s.out }) ∧
  (∀ (c : CoreN) (rd : XReg) (i : SemN) (j : Nat) (s : State), CoreReady s c (encI 0x33 rd 0 i) → (s.core c).atom = none →
    (s.sem i).holder = some c.val → (s.sem i).waiters = [] → j ∈ s.semsHeld c → j ≠ i.val →
    Answers (.sfree c rd i) s fun t =>
      (t.sem i).holder = none ∧ t.core c = ((s.core c).setReg rd 0).passed 1 ((s.core c).pc + 4) ∧ t.regs = s.regs ∧
        ∀ k, k ≠ i.val → t.sem k = s.sem k) ∧
  (∀ (p : Part) (i : SemN) (value : Word) (j : Nat) (s : State), s.semPermitted (32 + p) i = true → (s.sem i).holder = some (32 + p.val) →
    (s.sem i).waiters = [] → j ∈ s.semsHeld (32 + p) → j ≠ i.val →
    Answers (.semReleaseWrite p i value) s fun t =>
      (t.sem i).holder = none ∧ t.fget (SemRelRes.result p) = 0 ∧ RegsBut [SemRelRes.reg p] s t ∧ ∀ k, k ≠ i.val → t.sem k = s.sem k) ∧
  (∀ (c : CoreN) (rd : XReg) (i : SemN) (s : State), CoreReady s c (encI 0x32 rd 0 (i + 64)) → (s.core c).atom = none →
    (∀ j ∈ s.semsHeld c, j < i.val) →
    Answers (.slock c rd i true) s fun t => ∃ r : Word, r ≠ 2 ∧ t.core c = ((s.core c).setReg rd r).passed 1 ((s.core c).pc + 4)) ∧
  (∀ (p : Part) (i : SemN) (s : State), s.peeks (32 + p) = false → s.semPermitted (32 + p) i = true → (∀ j ∈ s.semsHeld (32 + p), j < i.val) →
    Answers (.semAcquireRead p i) s fun t => ∃ r : Word, r ≠ 2 ∧ t.out.head? = some (.readData (32 + p) r))

/-- Of R388, R391 to R393, R399, R401 and R421: with an empty write buffer, outside a sequence and outside a trap, the handler is entered with its cause,
EPC and TVAL by TRAP, by a word that spells no instruction, a CSR that is not listed and a WAIT for no event, by ATOM_END outside a sequence (whose TVAL is its address: log entry 158), by a word
load that is not aligned and a word store to no region, and by JR to an address that is not aligned and a BEQ taken to one that the core does not fetch from; an enabled event does so between
instructions, and HALT halts at the next one. -/
def Obligations.SepiaTraps : Prop :=
  ∀ (c : CoreN) (r ra : XReg) (imm off : BitVec 18) (csr : BitVec 8) (w : Word) (s : State),
    let q := s.core c
    let free : Prop := q.atom = none ∧ q.wbuf = [] ∧ q.wait = .none
    let traps (n : Nat) (cause epc tval : Word) (t : State) : Prop :=
      t.core c = { q with steps := q.steps + BitVec.ofNat 32 n }.trapped cause epc tval ∧ t.coreState c = 1 ∧
      t.fget (SepStat.cause c) = cause.toNat % 256 ∧ RegsBut [SepStat.reg c] s t ∧ t.tbl = s.tbl ∧ t.sems = s.sems ∧
      ∀ d, d ≠ c.val → t.core d = s.core d
    (CoreReady s c (encI 0x38 0 0 imm.toNat) → free → q.inTrap = false →
      Answers (.trap c imm) s (traps 1 (BitVec.ofNat 32 (8 + imm.toNat * 256)) (q.pc + 4) 0)) ∧
    (CoreReady s c w → free → q.inTrap = false → sepiaDecode c w = none → Answers (.illegalOpcode c w) s (traps 1 1 q.pc w)) ∧
    (CoreReady s c (encI 0x30 r 0 csr.toNat) → free → q.inTrap = false → q.csr c csr.toNat = none →
      Answers (.csrr c r csr) s (traps 1 1 q.pc (encI 0x30 r 0 csr.toNat))) ∧
    (CoreReady s c (encI 0x31 0 ra csr.toNat) → free → q.inTrap = false → q.setCsr csr.toNat (s.xreg c ra) s.now = none →
      Answers (.csrw c ra csr) s (traps 1 1 q.pc (encI 0x31 0 ra csr.toNat))) ∧
    (CoreReady s c (encI 0x37 r 0 0) → free → q.inTrap = false → Answers (.wait c r 0) s (traps 1 1 q.pc (encI 0x37 r 0 0))) ∧
    (CoreReady s c (encI 0x35 0 0 0) → free → q.inTrap = false → Answers (.atomEnd c) s (traps 1 7 q.pc q.pc)) ∧
    (CoreReady s c (encI 0x18 r ra off.toNat) → free → q.inTrap = false → regionOf c (memAddr (s.xreg c ra) off) = some .data →
      (memAddr (s.xreg c ra) off).toNat % 4 ≠ 0 → Answers (.ldw c r ra off) s (traps 1 3 q.pc (memAddr (s.xreg c ra) off))) ∧
    (CoreReady s c (encI 0x1C r ra off.toNat) → free → q.inTrap = false → regionOf c (memAddr (s.xreg c ra) off) = none →
      (memAddr (s.xreg c ra) off).toNat % 4 = 0 → Answers (.stw c r ra off) s (traps 1 4 q.pc (memAddr (s.xreg c ra) off))) ∧
    (CoreReady s c (encA 0x2A 0 ra 0) → free → q.inTrap = false → (s.xreg c ra).toNat % 4 ≠ 0 →
      Answers (.jr c ra) s (traps 1 2 q.pc (s.xreg c ra))) ∧
    (CoreReady s c (encI 0x20 ra ra off.toNat) → free → q.inTrap = false → fetchable c (q.pc + off.signExtend 32 * 4) = false →
      Answers (.beq c ra ra off) s (traps 1 2 q.pc (q.pc + off.signExtend 32 * 4))) ∧
    (s.coreState c = 1 → s.quiet → free → q.inTrap = false → q.ie = true → q.evpend &&& q.ieMask ≠ 0 → q.trapPend = none → q.haltPend = none →
      q.stepping = false →
      Answers (.eventTrap c) s (traps 0 9 q.pc (BitVec.ofNat 32 (q.evpend &&& q.ieMask)))) ∧
    (CoreReady s c (encI 0x3A 0 0 0) → free →
      Answers (.halt c) s fun t =>
        t.core c = q.passed 1 (q.pc + 4) ∧ t.coreState c = 4 ∧ t.rget (SepDpc.reg c) = q.pc + 4 ∧
        RegsBut [SepStat.reg c, SepDpc.reg c] s t ∧ t.tbl = s.tbl ∧ t.sems = s.sems)

/-- R394: RETT sets pc := EPC, ie := pie and in_trap := 0. With in_trap = 0 it raises ILLEGAL, which drains the stores that
wait (here to data memory) and enters the handler (R393). -/
def Obligations.ReturnFromTrap : Prop :=
  (∀ (c : CoreN) (s : State), CoreReady s c (encI 0x39 0 0 0) → (s.core c).atom = none → (s.core c).inTrap = true →
    Answers (.rett c) s fun t =>
      t.core c = { s.core c with ie := (s.core c).pie, inTrap := false }.passed 1 (s.core c).epc ∧ OnlyCore c s t) ∧
  (∀ (c : CoreN) (s : State), CoreReady s c (encI 0x39 0 0 0) → (s.core c).atom = none → (s.core c).inTrap = false →
    (∀ x ∈ (s.core c).wbuf, regionOf c x.addr = some .data ∧ x.bytes.length ≤ 4) → (s.core c).wait = .none →
    Answers (.rett c) s fun t =>
      t.core c = { s.core c with steps := (s.core c).steps + 1, wbuf := [] }.trapped 1 (s.core c).pc (encI 0x39 0 0 0) ∧ t.coreState c = 1 ∧
      t.fget (SepStat.cause c) = 1 ∧ t.sems = s.sems)

/-- Of R395: a synchronous trap in a handler does not enter it again: with an empty write buffer the core stops in state 5 with the second cause,
keeps its semaphores and raises the alarm source, here of TRAP, of a word that spells no instruction and of a load that is not aligned; stopped, it
executes nothing. -/
def Obligations.DoubleTrap : Prop :=
  (∀ (c : CoreN) (imm : BitVec 18) (s : State), CoreReady s c (encI 0x38 0 0 imm.toNat) → (s.core c).atom = none → (s.core c).wbuf = [] →
    (s.core c).wait = .none → (s.core c).inTrap = true →
    Answers (.trap c imm) s fun t =>
      t.coreState c = 5 ∧ t.fget (SepStat.cause c) = 8 ∧ (t.core c).pc = (s.core c).pc ∧ (t.core c).inTrap = true ∧
      (t.core c).epc = (s.core c).epc ∧ t.sems = s.sems ∧ (t.rget MgmtAlarmSrc.reg).toNat.testBit 4 = true) ∧
  (∀ (c : CoreN) (w : Word) (s : State), CoreReady s c w → (s.core c).atom = none → (s.core c).wbuf = [] → (s.core c).wait = .none →
    (s.core c).inTrap = true → sepiaDecode c w = none →
    Answers (.illegalOpcode c w) s fun t =>
      t.coreState c = 5 ∧ t.fget (SepStat.cause c) = 1 ∧ (t.core c).pc = (s.core c).pc ∧ (t.core c).inTrap = true ∧
      (t.core c).epc = (s.core c).epc ∧ t.sems = s.sems ∧ (t.rget MgmtAlarmSrc.reg).toNat.testBit 4 = true) ∧
  (∀ (c : CoreN) (r ra : XReg) (off : BitVec 18) (s : State), CoreReady s c (encI 0x18 r ra off.toNat) → (s.core c).atom = none →
    (s.core c).wbuf = [] → (s.core c).wait = .none → (s.core c).inTrap = true → regionOf c (memAddr (s.xreg c ra) off) = some .data →
    (memAddr (s.xreg c ra) off).toNat % 4 ≠ 0 →
    Answers (.ldw c r ra off) s fun t =>
      t.coreState c = 5 ∧ t.fget (SepStat.cause c) = 3 ∧ (t.core c).pc = (s.core c).pc ∧ (t.core c).x = (s.core c).x ∧ t.sems = s.sems) ∧
  (∀ (c : CoreN) (rd ra rb : XReg) (s : State), s.coreState c = 5 → Answers (.add c rd ra rb) s fun t => t = s)

/-- Of R396, R401 and R422: a WAIT ends with the pending events of its mask in rd, cleared, and goes on while there is none; the tick raises TICK once an
instant, a write of SEP_MBOX_IN raises MBOX; the oldest buffered store to instruction or data memory reaches it, byte by byte, and nothing else changes. -/
def Obligations.CoreEvents : Prop :=
  (∀ (c : CoreN) (mask rd : Nat) (s : State), s.coreState c = 2 → s.quiet → (s.core c).wait = .event mask rd → (s.core c).evpend &&& mask ≠ 0 →
    (s.core c).trapPend = none → (s.core c).haltPend = none → (s.core c).stepping = false → (s.part 0).vtTags = [] → s.feature 0 1 = false →
    Answers (.waitWake c) s fun t =>
      t.core c = { (s.core c).setReg rd (BitVec.ofNat 32 ((s.core c).evpend &&& mask)) with
        wait := .none, pc := (s.core c).pc + 4, evpend := (s.core c).evpend - ((s.core c).evpend &&& mask) } ∧
      t.coreState c = 1 ∧ RegsBut [SepStat.reg c] s t ∧ t.tbl = s.tbl) ∧
  (∀ (c : CoreN) (mask rd : Nat) (s : State), (s.core c).wait = .event mask rd → (s.core c).evpend &&& mask = 0 →
    Answers (.waitWake c) s fun t => t = s) ∧
  (∀ (c : CoreN) (s : State),
    Answers (.coreTick c) s fun t =>
      if (s.core c).tickUs ≠ 0 ∧ tickInstant (s.core c).tickUs s.now ≠ (s.core c).lastTick then
        OnlyCore c s t ∧ (t.core c).lastTick = tickInstant (s.core c).tickUs s.now ∧
        (s.coreState c ≠ 0 → s.coreState c ≠ 6 →
          t.core c = { s.core c with lastTick := tickInstant (s.core c).tickUs s.now, evpend := (s.core c).evpend ||| 2 })
      else t = s) ∧
  (∀ (m : Master) (c : CoreN) (value : Word) (s : State), Reached s m (SepMboxIn.reg c) → s.jtagBarred m c true = false → s.coreState c ≠ 0 →
    s.coreState c ≠ 6 →
    Answers (.mboxWrite m c value) s fun t =>
      t.rget (SepMboxIn.reg c) = value ∧ t.core c = { s.core c with evpend := (s.core c).evpend ||| 4 } ∧ RegsBut [SepMboxIn.reg c] s t ∧
      t.tbl = s.tbl) ∧
  (∀ (c : CoreN) (g : Region) (x : Store) (xs : List Store) (s : State), (s.core c).wbuf = x :: xs → g = .data ∨ g = .instr →
    regionOf c x.addr = some g → s.quiet → s.coreState c ≠ 6 → x.bytes.length ≤ 4 → s.fbit MemFlipT.arm = false → (s.part 0).vtTags = [] →
    Answers (.writeBufferDrain c) s fun t =>
      t.core c = { s.core c with wbuf := xs } ∧ t.regs = s.regs ∧
      (∀ i < x.bytes.length, t.tstored (memOffset c g x.addr + i) = x.bytes[i]?) ∧
      ∀ k, (k < memOffset c g x.addr ∨ memOffset c g x.addr + x.bytes.length ≤ k) → t.tstored k = s.tstored k)

/-- Of R410 to R413: NOTICE is raised once the records written are visible to the reader, and otherwise nothing happens; a load of FIFO_DATA that sees a
word available brings the word at rd and moves rd on, also past a bit error, which is counted: one is corrected, more raise POISON_LOAD. With no word written
beyond rd the load stalls, and stays stalled. The stores to FIFO_MARK, FIFO_REWIND and FIFO_RELEASE move the pointers. -/
def Obligations.FifoReader : Prop :=
  (∀ (g : Group) (s : State), (s.group g).noticed < (s.group g).wr → s.coreState (g + 1) ≠ 0 → s.coreState (g + 1) ≠ 6 →
    Answers (.notice g) s fun t =>
      (t.group g).noticed = (s.group g).wr ∧ (t.core (g + 1)).evpend = (s.core (g + 1)).evpend ||| 1 ∧ RegsBut [] s t ∧
      t.tbl = s.tbl ∧ (∀ h, h ≠ g.val → t.group h = s.group h) ∧ (∀ c, c ≠ g.val + 1 → t.core c = s.core c)) ∧
  (∀ (g : Group) (s : State), (s.group g).wr ≤ (s.group g).noticed → Answers (.notice g) s fun t => t = s) ∧
  (∀ (c : CoreN) (rd ra : XReg) (off : BitVec 18) (errs : Fin 3) (s : State), hasFifo c = true → CoreReady s c (encI 0x18 rd ra off.toNat) →
    (s.core c).atom = none → (s.core c).wait = .none → (∀ x ∈ (s.core c).wbuf, regionOf c x.addr ≠ some .fifo ∧ regionOf c x.addr ≠ some .ck) →
    memAddr (s.xreg c ra) off = 0x20000 →
    (s.group (c - 1)).rd < (s.group (c - 1)).noticed →
    errs.val ≤ 1 →
    Answers (.fifoData c rd errs) s fun t =>
      t.core c = ((s.core c).setReg rd (SMap.getD (s.group (c - 1)).words (s.group (c - 1)).rd 0)).passed 1 ((s.core c).pc + 4) ∧
      (t.group (c - 1)).rd = (s.group (c - 1)).rd + 1 ∧ t.tbl = s.tbl ∧
      if errs.val = 0 then t.regs = s.regs
      else t.fget (SepFifoCnt.corr c) = min 255 (s.fget (SepFifoCnt.corr c) + 1) ∧ RegsBut [SepFifoCnt.reg c] s t) ∧
  (∀ (c : CoreN) (rd ra : XReg) (off : BitVec 18) (s : State), hasFifo c = true → CoreReady s c (encI 0x18 rd ra off.toNat) →
    (s.core c).atom = none → (s.core c).wait = .none → (∀ x ∈ (s.core c).wbuf, regionOf c x.addr ≠ some .fifo ∧ regionOf c x.addr ≠ some .ck) →
    memAddr (s.xreg c ra) off = 0x20000 →
    (s.group (c - 1)).rd < (s.group (c - 1)).noticed → (s.core c).wbuf = [] → (s.core c).inTrap = false →
    Answers (.fifoData c rd 2) s fun t =>
      t.core c = { s.core c with steps := (s.core c).steps + 1 }.trapped 6 (s.core c).pc 0x20000 ∧
      (t.group (c - 1)).rd = (s.group (c - 1)).rd + 1 ∧ t.fget (SepFifoCnt.uncorr c) = min 255 (s.fget (SepFifoCnt.uncorr c) + 1)) ∧
  (∀ (c : CoreN) (rd ra : XReg) (off : BitVec 18) (errs : Fin 3) (s : State), hasFifo c = true → CoreReady s c (encI 0x18 rd ra off.toNat) →
    (s.core c).atom = none → (s.core c).wait = .none → (∀ x ∈ (s.core c).wbuf, regionOf c x.addr ≠ some .fifo ∧ regionOf c x.addr ≠ some .ck) →
    memAddr (s.xreg c ra) off = 0x20000 →
    (s.group (c - 1)).noticed ≤ (s.group (c - 1)).rd → (s.group (c - 1)).wr ≤ (s.group (c - 1)).rd →
    Answers (.fifoData c rd errs) s fun t =>
      t.core c = { (s.core c).passed 1 (s.core c).pc with wait := .fifo rd } ∧ t.coreState c = 3 ∧ t.groups = s.groups ∧
      RegsBut [SepStat.reg c] s t ∧ t.tbl = s.tbl) ∧
  (∀ (c : CoreN) (rd : XReg) (errs : Fin 3) (s : State), hasFifo c = true → s.coreState c = 3 → s.quiet → (s.core c).wait = .fifo rd → (s.core c).wbuf = [] →
    (s.core c).atom = none → (s.part 0).vtTags = [] → s.feature 0 1 = false → (s.core c).trapPend = none → (s.core c).stepping = false →
    (s.core c).haltPend = none →
    (s.group (c - 1)).rd < (s.group (c - 1)).noticed → errs.val ≤ 1 →
    Answers (.fifoData c rd errs) s fun t =>
      t.core c = { (s.core c).setReg rd (SMap.getD (s.group (c - 1)).words (s.group (c - 1)).rd 0) with
        wait := .none, pc := (s.core c).pc + 4 } ∧
      (t.group (c - 1)).rd = (s.group (c - 1)).rd + 1 ∧ t.coreState c = 1 ∧ t.tbl = s.tbl) ∧
  (∀ (c : CoreN) (rd : XReg) (s : State), hasFifo c = true → s.coreState c = 3 → s.quiet → (s.core c).wait = .fifo rd → (s.core c).wbuf = [] →
    (s.core c).atom = none → (s.part 0).vtTags = [] → s.feature 0 1 = false → (s.core c).trapPend = none → (s.core c).stepping = false →
    (s.core c).haltPend = none →
    (s.core c).inTrap = false → (s.group (c - 1)).rd < (s.group (c - 1)).noticed →
    Answers (.fifoData c rd 2) s fun t =>
      t.core c = { s.core c with wait := .none }.trapped 6 (s.core c).pc 0x20000 ∧ (t.group (c - 1)).rd = (s.group (c - 1)).rd + 1 ∧
      t.fget (SepFifoCnt.uncorr c) = min 255 (s.fget (SepFifoCnt.uncorr c) + 1)) ∧
  (∀ (c : CoreN) (rd : XReg) (errs : Fin 3) (s : State), s.coreState c = 3 → (s.core c).wait = .fifo rd →
    (s.group (c - 1)).noticed ≤ (s.group (c - 1)).rd → (s.group (c - 1)).wr ≤ (s.group (c - 1)).rd →
    Answers (.fifoData c rd errs) s fun t => t = { s with fresh := t.fresh }) ∧
  (∀ (c : CoreN) (s : State), hasFifo c = true → s.coreState c ≠ 0 → s.coreState c ≠ 6 →
    Answers (.fifoMark c) s fun t =>
      t.group (c - 1) = { s.group (c - 1) with mark := (s.group (c - 1)).rd } ∧ t = { s with groups := t.groups }) ∧
  (∀ (c : CoreN) (s : State), hasFifo c = true → s.coreState c ≠ 0 → s.coreState c ≠ 6 →
    Answers (.fifoRewind c) s fun t =>
      t.group (c - 1) = { s.group (c - 1) with rd := (s.group (c - 1)).mark } ∧ t = { s with groups := t.groups }) ∧
  (∀ (c : CoreN) (s : State), hasFifo c = true → s.coreState c ≠ 0 → s.coreState c ≠ 6 →
    Answers (.fifoRelease c) s fun t =>
      (t.group (c - 1)).rel = (s.group (c - 1)).rd ∧ (t.group (c - 1)).mark = (s.group (c - 1)).rd ∧
      (t.group (c - 1)).rd = (s.group (c - 1)).rd ∧ (t.group (c - 1)).wr = (s.group (c - 1)).wr ∧ t = { s with groups := t.groups })

/-- Of R402 to R406: a start latches the settings and loads I, of the fixed unit as its selection says; of the configurable unit with a width that is not
1 to 64 it raises BUS. Bytes of data advance the register of the CRC; the result is the register after the output processing, and reading it leaves the unit
as it was; without a start since the core's reset some value results. -/
def Obligations.CheckUnits : Prop :=
  (∀ (c : CoreN) (s : State), s.coreState c ≠ 0 → s.coreState c ≠ 6 → 1 ≤ (s.core c).ck.cfg.toNat % 128 → (s.core c).ck.cfg.toNat % 128 ≤ 64 →
    Answers (.ckStart c false) s fun t =>
      (t.core c).ck.width = (s.core c).ck.cfg.toNat % 128 ∧ (t.core c).ck.refin = (s.core c).ck.cfg.getLsbD 8 ∧
      (t.core c).ck.refout = (s.core c).ck.cfg.getLsbD 9 ∧ (t.core c).ck.xorout = (s.core c).ck.cfg.getLsbD 10 ∧
      (t.core c).ck.lpoly.toNat = (s.core c).ck.poly.toNat % 2 ^ ((s.core c).ck.cfg.toNat % 128) ∧
      (t.core c).ck.reg.map BitVec.toNat = some ((s.core c).ck.init.toNat % 2 ^ ((s.core c).ck.cfg.toNat % 128)) ∧ OnlyCore c s t) ∧
  (∀ (c : CoreN) (s : State), s.coreState c = 1 → s.quiet → (s.core c).ck.cfg.toNat % 128 = 0 ∨ 64 < (s.core c).ck.cfg.toNat % 128 →
    (s.core c).inTrap = false → (s.core c).wbuf = [] → (s.core c).atom = none → (s.core c).wait = .none → (s.core c).trapPend = none →
    (s.core c).haltPend = none → (s.core c).stepping = false →
    Answers (.ckStart c false) s fun t =>
      t.core c = (s.core c).trapped 4 (s.core c).pc 0x21014 ∧ t.fget (SepStat.cause c) = 4 ∧ RegsBut [SepStat.reg c] s t ∧ t.tbl = s.tbl) ∧
  (∀ (c : CoreN) (sel w : Nat) (p i : BitVec 64) (both : Bool × Bool) (s : State), hasFixed c = true → s.coreState c ≠ 0 → s.coreState c ≠ 6 →
    (s.core c).ckf.sel = sel →
    (sel, w, p, i, both) ∈ [(0, 32, 0x1EDC6F41, 0xFFFFFFFF, true, true), (1, 32, 0x04C11DB7, 0xFFFFFFFF, true, true),
      (2, 16, 0x1021, 0xFFFF, false, false), (3, 64, 0x42F0E1EBA9EA3693, 0, false, false)] →
    Answers (.ckStart c true) s fun t =>
      (t.core c).ckf.reg = some i ∧ (t.core c).ckf.width = w ∧ (t.core c).ckf.lpoly = p ∧ (t.core c).ckf.refin = both.1 ∧
      (t.core c).ckf.refout = both.1 ∧ (t.core c).ckf.xorout = both.2 ∧ OnlyCore c s t) ∧
  (∀ (c : CoreN) (fixed : Bool) (bytes : List Byte) (x : BitVec 64) (s : State), (fixed = true → hasFixed c = true) → s.coreState c ≠ 0 →
    s.coreState c ≠ 6 → ((s.core c).unit fixed).reg = some x →
    Answers (.ckData c fixed bytes) s fun t =>
      (t.core c).unit fixed = { (s.core c).unit fixed with
        reg := some (BitVec.ofNat 64 (crcFeed ((s.core c).unit fixed).width ((s.core c).unit fixed).lpoly.toNat ((s.core c).unit fixed).refin
          x.toNat bytes)) } ∧ OnlyCore c s t) ∧
  (∀ (c : CoreN) (fixed : Bool) (bytes : List Byte) (s : State), ((s.core c).unit fixed).reg = none →
    Answers (.ckData c fixed bytes) s fun t => (t.core c).unit fixed = (s.core c).unit fixed ∧ OnlyCore c s t) ∧
  (∀ (c : CoreN) (fixed hi : Bool) (rd ra : XReg) (off : BitVec 18) (x : BitVec 64) (s : State), (fixed = true → hasFixed c = true) →
    CoreReady s c (encI 0x18 rd ra off.toNat) → (s.core c).atom = none → (s.core c).wbuf = [] → memAddr (s.xreg c ra) off = crcAddr fixed hi →
    ((s.core c).unit fixed).reg = some x →
    Answers (.ckResultLoad c fixed hi rd) s fun t =>
      t.core c = ((s.core c).setReg rd (BitVec.ofNat 32
        (crcOut ((s.core c).unit fixed).width ((s.core c).unit fixed).refout ((s.core c).unit fixed).xorout x.toNat
          / (if hi then 2 ^ 32 else 1)))).passed 1 ((s.core c).pc + 4) ∧ OnlyCore c s t) ∧
  (∀ (c : CoreN) (fixed hi : Bool) (rd ra : XReg) (off : BitVec 18) (s : State), (fixed = true → hasFixed c = true) →
    CoreReady s c (encI 0x18 rd ra off.toNat) → (s.core c).atom = none → (s.core c).wbuf = [] → memAddr (s.xreg c ra) off = crcAddr fixed hi →
    ((s.core c).unit fixed).reg = none →
    Answers (.ckResultLoad c fixed hi rd) s fun t =>
      ∃ v, t.core c = ((s.core c).setReg rd v).passed 1 ((s.core c).pc + 4) ∧ t.regs = s.regs ∧ t.tbl = s.tbl)

/-- Of R420 and R421: a halt asked of a core outside a sequence halts it at its next instruction, one in a WAIT or a stalled load there, with the WAIT abandoned; inside a
sequence it is deferred, and of a core that does not run it only sets halt_req. One deferred too long is forced, with the sequence discarded. A halted core
resumes at DPC with halt_req cleared, or executes one instruction (here an ADD) and halts again; another takes no step. A breakpoint halts before its
instruction. -/
def Obligations.CoreDebug : Prop :=
  (∀ (c : CoreN) (s : State), s.inReset = false → s.quiet → s.coreState c = 1 ∨ (∃ mask rd, s.coreState c = 2 ∧ (s.core c).wait = .event mask rd) ∨
      (∃ rd, s.coreState c = 3 ∧ (s.core c).wait = .fifo rd) →
    (s.coreState c = 1 → (s.core c).wait = .none) → (s.core c).wbuf = [] → (s.core c).atom = none → (s.core c).trapPend = none →
    (s.core c).haltPend = none →
    Answers (.haltRequest c) s fun t =>
      t.coreState c = 4 ∧ t.rget (SepDpc.reg c) = (s.core c).pc ∧ (t.core c).wait = .none ∧ (t.core c).evpend = (s.core c).evpend ∧
      (t.core c).x = (s.core c).x ∧ t.fbit (SepDbgCtl.haltReq c) = true ∧ t.sems = s.sems ∧ t.tbl = s.tbl) ∧
  (∀ (c : CoreN) (a : Atom) (s : State), s.inReset = false → s.quiet → s.coreState c = 1 → (s.core c).atom = some a → (s.core c).haltPend = none →
    Answers (.haltRequest c) s fun t =>
      t.core c = { s.core c with haltPend := some 256 } ∧ t.coreState c = 1 ∧ t.fbit (SepDbgCtl.haltReq c) = true ∧ t.tbl = s.tbl) ∧
  (∀ (c : CoreN) (s : State), s.inReset = false → s.quiet → s.coreState c ≠ 1 → s.coreState c ≠ 2 → s.coreState c ≠ 3 →
    Answers (.haltRequest c) s fun t => t.fbit (SepDbgCtl.haltReq c) = true ∧ RegsBut [SepDbgCtl.reg c] s t ∧ t.cores = s.cores) ∧
  (∀ (c : CoreN) (k : Nat) (a : Atom) (s : State), (s.core c).haltPend = some k → (s.core c).atom = some a → s.coreState c = 1 →
    (s.core c).trapPend = none → (s.core c).stepPend = false → s.quiet →
    Answers (.forcedHalt c) s fun t =>
      t.coreState c = 4 ∧ t.rget (SepDpc.reg c) = a.start ∧ (t.core c).atom = none ∧ (t.core c).pc = a.start ∧ t.tbl = s.tbl ∧
      t.fget (SepStat.forced c) = 1) ∧
  (∀ (c : CoreN) (s : State), (s.core c).haltPend = none → Answers (.forcedHalt c) s fun t => t = s) ∧
  (∀ (c : CoreN) (s : State), s.inReset = false → s.quiet → s.coreState c = 4 → (s.core c).stepping = false → (s.core c).trapPend = none →
    Answers (.resume c) s fun t =>
      t.coreState c = 1 ∧ (t.core c).pc = s.rget (SepDpc.reg c) ∧ t.fbit (SepDbgCtl.haltReq c) = false ∧
      RegsBut [SepStat.reg c, SepDbgCtl.reg c] s t ∧ t.tbl = s.tbl) ∧
  (∀ (c : CoreN) (s : State), s.inReset = false → s.coreState c ≠ 4 → s.quiet → Answers (.step c) s fun t => t = s) ∧
  (∀ (c : CoreN) (rd ra rb : XReg) (s s1 : State), s.inReset = false → s.quiet → s.coreState c = 4 →
    s1 = (s.setCore c { s.core c with pc := s.rget (SepDpc.reg c) }).setCoreState c 1 → CoreReady s1 c (encA 0x01 rd ra rb) →
    (s.core c).atom = none → (s.core c).wbuf = [] → (s.core c).wait = .none →
    Answers (.step c) s fun t =>
      t.coreState c = 4 ∧ t.rget (SepDpc.reg c) = s.rget (SepDpc.reg c) + 4 ∧
      (t.core c).x = ((s.core c).setReg rd (s.xreg c ra + s.xreg c rb)).x ∧ t.tbl = s.tbl ∧ t.sems = s.sems) ∧
  (∀ (c : CoreN) (s : State), s.coreState c = 1 → (s.core c).due = false → s.bpHit c (s.core c).pc = true → (s.core c).wbuf = [] →
    (s.core c).wait = .none → s.quiet →
    Answers (.breakpoint c) s fun t =>
      t.coreState c = 4 ∧ t.rget (SepDpc.reg c) = (s.core c).pc ∧ RegsBut [SepStat.reg c, SepDpc.reg c] s t ∧ t.tbl = s.tbl) ∧
  (∀ (c : CoreN) (s : State), s.bpHit c (s.core c).pc = false → Answers (.breakpoint c) s fun t => t = s)

/-- R451, R454, R459 and R460: a plain write of a register by a core stores its value, and one of a bad width or alignment is an error; the first
write of a pair opens it, its complement in time makes it take effect, and 1 us without it is logged. -/
def Obligations.RegisterWrites : Prop :=
  (∀ (m : Master) (c : CoreN) (value : Word) (s : State), m.val < 32 → s.inReset = false → s.openPair m 18 = none → s.quiet →
    Answers (.registerWrite m (BitVec.ofNat 24 (SepMboxOut.reg c)) 4 value) s fun t =>
      t.rget (SepMboxOut.reg c) = value ∧ RegsBut [SepMboxOut.reg c] s t ∧ t = { s with regs := t.regs }) ∧
  (∀ (m : Master) (addr : BitVec 24) (len : Nat) (value : Word) (s : State), s.deaf m = false → addr.toNat % 4 ≠ 0 ∨ len ≠ 4 → s.quiet →
    s.fbit (IntegBuserr0.valid (viewPart m)) = false →
    Answers (.registerWrite m addr len value) s fun t =>
      t.fbit (IntegBuserr0.valid (viewPart m)) = true ∧ t.fget (IntegBuserr0.cause (viewPart m)) = 2 ∧
      t.fget (IntegBuserr0.master (viewPart m)) = m.val ∧ t.fbit (IntegBuserr0.write (viewPart m)) = true ∧
      t.fget (IntegBuserr1.offset (viewPart m)) = addr.toNat ∧ t.pairs = s.pairs ∧ t.tbl = s.tbl) ∧
  (∀ (m : Master) (value : Word) (s : State), m.val < 32 → s.inReset = false → s.openPair m 2 = none → s.quiet →
    Answers (.dPairFirstWrite m (BitVec.ofNat 24 IntegDigRef.reg) value) s fun t =>
      t.pairs = s.pairs ++ [⟨m, 2, IntegDigRef.reg, value, s.ticks, false⟩] ∧ t = { s with pairs := t.pairs }) ∧
  (∀ (m : Master) (value : Word) (x : DPair) (s : State), m.val < 32 → s.inReset = false → s.pairs = [x] →
    x = ⟨m, 2, IntegDigRef.reg, value, x.openedAt, false⟩ → s.ticks - x.openedAt ≤ 156 → s.quiet →
    Answers (.registerWrite m (BitVec.ofNat 24 (IntegDigRef.reg + 4)) 4 (~~~value)) s fun t =>
      t.pairs = [] ∧ t.fget IntegDigRef.ref = value.toNat ∧ t.fbit IntegDigStat.committed = true ∧ t.tbl = s.tbl) ∧
  (∀ (m : Master) (row : Fin 19) (x : DPair) (s : State), s.openPair m row = some x → x.expired = false →
    Answers (.dPairTimeout m row) s fun t =>
      t.pairs = (s.pairs.filter fun y => !(y.master == m.val && y.row == row.val)) ++ [{ x with expired := true }] ∧
      t.fget (IntegDwlogCnt.count (viewPart m)) = min (2 ^ 32 - 1) (s.fget (IntegDwlogCnt.count (viewPart m)) + 1) ∧
      RegsBut [IntegDwlog0.reg (viewPart m), IntegDwlog1.reg (viewPart m), IntegDwlogCnt.reg (viewPart m)] s t ∧ t.tbl = s.tbl)

/-- Of R385, R419, R449, R450, R455, R459, R462 to R466, R487 and R500: a piece of a table write by a host side or JTAG stores its valid bytes and nothing else,
or is refused whole, and a longer write is the piece up to the next 64-byte boundary followed by the rest; no other master writes tables. A port grants the next
waiting master in turn in DAY, and otherwise the next of those with the highest QoS value, 7 after 256 grants (which masters a step considers is the model's
reading, log entry 178); a step without one grants none. Through the test port a read is a peek, a write is the register or table write of master 49, and a
core's register is read, and written while the core is halted, unless the debug policy bars it (log entry 176). The I2C port answers with the register's bytes
as partition 0 reads it, and refuses a write without wr_en. -/
def Obligations.BusAccesses : Prop :=
  (∀ (m : Master) (off : BitVec 26) (b : Byte) (data : List (Option Byte)) (a : Nat) (r : TblRegion) (s : State), s.deaf m = false →
    isHost m = true ∨ m = 49 → data.head? = some (some b) → off.toNat % 64 + data.length ≤ 64 → s.tblResolve m off.toNat = some a →
    tblRegion a = some r → s.tblRefused m r = none → s.fbit MemFlipT.arm = false →
    Answers (.tableWrite m off data) s fun t =>
      (∀ i < data.length, t.tstored (a + i) = ((data[i]?).getD none).or (s.tstored (a + i))) ∧
      (∀ k, (k < a ∨ a + data.length ≤ k) → t.tstored k = s.tstored k) ∧ t.cores = s.cores ∧ t.sems = s.sems) ∧
  (∀ (m : Master) (c : CoreN) (o : Nat) (bytes : List Byte) (s : State), m = 49 ∧ s.sys.trstN = true ∧ c ≠ 0 ∨ m = 32 ∧ s.fbit (SepCfg.hostCtl c) = true →
    s.inReset = false → bytes ≠ [] → o / 64 = (o + bytes.length - 1) / 64 → o + bytes.length ≤ 0x8000 → s.fbit MemFlipT.arm = false →
    Answers (.tableWrite m (BitVec.ofNat 26 (sepBase c + 0x4000 + o)) (bytes.map some)) s fun t =>
      (∀ i < bytes.length, t.tstored (sepBase c + 0x4000 + o + i) = bytes[i]?) ∧
      (∀ k, (k < sepBase c + 0x4000 + o ∨ sepBase c + 0x4000 + o + bytes.length ≤ k) → t.tstored k = s.tstored k) ∧
      t = { s with tbl := t.tbl, tflip := t.tflip }) ∧
  (∀ (m : Master) (off : BitVec 26) (b : Byte) (data : List (Option Byte)) (cause : Nat) (s : State), s.deaf m = false →
    data.head? = some (some b) → off.toNat % 64 + data.length ≤ 64 → s.fbit (IntegBuserr0.valid (viewPart m)) = false →
    isHost m = false ∧ m ≠ 49 ∧ cause = 1 ∨ (isHost m = true ∨ m = 49) ∧
      (s.tblResolve m off.toNat = none ∧ cause = 1 ∨
       ∃ a r, s.tblResolve m off.toNat = some a ∧ tblRegion a = some r ∧ s.tblRefused m r = some cause) →
    Answers (.tableWrite m off data) s fun t => t.tbl = s.tbl ∧ t.fget (IntegBuserr0.cause (viewPart m)) = cause % 16 ∧
      t.fbit (IntegBuserr0.valid (viewPart m)) = true ∧ t.fget (IntegBuserr1.offset (viewPart m)) = off.toNat) ∧
  (∀ (m : Master) (off : BitVec 26) (data : List (Option Byte)) (n : Nat) (s : State), s.deaf m = false → isHost m = true ∨ m = 49 →
    n = 64 - off.toNat % 64 → n < data.length → off.toNat + n < 2 ^ 26 →
    Answers (.tableWrite m off data) s fun t =>
      ∃ u, exec (.tableWrite m off (data.take n)) s = .next u ∧ exec (.tableWrite m (off + BitVec.ofNat 26 n) (data.drop n)) u = .next t) ∧
  (∀ (port : Fin 8) (reqs : List Master) (m : Nat) (s : State), s.inReset = false → s.fget GlbPhase.phase = 1 → port.val < 5 →
    (robin (SMap.getD s.ports port {}).last).find? (fun n => (reqs.map Fin.val).contains n && (n != 49 || s.sys.trstN) && n != 51) = some m →
    Answers (.busPieceGrant port reqs) s fun t =>
      t.out = .grant port m :: s.out ∧ (SMap.getD t.ports port {}).last = m ∧ t.regs = s.regs ∧ t.tbl = s.tbl) ∧
  (∀ (port : Fin 8) (reqs : List Master) (m best : Nat) (p : PortSt) (s : State), s.inReset = false → SMap.getD s.ports port {} = p →
    best = (((robin p.last).filter fun n => (reqs.map Fin.val).contains n && (n != 49 || s.sys.trstN) &&
      (n == 51) == (decide (5 ≤ port.val) && p.stepNo % 16 == 15)).map (s.qosNow p)).foldl max 0 →
    (robin p.last).find? (fun n => (reqs.map Fin.val).contains n && (n != 49 || s.sys.trstN) &&
      (n == 51) == (decide (5 ≤ port.val) && p.stepNo % 16 == 15) && (s.fget GlbPhase.phase == 1 || s.qosNow p n == best)) = some m →
    Answers (.busPieceGrant port reqs) s fun t =>
      t.out = .grant port m :: s.out ∧ (SMap.getD t.ports port {}).last = m ∧ (SMap.getD t.ports port {}).stepNo = (p.stepNo + 1) % 16 ∧
      t.regs = s.regs ∧ t.tbl = s.tbl ∧ ∀ n < 52, n ≠ m → (reqs.map Fin.val).contains n = true →
        SMap.getD (SMap.getD t.ports port {}).waited n 0 = SMap.getD p.waited n 0 + 1) ∧
  (∀ (port : Fin 8) (p : PortSt) (s : State), s.inReset = false → SMap.getD s.ports port {} = p →
    Answers (.busPieceGrant port []) s fun t => t = { s with ports := t.ports } ∧
      SMap.getD t.ports port {} = { p with stepNo := (p.stepNo + 1) % 16 }) ∧
  (∀ (addr : BitVec 24) (r : RegAt) (s : State), s.deaf 49 = false → addr.toNat % 4 = 0 → s.resolve 49 (addr.toNat % 2 ^ 22) = some r →
    r.block ≠ .sep ∨ s.jtagBarred 49 r.inst false = false →
    Answers (.jtagAccess (.readReg addr)) s fun t => t = { s with fresh := t.fresh, out := t.out } ∧
      t.out = .readData 49 (s.readReg 49 r).1 :: s.out) ∧
  (∀ (addr : BitVec 24) (value : Word) (s : State), s.deaf 49 = false →
    Answers (.jtagAccess (.writeReg addr value)) s fun t => exec (.registerWrite 49 addr 4 value) s = .next t) ∧
  (∀ (off : BitVec 26) (data : List (Option Byte)) (s : State), s.deaf 49 = false →
    Answers (.jtagAccess (.writeTable off data)) s fun t => exec (.tableWrite 49 off data) s = .next t) ∧
  (∀ (off : BitVec 26) (len : Nat) (bytes : List Byte) (s : State), s.deaf 49 = false → bytes.length = len →
    inCore0 off.toNat len = false ∨ s.jtagBarred 49 0 false = false → s.tflip = [] →
    (∀ i < len, tblRegion (off.toNat + i) ≠ none ∧ s.tstored (off.toNat + i) = bytes[i]?) →
    Answers (.jtagAccess (.readTable off len)) s fun t => t = { s with out := .tableData 49 bytes false :: s.out }) ∧
  (∀ (c : CoreN) (i : BitVec 8) (s : State), s.deaf 49 = false → s.jtagBarred 49 c false = false → s.coreState c = 4 → i.toNat < 16 →
    Answers (.jtagAccess (.readCore c false i)) s fun t => t = { s with out := .readData 49 (s.xreg c i.toNat) :: s.out }) ∧
  (∀ (c : CoreN) (i : BitVec 8) (v : Word) (s : State), s.deaf 49 = false → s.jtagBarred 49 c false = false → s.coreState c = 4 →
    (s.core c).csr c i.toNat = some v →
    Answers (.jtagAccess (.readCore c true i)) s fun t => t = { s with out := .readData 49 v :: s.out }) ∧
  (∀ (c : CoreN) (i : BitVec 8) (value : Word) (s : State), s.deaf 49 = false → s.jtagBarred 49 c true = false → s.coreState c = 4 → i.toNat < 16 →
    Answers (.jtagAccess (.writeCore c false i value)) s fun t => t.core c = (s.core c).setReg i.toNat value ∧ OnlyCore c s t) ∧
  (∀ (c : CoreN) (csr : Bool) (i : BitVec 8) (value : Word) (s : State), s.deaf 49 = false → s.fbit (IntegBuserr0.valid 0) = false →
    s.jtagBarred 49 c true = true ∨ s.coreState c ≠ 4 →
    Answers (.jtagAccess (.writeCore c csr i value)) s fun t => t.fget (IntegBuserr0.cause 0) = 8 ∧ t.fget (IntegBuserr0.master 0) = 49 ∧
      t.cores = s.cores ∧ t.tbl = s.tbl) ∧
  (∀ (a : JtagAccess) (s : State), s.deaf 49 = true → Answers (.jtagAccess a) s fun t => t = s) ∧
  (∀ (addr : BitVec 24) (value : Word) (s : State), s.inReset = false → s.fbit MgmtI2cTgt.wrEn = false →
    Answers (.i2cTargetWrite addr value) s fun t => t.out = .i2c [] false :: s.out ∧ t = { s with out := t.out }) ∧
  (∀ (addr : BitVec 24) (value : Word) (s : State), s.inReset = false → s.fbit MgmtI2cTgt.wrEn = true →
    Answers (.i2cTargetWrite addr value) s fun t =>
      ∃ u, exec (.registerWrite 32 addr 4 value) s = .next u ∧ t = { u with out := .i2c [] true :: u.out }) ∧
  (∀ (addr : BitVec 24) (value : Word) (c : CoreN) (s : State), s.inReset = false → s.fbit MgmtI2cTgt.wrEn = true → s.openPair 32 18 = none → s.quiet →
    addr.toNat = SepMboxIn.reg c → s.coreState c ≠ 0 → s.coreState c ≠ 6 →
    Answers (.i2cTargetWrite addr value) s fun t =>
      t.out = .i2c [] true :: s.out ∧ t.rget (SepMboxIn.reg c) = value ∧ (t.core c).evpend = (s.core c).evpend ||| 4) ∧
  (∀ (addr : BitVec 24) (r : RegAt) (s : State), s.inReset = false → addr.toNat % 4 = 0 → s.resolve 32 (addr.toNat % 2 ^ 22) = some r →
    Answers (.i2cTargetRead addr) s fun t =>
      t.out.head? = some (.i2c (leBytes 4 (s.readReg 32 r).1.toNat) true) ∧ t.tbl = s.tbl ∧ t.cores = s.cores) ∧
  (∀ (addr : BitVec 24) (s : State), s.inReset = false →
    Answers (.i2cTargetRead addr) s fun t => ∃ bs, bs.length = 4 ∧ t.out.head? = some (.i2c bs true))

/-- What each command of the register reads, lanes, tributaries, calendars, windows, admission and slicers leaves unchanged, in every state and for every operand: each part of the state not listed for it, and each register outside the arrays listed for it. -/
def Obligations.TrafficFrames : Prop :=
  busFrames ∧ readFrames1 ∧ readFrames2 ∧ laneFrames1 ∧ laneFrames2 ∧ laneRxFrames1 ∧ laneRxFrames2 ∧ tribFrames1 ∧ tribFrames2 ∧ windowFrames1 ∧ windowFrames2 ∧ admissionFrames ∧ slicerFrames

/-- What each command of protection, the pair, the timing inputs and outputs, the oscillator and the cascade leaves unchanged, in every state and for every operand: each part of the state not listed for it, and each register outside the arrays listed for it. -/
def Obligations.TimingAndCascadeFrames : Prop :=
  pairFrames1 ∧ pairFrames2 ∧ pairFrames3 ∧ timingFrames1 ∧ timingFrames2 ∧ timingFrames3 ∧ timingFrames4 ∧ cascadeFrames1 ∧ cascadeFrames2 ∧ cascadeFrames3 ∧ cascadeFrames4

/-- What each command of the host rings, capture, the memories, the phases, boot, power, management and telemetry leaves unchanged, in every state and for every operand: each part of the state not listed for it, and each register outside the arrays listed for it. -/
def Obligations.HostAndMemoryFrames : Prop :=
  coreFrames ∧ powerFrames1 ∧ powerFrames2 ∧ hostFrames1 ∧ hostFrames2 ∧ hostFrames3 ∧ hostFrames4 ∧ captureFrames ∧ bootFrames1 ∧ bootFrames2 ∧ memoryFrames1 ∧ memoryFrames2 ∧ manageFrames1 ∧ manageFrames2
end

