-- ==== Sys2Proof/Laws/SMap.lean ====
section
/-! SUPPORT. What the operations of a sparse map do: a read after a write, the other keys, and the canonical form they keep. -/

namespace Sys2Proof.Machine

variable {α : Type}

@[simp] theorem SMap.find_ins_same (m : SMap α) (k : Nat) (v : α) : SMap.find (SMap.ins m k v) k = some v := by
  induction m with
  | nil => simp [SMap.ins, SMap.find]
  | cons e m ih =>
    obtain ⟨a, b⟩ := e
    unfold SMap.ins
    split
    · simp [SMap.find]
    · split
      · simp [SMap.find]
      · simp [SMap.find, *]

theorem SMap.find_ins_ne (m : SMap α) {k j : Nat} (v : α) (h : j ≠ k) : SMap.find (SMap.ins m k v) j = SMap.find m j := by
  induction m with
  | nil => simp [SMap.ins, SMap.find, Ne.symm h]
  | cons e m ih =>
    obtain ⟨a, b⟩ := e
    unfold SMap.ins
    split
    · simp [SMap.find, Ne.symm h]
    · split
      · subst_vars; simp [SMap.find, Ne.symm h]
      · simp [SMap.find, ih]

@[simp] theorem SMap.find_del_same (m : SMap α) (k : Nat) : SMap.find (SMap.del m k) k = none := by
  induction m with
  | nil => rfl
  | cons e m ih =>
    obtain ⟨a, b⟩ := e
    unfold SMap.del
    split <;> simp_all [SMap.find]

theorem SMap.find_del_ne (m : SMap α) {k j : Nat} (h : j ≠ k) : SMap.find (SMap.del m k) j = SMap.find m j := by
  induction m with
  | nil => rfl
  | cons e m ih =>
    obtain ⟨a, b⟩ := e
    unfold SMap.del
    split
    · subst_vars; simp [SMap.find, ih, Ne.symm h]
    · simp [SMap.find, ih]

variable [DecidableEq α]

/-- A read after a write of the same key gives the value written. -/
@[simp] theorem SMap.getD_putD_same (m : SMap α) (k : Nat) (d v : α) : SMap.getD (SMap.putD m k d v) k d = v := by
  unfold SMap.getD SMap.putD
  split <;> simp_all

/-- A write of one key leaves every other. -/
theorem SMap.getD_putD_ne (m : SMap α) {k j : Nat} (d e v : α) (h : j ≠ k) :
    SMap.getD (SMap.putD m k d v) j e = SMap.getD m j e := by
  unfold SMap.getD SMap.putD
  split <;> simp [SMap.find_ins_ne, SMap.find_del_ne, h]

/-- Writing what a key reads as, where the map is canonical there, is a read. -/
theorem SMap.getD_putD (m : SMap α) (k j : Nat) (d v : α) :
    SMap.getD (SMap.putD m k d v) j d = if j = k then v else SMap.getD m j d := by
  split
  · subst_vars; simp
  · exact SMap.getD_putD_ne m d d v ‹_›

/-! ## The canonical form -/

omit [DecidableEq α] in
/-- A bound of the keys may be lowered. -/
theorem SMap.risingFrom_weaken {m : SMap α} {a b : Nat} (h : SMap.risingFrom (some b) m = true) (hab : a ≤ b) :
    SMap.risingFrom (some a) m = true := by
  cases m with
  | nil => rfl
  | cons e m =>
    obtain ⟨k, v⟩ := e
    simp only [SMap.risingFrom, Bool.and_eq_true, decide_eq_true_eq] at h ⊢
    exact ⟨by omega, h.2⟩

omit [DecidableEq α] in
theorem SMap.rising_of_from {m : SMap α} {b : Option Nat} (h : SMap.risingFrom b m = true) : SMap.rising m = true := by
  cases m with
  | nil => rfl
  | cons e m =>
    obtain ⟨k, v⟩ := e
    simp only [SMap.rising, SMap.risingFrom, Bool.and_eq_true] at h ⊢
    exact ⟨trivial, h.2⟩

omit [DecidableEq α] in
theorem SMap.risingFrom_ins {m : SMap α} {b : Option Nat} {k : Nat} {v : α} (h : SMap.risingFrom b m = true)
    (hb : ∀ x, b = some x → x < k) : SMap.risingFrom b (SMap.ins m k v) = true := by
  induction m generalizing b with
  | nil => cases b <;> simp_all [SMap.ins, SMap.risingFrom]
  | cons e m ih =>
    obtain ⟨a, w⟩ := e
    unfold SMap.ins
    simp only [SMap.risingFrom, Bool.and_eq_true] at h
    split
    · cases b <;> simp_all [SMap.risingFrom]
    · split
      · subst_vars; cases b <;> simp_all [SMap.risingFrom]
      · simp only [SMap.risingFrom, Bool.and_eq_true]
        exact ⟨h.1, ih h.2 (by intro x hx; cases hx; omega)⟩

omit [DecidableEq α] in
theorem SMap.risingFrom_del {m : SMap α} {b : Option Nat} {k : Nat} (h : SMap.risingFrom b m = true) :
    SMap.risingFrom b (SMap.del m k) = true := by
  induction m generalizing b with
  | nil => simpa [SMap.del] using h
  | cons e m ih =>
    obtain ⟨a, w⟩ := e
    simp only [SMap.risingFrom, Bool.and_eq_true] at h
    unfold SMap.del
    split
    · have h2 := ih h.2
      cases b with
      | none => exact SMap.rising_of_from h2
      | some x => exact SMap.risingFrom_weaken h2 (by simp_all; omega)
    · simp only [SMap.risingFrom, Bool.and_eq_true]
      exact ⟨h.1, ih h.2⟩

omit [DecidableEq α] in
/-- An insertion keeps the keys rising. -/
theorem SMap.rising_ins {m : SMap α} (h : SMap.rising m = true) (k : Nat) (v : α) : SMap.rising (SMap.ins m k v) = true :=
  SMap.risingFrom_ins h (by simp)

omit [DecidableEq α] in
/-- A deletion keeps the keys rising. -/
theorem SMap.rising_del {m : SMap α} (h : SMap.rising m = true) (k : Nat) : SMap.rising (SMap.del m k) = true :=
  SMap.risingFrom_del h

/-- A write keeps the keys rising. -/
theorem SMap.rising_putD {m : SMap α} (h : SMap.rising m = true) (k : Nat) (d v : α) :
    SMap.rising (SMap.putD m k d v) = true := by
  unfold SMap.putD
  split
  · exact SMap.rising_del h k
  · exact SMap.rising_ins h k v

omit [DecidableEq α] in
/-- Dropping entries keeps the keys rising. -/
theorem SMap.risingFrom_filter {m : SMap α} {b : Option Nat} (h : SMap.risingFrom b m = true) (f : Nat × α → Bool) :
    SMap.risingFrom b (m.filter f) = true := by
  induction m generalizing b with
  | nil => simpa using h
  | cons e m ih =>
    obtain ⟨a, w⟩ := e
    simp only [SMap.risingFrom, Bool.and_eq_true] at h
    rw [List.filter_cons]
    split
    · simp only [SMap.risingFrom, Bool.and_eq_true]
      exact ⟨h.1, ih h.2⟩
    · have h2 := ih h.2
      cases b with
      | none => exact SMap.rising_of_from h2
      | some x => exact SMap.risingFrom_weaken h2 (by simp_all; omega)

omit [DecidableEq α] in
theorem SMap.rising_filter {m : SMap α} (h : SMap.rising m = true) (f : Nat × α → Bool) : SMap.rising (m.filter f) = true :=
  SMap.risingFrom_filter h f

end Sys2Proof.Machine
end

