-- ==== Sys2Proof/Laws/State.lean ====
section
/-! SUPPORT. What the updates of State change and what they leave: one lemma for each field or reading and each update. -/

namespace Sys2Proof.Machine

variable (s : State)

/-! ## rset -/

@[simp] theorem State.rset_pending (k : Nat) (w : Word) : (s.rset k w).pending = s.pending := rfl
@[simp] theorem State.rset_clock (k : Nat) (w : Word) : (s.rset k w).clock = s.clock := rfl
@[simp] theorem State.rset_ticks (k : Nat) (w : Word) : (s.rset k w).ticks = s.ticks := rfl
@[simp] theorem State.rset_counters (k : Nat) (w : Word) : (s.rset k w).counters = s.counters := rfl
@[simp] theorem State.rset_mail (k : Nat) (w : Word) : (s.rset k w).mail = s.mail := rfl
@[simp] theorem State.rset_pairs (k : Nat) (w : Word) : (s.rset k w).pairs = s.pairs := rfl
@[simp] theorem State.rset_ports (k : Nat) (w : Word) : (s.rset k w).ports = s.ports := rfl
@[simp] theorem State.rset_casErrs (k : Nat) (w : Word) : (s.rset k w).casErrs = s.casErrs := rfl
@[simp] theorem State.rset_digErrs (k : Nat) (w : Word) : (s.rset k w).digErrs = s.digErrs := rfl
@[simp] theorem State.rset_tbl (k : Nat) (w : Word) : (s.rset k w).tbl = s.tbl := rfl
@[simp] theorem State.rset_tflip (k : Nat) (w : Word) : (s.rset k w).tflip = s.tflip := rfl
@[simp] theorem State.rset_lanes (k : Nat) (w : Word) : (s.rset k w).lanes = s.lanes := rfl
@[simp] theorem State.rset_groups (k : Nat) (w : Word) : (s.rset k w).groups = s.groups := rfl
@[simp] theorem State.rset_tribs (k : Nat) (w : Word) : (s.rset k w).tribs = s.tribs := rfl
@[simp] theorem State.rset_cores (k : Nat) (w : Word) : (s.rset k w).cores = s.cores := rfl
@[simp] theorem State.rset_sems (k : Nat) (w : Word) : (s.rset k w).sems = s.sems := rfl
@[simp] theorem State.rset_mem (k : Nat) (w : Word) : (s.rset k w).mem = s.mem := rfl
@[simp] theorem State.rset_sys (k : Nat) (w : Word) : (s.rset k w).sys = s.sys := rfl
@[simp] theorem State.rset_rings (k : Nat) (w : Word) : (s.rset k w).rings = s.rings := rfl
@[simp] theorem State.rset_parts (k : Nat) (w : Word) : (s.rset k w).parts = s.parts := rfl
@[simp] theorem State.rset_reads (k : Nat) (w : Word) : (s.rset k w).reads = s.reads := rfl
@[simp] theorem State.rset_quarantine (k : Nat) (w : Word) : (s.rset k w).quarantine = s.quarantine := rfl
@[simp] theorem State.rset_slcs (k : Nat) (w : Word) : (s.rset k w).slcs = s.slcs := rfl
@[simp] theorem State.rset_cellsIn (k : Nat) (w : Word) : (s.rset k w).cellsIn = s.cellsIn := rfl
@[simp] theorem State.rset_wins (k : Nat) (w : Word) : (s.rset k w).wins = s.wins := rfl
@[simp] theorem State.rset_tim (k : Nat) (w : Word) : (s.rset k w).tim = s.tim := rfl
@[simp] theorem State.rset_pair (k : Nat) (w : Word) : (s.rset k w).pair = s.pair := rfl
@[simp] theorem State.rset_cas (k : Nat) (w : Word) : (s.rset k w).cas = s.cas := rfl
@[simp] theorem State.rset_fresh (k : Nat) (w : Word) : (s.rset k w).fresh = s.fresh := rfl
@[simp] theorem State.rset_out (k : Nat) (w : Word) : (s.rset k w).out = s.out := rfl
@[simp] theorem State.rset_core (k : Nat) (w : Word) (j : Nat) : (s.rset k w).core j = s.core j := rfl
@[simp] theorem State.rset_sem (k : Nat) (w : Word) (j : Nat) : (s.rset k w).sem j = s.sem j := rfl
@[simp] theorem State.rset_lane (k : Nat) (w : Word) (j : Nat) : (s.rset k w).lane j = s.lane j := rfl
@[simp] theorem State.rset_group (k : Nat) (w : Word) (j : Nat) : (s.rset k w).group j = s.group j := rfl
@[simp] theorem State.rset_trib (k : Nat) (w : Word) (j : Nat) : (s.rset k w).trib j = s.trib j := rfl
@[simp] theorem State.rset_part (k : Nat) (w : Word) (j : Nat) : (s.rset k w).part j = s.part j := rfl
@[simp] theorem State.rset_ring (k : Nat) (w : Word) (p' j : Nat) : (s.rset k w).ring p' j = s.ring p' j := rfl
@[simp] theorem State.rset_winSt (k : Nat) (w : Word) (j : Nat) : (s.rset k w).winSt j = s.winSt j := rfl
@[simp] theorem State.rset_tstored (k : Nat) (w : Word) (j : Nat) : (s.rset k w).tstored j = s.tstored j := rfl
@[simp] theorem State.rset_now (k : Nat) (w : Word) : (s.rset k w).now = s.now := rfl
@[simp] theorem State.rset_ctr (k : Nat) (w : Word) (f' : CtrKind) (u' j : Nat) : (s.rset k w).ctr f' u' j = s.ctr f' u' j := rfl
@[simp] theorem State.rset_mailOf (k : Nat) (w : Word) (m' : Nat) (b' : Mailbox) : (s.rset k w).mailOf m' b' = s.mailOf m' b' := rfl
@[simp] theorem State.rset_inReset (k : Nat) (w : Word) : (s.rset k w).inReset = s.inReset := rfl

/-! ## fset -/

@[simp] theorem State.fset_pending (r : FRef) (v : Nat) : (s.fset r v).pending = s.pending := rfl
@[simp] theorem State.fset_clock (r : FRef) (v : Nat) : (s.fset r v).clock = s.clock := rfl
@[simp] theorem State.fset_ticks (r : FRef) (v : Nat) : (s.fset r v).ticks = s.ticks := rfl
@[simp] theorem State.fset_counters (r : FRef) (v : Nat) : (s.fset r v).counters = s.counters := rfl
@[simp] theorem State.fset_mail (r : FRef) (v : Nat) : (s.fset r v).mail = s.mail := rfl
@[simp] theorem State.fset_pairs (r : FRef) (v : Nat) : (s.fset r v).pairs = s.pairs := rfl
@[simp] theorem State.fset_ports (r : FRef) (v : Nat) : (s.fset r v).ports = s.ports := rfl
@[simp] theorem State.fset_casErrs (r : FRef) (v : Nat) : (s.fset r v).casErrs = s.casErrs := rfl
@[simp] theorem State.fset_digErrs (r : FRef) (v : Nat) : (s.fset r v).digErrs = s.digErrs := rfl
@[simp] theorem State.fset_tbl (r : FRef) (v : Nat) : (s.fset r v).tbl = s.tbl := rfl
@[simp] theorem State.fset_tflip (r : FRef) (v : Nat) : (s.fset r v).tflip = s.tflip := rfl
@[simp] theorem State.fset_lanes (r : FRef) (v : Nat) : (s.fset r v).lanes = s.lanes := rfl
@[simp] theorem State.fset_groups (r : FRef) (v : Nat) : (s.fset r v).groups = s.groups := rfl
@[simp] theorem State.fset_tribs (r : FRef) (v : Nat) : (s.fset r v).tribs = s.tribs := rfl
@[simp] theorem State.fset_cores (r : FRef) (v : Nat) : (s.fset r v).cores = s.cores := rfl
@[simp] theorem State.fset_sems (r : FRef) (v : Nat) : (s.fset r v).sems = s.sems := rfl
@[simp] theorem State.fset_mem (r : FRef) (v : Nat) : (s.fset r v).mem = s.mem := rfl
@[simp] theorem State.fset_sys (r : FRef) (v : Nat) : (s.fset r v).sys = s.sys := rfl
@[simp] theorem State.fset_rings (r : FRef) (v : Nat) : (s.fset r v).rings = s.rings := rfl
@[simp] theorem State.fset_parts (r : FRef) (v : Nat) : (s.fset r v).parts = s.parts := rfl
@[simp] theorem State.fset_reads (r : FRef) (v : Nat) : (s.fset r v).reads = s.reads := rfl
@[simp] theorem State.fset_quarantine (r : FRef) (v : Nat) : (s.fset r v).quarantine = s.quarantine := rfl
@[simp] theorem State.fset_slcs (r : FRef) (v : Nat) : (s.fset r v).slcs = s.slcs := rfl
@[simp] theorem State.fset_cellsIn (r : FRef) (v : Nat) : (s.fset r v).cellsIn = s.cellsIn := rfl
@[simp] theorem State.fset_wins (r : FRef) (v : Nat) : (s.fset r v).wins = s.wins := rfl
@[simp] theorem State.fset_tim (r : FRef) (v : Nat) : (s.fset r v).tim = s.tim := rfl
@[simp] theorem State.fset_pair (r : FRef) (v : Nat) : (s.fset r v).pair = s.pair := rfl
@[simp] theorem State.fset_cas (r : FRef) (v : Nat) : (s.fset r v).cas = s.cas := rfl
@[simp] theorem State.fset_fresh (r : FRef) (v : Nat) : (s.fset r v).fresh = s.fresh := rfl
@[simp] theorem State.fset_out (r : FRef) (v : Nat) : (s.fset r v).out = s.out := rfl
@[simp] theorem State.fset_core (r : FRef) (v : Nat) (j : Nat) : (s.fset r v).core j = s.core j := rfl
@[simp] theorem State.fset_sem (r : FRef) (v : Nat) (j : Nat) : (s.fset r v).sem j = s.sem j := rfl
@[simp] theorem State.fset_lane (r : FRef) (v : Nat) (j : Nat) : (s.fset r v).lane j = s.lane j := rfl
@[simp] theorem State.fset_group (r : FRef) (v : Nat) (j : Nat) : (s.fset r v).group j = s.group j := rfl
@[simp] theorem State.fset_trib (r : FRef) (v : Nat) (j : Nat) : (s.fset r v).trib j = s.trib j := rfl
@[simp] theorem State.fset_part (r : FRef) (v : Nat) (j : Nat) : (s.fset r v).part j = s.part j := rfl
@[simp] theorem State.fset_ring (r : FRef) (v : Nat) (p' j : Nat) : (s.fset r v).ring p' j = s.ring p' j := rfl
@[simp] theorem State.fset_winSt (r : FRef) (v : Nat) (j : Nat) : (s.fset r v).winSt j = s.winSt j := rfl
@[simp] theorem State.fset_tstored (r : FRef) (v : Nat) (j : Nat) : (s.fset r v).tstored j = s.tstored j := rfl
@[simp] theorem State.fset_now (r : FRef) (v : Nat) : (s.fset r v).now = s.now := rfl
@[simp] theorem State.fset_ctr (r : FRef) (v : Nat) (f' : CtrKind) (u' j : Nat) : (s.fset r v).ctr f' u' j = s.ctr f' u' j := rfl
@[simp] theorem State.fset_mailOf (r : FRef) (v : Nat) (m' : Nat) (b' : Mailbox) : (s.fset r v).mailOf m' b' = s.mailOf m' b' := rfl
@[simp] theorem State.fset_inReset (r : FRef) (v : Nat) : (s.fset r v).inReset = s.inReset := rfl

/-! ## fsetB -/

@[simp] theorem State.fsetB_pending (r : FRef) (b : Bool) : (s.fsetB r b).pending = s.pending := rfl
@[simp] theorem State.fsetB_clock (r : FRef) (b : Bool) : (s.fsetB r b).clock = s.clock := rfl
@[simp] theorem State.fsetB_ticks (r : FRef) (b : Bool) : (s.fsetB r b).ticks = s.ticks := rfl
@[simp] theorem State.fsetB_counters (r : FRef) (b : Bool) : (s.fsetB r b).counters = s.counters := rfl
@[simp] theorem State.fsetB_mail (r : FRef) (b : Bool) : (s.fsetB r b).mail = s.mail := rfl
@[simp] theorem State.fsetB_pairs (r : FRef) (b : Bool) : (s.fsetB r b).pairs = s.pairs := rfl
@[simp] theorem State.fsetB_ports (r : FRef) (b : Bool) : (s.fsetB r b).ports = s.ports := rfl
@[simp] theorem State.fsetB_casErrs (r : FRef) (b : Bool) : (s.fsetB r b).casErrs = s.casErrs := rfl
@[simp] theorem State.fsetB_digErrs (r : FRef) (b : Bool) : (s.fsetB r b).digErrs = s.digErrs := rfl
@[simp] theorem State.fsetB_tbl (r : FRef) (b : Bool) : (s.fsetB r b).tbl = s.tbl := rfl
@[simp] theorem State.fsetB_tflip (r : FRef) (b : Bool) : (s.fsetB r b).tflip = s.tflip := rfl
@[simp] theorem State.fsetB_lanes (r : FRef) (b : Bool) : (s.fsetB r b).lanes = s.lanes := rfl
@[simp] theorem State.fsetB_groups (r : FRef) (b : Bool) : (s.fsetB r b).groups = s.groups := rfl
@[simp] theorem State.fsetB_tribs (r : FRef) (b : Bool) : (s.fsetB r b).tribs = s.tribs := rfl
@[simp] theorem State.fsetB_cores (r : FRef) (b : Bool) : (s.fsetB r b).cores = s.cores := rfl
@[simp] theorem State.fsetB_sems (r : FRef) (b : Bool) : (s.fsetB r b).sems = s.sems := rfl
@[simp] theorem State.fsetB_mem (r : FRef) (b : Bool) : (s.fsetB r b).mem = s.mem := rfl
@[simp] theorem State.fsetB_sys (r : FRef) (b : Bool) : (s.fsetB r b).sys = s.sys := rfl
@[simp] theorem State.fsetB_rings (r : FRef) (b : Bool) : (s.fsetB r b).rings = s.rings := rfl
@[simp] theorem State.fsetB_parts (r : FRef) (b : Bool) : (s.fsetB r b).parts = s.parts := rfl
@[simp] theorem State.fsetB_reads (r : FRef) (b : Bool) : (s.fsetB r b).reads = s.reads := rfl
@[simp] theorem State.fsetB_quarantine (r : FRef) (b : Bool) : (s.fsetB r b).quarantine = s.quarantine := rfl
@[simp] theorem State.fsetB_slcs (r : FRef) (b : Bool) : (s.fsetB r b).slcs = s.slcs := rfl
@[simp] theorem State.fsetB_cellsIn (r : FRef) (b : Bool) : (s.fsetB r b).cellsIn = s.cellsIn := rfl
@[simp] theorem State.fsetB_wins (r : FRef) (b : Bool) : (s.fsetB r b).wins = s.wins := rfl
@[simp] theorem State.fsetB_tim (r : FRef) (b : Bool) : (s.fsetB r b).tim = s.tim := rfl
@[simp] theorem State.fsetB_pair (r : FRef) (b : Bool) : (s.fsetB r b).pair = s.pair := rfl
@[simp] theorem State.fsetB_cas (r : FRef) (b : Bool) : (s.fsetB r b).cas = s.cas := rfl
@[simp] theorem State.fsetB_fresh (r : FRef) (b : Bool) : (s.fsetB r b).fresh = s.fresh := rfl
@[simp] theorem State.fsetB_out (r : FRef) (b : Bool) : (s.fsetB r b).out = s.out := rfl
@[simp] theorem State.fsetB_core (r : FRef) (b : Bool) (j : Nat) : (s.fsetB r b).core j = s.core j := rfl
@[simp] theorem State.fsetB_sem (r : FRef) (b : Bool) (j : Nat) : (s.fsetB r b).sem j = s.sem j := rfl
@[simp] theorem State.fsetB_lane (r : FRef) (b : Bool) (j : Nat) : (s.fsetB r b).lane j = s.lane j := rfl
@[simp] theorem State.fsetB_group (r : FRef) (b : Bool) (j : Nat) : (s.fsetB r b).group j = s.group j := rfl
@[simp] theorem State.fsetB_trib (r : FRef) (b : Bool) (j : Nat) : (s.fsetB r b).trib j = s.trib j := rfl
@[simp] theorem State.fsetB_part (r : FRef) (b : Bool) (j : Nat) : (s.fsetB r b).part j = s.part j := rfl
@[simp] theorem State.fsetB_ring (r : FRef) (b : Bool) (p' j : Nat) : (s.fsetB r b).ring p' j = s.ring p' j := rfl
@[simp] theorem State.fsetB_winSt (r : FRef) (b : Bool) (j : Nat) : (s.fsetB r b).winSt j = s.winSt j := rfl
@[simp] theorem State.fsetB_tstored (r : FRef) (b : Bool) (j : Nat) : (s.fsetB r b).tstored j = s.tstored j := rfl
@[simp] theorem State.fsetB_now (r : FRef) (b : Bool) : (s.fsetB r b).now = s.now := rfl
@[simp] theorem State.fsetB_ctr (r : FRef) (b : Bool) (f' : CtrKind) (u' j : Nat) : (s.fsetB r b).ctr f' u' j = s.ctr f' u' j := rfl
@[simp] theorem State.fsetB_mailOf (r : FRef) (b : Bool) (m' : Nat) (b' : Mailbox) : (s.fsetB r b).mailOf m' b' = s.mailOf m' b' := rfl
@[simp] theorem State.fsetB_inReset (r : FRef) (b : Bool) : (s.fsetB r b).inReset = s.inReset := rfl

/-! ## stick -/

@[simp] theorem State.stick_pending (r : FRef) (v : Nat) : (s.stick r v).pending = s.pending := rfl
@[simp] theorem State.stick_clock (r : FRef) (v : Nat) : (s.stick r v).clock = s.clock := rfl
@[simp] theorem State.stick_ticks (r : FRef) (v : Nat) : (s.stick r v).ticks = s.ticks := rfl
@[simp] theorem State.stick_counters (r : FRef) (v : Nat) : (s.stick r v).counters = s.counters := rfl
@[simp] theorem State.stick_mail (r : FRef) (v : Nat) : (s.stick r v).mail = s.mail := rfl
@[simp] theorem State.stick_pairs (r : FRef) (v : Nat) : (s.stick r v).pairs = s.pairs := rfl
@[simp] theorem State.stick_ports (r : FRef) (v : Nat) : (s.stick r v).ports = s.ports := rfl
@[simp] theorem State.stick_casErrs (r : FRef) (v : Nat) : (s.stick r v).casErrs = s.casErrs := rfl
@[simp] theorem State.stick_digErrs (r : FRef) (v : Nat) : (s.stick r v).digErrs = s.digErrs := rfl
@[simp] theorem State.stick_tbl (r : FRef) (v : Nat) : (s.stick r v).tbl = s.tbl := rfl
@[simp] theorem State.stick_tflip (r : FRef) (v : Nat) : (s.stick r v).tflip = s.tflip := rfl
@[simp] theorem State.stick_lanes (r : FRef) (v : Nat) : (s.stick r v).lanes = s.lanes := rfl
@[simp] theorem State.stick_groups (r : FRef) (v : Nat) : (s.stick r v).groups = s.groups := rfl
@[simp] theorem State.stick_tribs (r : FRef) (v : Nat) : (s.stick r v).tribs = s.tribs := rfl
@[simp] theorem State.stick_cores (r : FRef) (v : Nat) : (s.stick r v).cores = s.cores := rfl
@[simp] theorem State.stick_sems (r : FRef) (v : Nat) : (s.stick r v).sems = s.sems := rfl
@[simp] theorem State.stick_mem (r : FRef) (v : Nat) : (s.stick r v).mem = s.mem := rfl
@[simp] theorem State.stick_sys (r : FRef) (v : Nat) : (s.stick r v).sys = s.sys := rfl
@[simp] theorem State.stick_rings (r : FRef) (v : Nat) : (s.stick r v).rings = s.rings := rfl
@[simp] theorem State.stick_parts (r : FRef) (v : Nat) : (s.stick r v).parts = s.parts := rfl
@[simp] theorem State.stick_reads (r : FRef) (v : Nat) : (s.stick r v).reads = s.reads := rfl
@[simp] theorem State.stick_quarantine (r : FRef) (v : Nat) : (s.stick r v).quarantine = s.quarantine := rfl
@[simp] theorem State.stick_slcs (r : FRef) (v : Nat) : (s.stick r v).slcs = s.slcs := rfl
@[simp] theorem State.stick_cellsIn (r : FRef) (v : Nat) : (s.stick r v).cellsIn = s.cellsIn := rfl
@[simp] theorem State.stick_wins (r : FRef) (v : Nat) : (s.stick r v).wins = s.wins := rfl
@[simp] theorem State.stick_tim (r : FRef) (v : Nat) : (s.stick r v).tim = s.tim := rfl
@[simp] theorem State.stick_pair (r : FRef) (v : Nat) : (s.stick r v).pair = s.pair := rfl
@[simp] theorem State.stick_cas (r : FRef) (v : Nat) : (s.stick r v).cas = s.cas := rfl
@[simp] theorem State.stick_fresh (r : FRef) (v : Nat) : (s.stick r v).fresh = s.fresh := rfl
@[simp] theorem State.stick_out (r : FRef) (v : Nat) : (s.stick r v).out = s.out := rfl
@[simp] theorem State.stick_core (r : FRef) (v : Nat) (j : Nat) : (s.stick r v).core j = s.core j := rfl
@[simp] theorem State.stick_sem (r : FRef) (v : Nat) (j : Nat) : (s.stick r v).sem j = s.sem j := rfl
@[simp] theorem State.stick_lane (r : FRef) (v : Nat) (j : Nat) : (s.stick r v).lane j = s.lane j := rfl
@[simp] theorem State.stick_group (r : FRef) (v : Nat) (j : Nat) : (s.stick r v).group j = s.group j := rfl
@[simp] theorem State.stick_trib (r : FRef) (v : Nat) (j : Nat) : (s.stick r v).trib j = s.trib j := rfl
@[simp] theorem State.stick_part (r : FRef) (v : Nat) (j : Nat) : (s.stick r v).part j = s.part j := rfl
@[simp] theorem State.stick_ring (r : FRef) (v : Nat) (p' j : Nat) : (s.stick r v).ring p' j = s.ring p' j := rfl
@[simp] theorem State.stick_winSt (r : FRef) (v : Nat) (j : Nat) : (s.stick r v).winSt j = s.winSt j := rfl
@[simp] theorem State.stick_tstored (r : FRef) (v : Nat) (j : Nat) : (s.stick r v).tstored j = s.tstored j := rfl
@[simp] theorem State.stick_now (r : FRef) (v : Nat) : (s.stick r v).now = s.now := rfl
@[simp] theorem State.stick_ctr (r : FRef) (v : Nat) (f' : CtrKind) (u' j : Nat) : (s.stick r v).ctr f' u' j = s.ctr f' u' j := rfl
@[simp] theorem State.stick_mailOf (r : FRef) (v : Nat) (m' : Nat) (b' : Mailbox) : (s.stick r v).mailOf m' b' = s.mailOf m' b' := rfl
@[simp] theorem State.stick_inReset (r : FRef) (v : Nat) : (s.stick r v).inReset = s.inReset := rfl

/-! ## fsat -/

@[simp] theorem State.fsat_pending (r : FRef) (n : Nat) : (s.fsat r n).pending = s.pending := rfl
@[simp] theorem State.fsat_clock (r : FRef) (n : Nat) : (s.fsat r n).clock = s.clock := rfl
@[simp] theorem State.fsat_ticks (r : FRef) (n : Nat) : (s.fsat r n).ticks = s.ticks := rfl
@[simp] theorem State.fsat_counters (r : FRef) (n : Nat) : (s.fsat r n).counters = s.counters := rfl
@[simp] theorem State.fsat_mail (r : FRef) (n : Nat) : (s.fsat r n).mail = s.mail := rfl
@[simp] theorem State.fsat_pairs (r : FRef) (n : Nat) : (s.fsat r n).pairs = s.pairs := rfl
@[simp] theorem State.fsat_ports (r : FRef) (n : Nat) : (s.fsat r n).ports = s.ports := rfl
@[simp] theorem State.fsat_casErrs (r : FRef) (n : Nat) : (s.fsat r n).casErrs = s.casErrs := rfl
@[simp] theorem State.fsat_digErrs (r : FRef) (n : Nat) : (s.fsat r n).digErrs = s.digErrs := rfl
@[simp] theorem State.fsat_tbl (r : FRef) (n : Nat) : (s.fsat r n).tbl = s.tbl := rfl
@[simp] theorem State.fsat_tflip (r : FRef) (n : Nat) : (s.fsat r n).tflip = s.tflip := rfl
@[simp] theorem State.fsat_lanes (r : FRef) (n : Nat) : (s.fsat r n).lanes = s.lanes := rfl
@[simp] theorem State.fsat_groups (r : FRef) (n : Nat) : (s.fsat r n).groups = s.groups := rfl
@[simp] theorem State.fsat_tribs (r : FRef) (n : Nat) : (s.fsat r n).tribs = s.tribs := rfl
@[simp] theorem State.fsat_cores (r : FRef) (n : Nat) : (s.fsat r n).cores = s.cores := rfl
@[simp] theorem State.fsat_sems (r : FRef) (n : Nat) : (s.fsat r n).sems = s.sems := rfl
@[simp] theorem State.fsat_mem (r : FRef) (n : Nat) : (s.fsat r n).mem = s.mem := rfl
@[simp] theorem State.fsat_sys (r : FRef) (n : Nat) : (s.fsat r n).sys = s.sys := rfl
@[simp] theorem State.fsat_rings (r : FRef) (n : Nat) : (s.fsat r n).rings = s.rings := rfl
@[simp] theorem State.fsat_parts (r : FRef) (n : Nat) : (s.fsat r n).parts = s.parts := rfl
@[simp] theorem State.fsat_reads (r : FRef) (n : Nat) : (s.fsat r n).reads = s.reads := rfl
@[simp] theorem State.fsat_quarantine (r : FRef) (n : Nat) : (s.fsat r n).quarantine = s.quarantine := rfl
@[simp] theorem State.fsat_slcs (r : FRef) (n : Nat) : (s.fsat r n).slcs = s.slcs := rfl
@[simp] theorem State.fsat_cellsIn (r : FRef) (n : Nat) : (s.fsat r n).cellsIn = s.cellsIn := rfl
@[simp] theorem State.fsat_wins (r : FRef) (n : Nat) : (s.fsat r n).wins = s.wins := rfl
@[simp] theorem State.fsat_tim (r : FRef) (n : Nat) : (s.fsat r n).tim = s.tim := rfl
@[simp] theorem State.fsat_pair (r : FRef) (n : Nat) : (s.fsat r n).pair = s.pair := rfl
@[simp] theorem State.fsat_cas (r : FRef) (n : Nat) : (s.fsat r n).cas = s.cas := rfl
@[simp] theorem State.fsat_fresh (r : FRef) (n : Nat) : (s.fsat r n).fresh = s.fresh := rfl
@[simp] theorem State.fsat_out (r : FRef) (n : Nat) : (s.fsat r n).out = s.out := rfl
@[simp] theorem State.fsat_core (r : FRef) (n : Nat) (j : Nat) : (s.fsat r n).core j = s.core j := rfl
@[simp] theorem State.fsat_sem (r : FRef) (n : Nat) (j : Nat) : (s.fsat r n).sem j = s.sem j := rfl
@[simp] theorem State.fsat_lane (r : FRef) (n : Nat) (j : Nat) : (s.fsat r n).lane j = s.lane j := rfl
@[simp] theorem State.fsat_group (r : FRef) (n : Nat) (j : Nat) : (s.fsat r n).group j = s.group j := rfl
@[simp] theorem State.fsat_trib (r : FRef) (n : Nat) (j : Nat) : (s.fsat r n).trib j = s.trib j := rfl
@[simp] theorem State.fsat_part (r : FRef) (n : Nat) (j : Nat) : (s.fsat r n).part j = s.part j := rfl
@[simp] theorem State.fsat_ring (r : FRef) (n : Nat) (p' j : Nat) : (s.fsat r n).ring p' j = s.ring p' j := rfl
@[simp] theorem State.fsat_winSt (r : FRef) (n : Nat) (j : Nat) : (s.fsat r n).winSt j = s.winSt j := rfl
@[simp] theorem State.fsat_tstored (r : FRef) (n : Nat) (j : Nat) : (s.fsat r n).tstored j = s.tstored j := rfl
@[simp] theorem State.fsat_now (r : FRef) (n : Nat) : (s.fsat r n).now = s.now := rfl
@[simp] theorem State.fsat_ctr (r : FRef) (n : Nat) (f' : CtrKind) (u' j : Nat) : (s.fsat r n).ctr f' u' j = s.ctr f' u' j := rfl
@[simp] theorem State.fsat_mailOf (r : FRef) (n : Nat) (m' : Nat) (b' : Mailbox) : (s.fsat r n).mailOf m' b' = s.mailOf m' b' := rfl
@[simp] theorem State.fsat_inReset (r : FRef) (n : Nat) : (s.fsat r n).inReset = s.inReset := rfl

/-! ## setCoreState -/

@[simp] theorem State.setCoreState_pending (c v : Nat) : (s.setCoreState c v).pending = s.pending := rfl
@[simp] theorem State.setCoreState_clock (c v : Nat) : (s.setCoreState c v).clock = s.clock := rfl
@[simp] theorem State.setCoreState_ticks (c v : Nat) : (s.setCoreState c v).ticks = s.ticks := rfl
@[simp] theorem State.setCoreState_counters (c v : Nat) : (s.setCoreState c v).counters = s.counters := rfl
@[simp] theorem State.setCoreState_mail (c v : Nat) : (s.setCoreState c v).mail = s.mail := rfl
@[simp] theorem State.setCoreState_pairs (c v : Nat) : (s.setCoreState c v).pairs = s.pairs := rfl
@[simp] theorem State.setCoreState_ports (c v : Nat) : (s.setCoreState c v).ports = s.ports := rfl
@[simp] theorem State.setCoreState_casErrs (c v : Nat) : (s.setCoreState c v).casErrs = s.casErrs := rfl
@[simp] theorem State.setCoreState_digErrs (c v : Nat) : (s.setCoreState c v).digErrs = s.digErrs := rfl
@[simp] theorem State.setCoreState_tbl (c v : Nat) : (s.setCoreState c v).tbl = s.tbl := rfl
@[simp] theorem State.setCoreState_tflip (c v : Nat) : (s.setCoreState c v).tflip = s.tflip := rfl
@[simp] theorem State.setCoreState_lanes (c v : Nat) : (s.setCoreState c v).lanes = s.lanes := rfl
@[simp] theorem State.setCoreState_groups (c v : Nat) : (s.setCoreState c v).groups = s.groups := rfl
@[simp] theorem State.setCoreState_tribs (c v : Nat) : (s.setCoreState c v).tribs = s.tribs := rfl
@[simp] theorem State.setCoreState_cores (c v : Nat) : (s.setCoreState c v).cores = s.cores := rfl
@[simp] theorem State.setCoreState_sems (c v : Nat) : (s.setCoreState c v).sems = s.sems := rfl
@[simp] theorem State.setCoreState_mem (c v : Nat) : (s.setCoreState c v).mem = s.mem := rfl
@[simp] theorem State.setCoreState_sys (c v : Nat) : (s.setCoreState c v).sys = s.sys := rfl
@[simp] theorem State.setCoreState_rings (c v : Nat) : (s.setCoreState c v).rings = s.rings := rfl
@[simp] theorem State.setCoreState_parts (c v : Nat) : (s.setCoreState c v).parts = s.parts := rfl
@[simp] theorem State.setCoreState_reads (c v : Nat) : (s.setCoreState c v).reads = s.reads := rfl
@[simp] theorem State.setCoreState_quarantine (c v : Nat) : (s.setCoreState c v).quarantine = s.quarantine := rfl
@[simp] theorem State.setCoreState_slcs (c v : Nat) : (s.setCoreState c v).slcs = s.slcs := rfl
@[simp] theorem State.setCoreState_cellsIn (c v : Nat) : (s.setCoreState c v).cellsIn = s.cellsIn := rfl
@[simp] theorem State.setCoreState_wins (c v : Nat) : (s.setCoreState c v).wins = s.wins := rfl
@[simp] theorem State.setCoreState_tim (c v : Nat) : (s.setCoreState c v).tim = s.tim := rfl
@[simp] theorem State.setCoreState_pair (c v : Nat) : (s.setCoreState c v).pair = s.pair := rfl
@[simp] theorem State.setCoreState_cas (c v : Nat) : (s.setCoreState c v).cas = s.cas := rfl
@[simp] theorem State.setCoreState_fresh (c v : Nat) : (s.setCoreState c v).fresh = s.fresh := rfl
@[simp] theorem State.setCoreState_out (c v : Nat) : (s.setCoreState c v).out = s.out := rfl
@[simp] theorem State.setCoreState_core (c v : Nat) (j : Nat) : (s.setCoreState c v).core j = s.core j := rfl
@[simp] theorem State.setCoreState_sem (c v : Nat) (j : Nat) : (s.setCoreState c v).sem j = s.sem j := rfl
@[simp] theorem State.setCoreState_lane (c v : Nat) (j : Nat) : (s.setCoreState c v).lane j = s.lane j := rfl
@[simp] theorem State.setCoreState_group (c v : Nat) (j : Nat) : (s.setCoreState c v).group j = s.group j := rfl
@[simp] theorem State.setCoreState_trib (c v : Nat) (j : Nat) : (s.setCoreState c v).trib j = s.trib j := rfl
@[simp] theorem State.setCoreState_part (c v : Nat) (j : Nat) : (s.setCoreState c v).part j = s.part j := rfl
@[simp] theorem State.setCoreState_ring (c v : Nat) (p' j : Nat) : (s.setCoreState c v).ring p' j = s.ring p' j := rfl
@[simp] theorem State.setCoreState_winSt (c v : Nat) (j : Nat) : (s.setCoreState c v).winSt j = s.winSt j := rfl
@[simp] theorem State.setCoreState_tstored (c v : Nat) (j : Nat) : (s.setCoreState c v).tstored j = s.tstored j := rfl
@[simp] theorem State.setCoreState_now (c v : Nat) : (s.setCoreState c v).now = s.now := rfl
@[simp] theorem State.setCoreState_ctr (c v : Nat) (f' : CtrKind) (u' j : Nat) : (s.setCoreState c v).ctr f' u' j = s.ctr f' u' j := rfl
@[simp] theorem State.setCoreState_mailOf (c v : Nat) (m' : Nat) (b' : Mailbox) : (s.setCoreState c v).mailOf m' b' = s.mailOf m' b' := rfl
@[simp] theorem State.setCoreState_inReset (c v : Nat) : (s.setCoreState c v).inReset = s.inReset := rfl

/-! ## ctrAdd -/

@[simp] theorem State.ctrAdd_pending (f : CtrKind) (u i n : Nat) : (s.ctrAdd f u i n).pending = s.pending := rfl
@[simp] theorem State.ctrAdd_clock (f : CtrKind) (u i n : Nat) : (s.ctrAdd f u i n).clock = s.clock := rfl
@[simp] theorem State.ctrAdd_ticks (f : CtrKind) (u i n : Nat) : (s.ctrAdd f u i n).ticks = s.ticks := rfl
@[simp] theorem State.ctrAdd_regs (f : CtrKind) (u i n : Nat) : (s.ctrAdd f u i n).regs = s.regs := rfl
@[simp] theorem State.ctrAdd_mail (f : CtrKind) (u i n : Nat) : (s.ctrAdd f u i n).mail = s.mail := rfl
@[simp] theorem State.ctrAdd_pairs (f : CtrKind) (u i n : Nat) : (s.ctrAdd f u i n).pairs = s.pairs := rfl
@[simp] theorem State.ctrAdd_ports (f : CtrKind) (u i n : Nat) : (s.ctrAdd f u i n).ports = s.ports := rfl
@[simp] theorem State.ctrAdd_casErrs (f : CtrKind) (u i n : Nat) : (s.ctrAdd f u i n).casErrs = s.casErrs := rfl
@[simp] theorem State.ctrAdd_digErrs (f : CtrKind) (u i n : Nat) : (s.ctrAdd f u i n).digErrs = s.digErrs := rfl
@[simp] theorem State.ctrAdd_tbl (f : CtrKind) (u i n : Nat) : (s.ctrAdd f u i n).tbl = s.tbl := rfl
@[simp] theorem State.ctrAdd_tflip (f : CtrKind) (u i n : Nat) : (s.ctrAdd f u i n).tflip = s.tflip := rfl
@[simp] theorem State.ctrAdd_lanes (f : CtrKind) (u i n : Nat) : (s.ctrAdd f u i n).lanes = s.lanes := rfl
@[simp] theorem State.ctrAdd_groups (f : CtrKind) (u i n : Nat) : (s.ctrAdd f u i n).groups = s.groups := rfl
@[simp] theorem State.ctrAdd_tribs (f : CtrKind) (u i n : Nat) : (s.ctrAdd f u i n).tribs = s.tribs := rfl
@[simp] theorem State.ctrAdd_cores (f : CtrKind) (u i n : Nat) : (s.ctrAdd f u i n).cores = s.cores := rfl
@[simp] theorem State.ctrAdd_sems (f : CtrKind) (u i n : Nat) : (s.ctrAdd f u i n).sems = s.sems := rfl
@[simp] theorem State.ctrAdd_mem (f : CtrKind) (u i n : Nat) : (s.ctrAdd f u i n).mem = s.mem := rfl
@[simp] theorem State.ctrAdd_sys (f : CtrKind) (u i n : Nat) : (s.ctrAdd f u i n).sys = s.sys := rfl
@[simp] theorem State.ctrAdd_rings (f : CtrKind) (u i n : Nat) : (s.ctrAdd f u i n).rings = s.rings := rfl
@[simp] theorem State.ctrAdd_parts (f : CtrKind) (u i n : Nat) : (s.ctrAdd f u i n).parts = s.parts := rfl
@[simp] theorem State.ctrAdd_reads (f : CtrKind) (u i n : Nat) : (s.ctrAdd f u i n).reads = s.reads := rfl
@[simp] theorem State.ctrAdd_quarantine (f : CtrKind) (u i n : Nat) : (s.ctrAdd f u i n).quarantine = s.quarantine := rfl
@[simp] theorem State.ctrAdd_slcs (f : CtrKind) (u i n : Nat) : (s.ctrAdd f u i n).slcs = s.slcs := rfl
@[simp] theorem State.ctrAdd_cellsIn (f : CtrKind) (u i n : Nat) : (s.ctrAdd f u i n).cellsIn = s.cellsIn := rfl
@[simp] theorem State.ctrAdd_wins (f : CtrKind) (u i n : Nat) : (s.ctrAdd f u i n).wins = s.wins := rfl
@[simp] theorem State.ctrAdd_tim (f : CtrKind) (u i n : Nat) : (s.ctrAdd f u i n).tim = s.tim := rfl
@[simp] theorem State.ctrAdd_pair (f : CtrKind) (u i n : Nat) : (s.ctrAdd f u i n).pair = s.pair := rfl
@[simp] theorem State.ctrAdd_cas (f : CtrKind) (u i n : Nat) : (s.ctrAdd f u i n).cas = s.cas := rfl
@[simp] theorem State.ctrAdd_fresh (f : CtrKind) (u i n : Nat) : (s.ctrAdd f u i n).fresh = s.fresh := rfl
@[simp] theorem State.ctrAdd_out (f : CtrKind) (u i n : Nat) : (s.ctrAdd f u i n).out = s.out := rfl
@[simp] theorem State.ctrAdd_rget (f : CtrKind) (u i n : Nat) (j : Nat) : (s.ctrAdd f u i n).rget j = s.rget j := rfl
@[simp] theorem State.ctrAdd_fget (f : CtrKind) (u i n : Nat) (q : FRef) : (s.ctrAdd f u i n).fget q = s.fget q := rfl
@[simp] theorem State.ctrAdd_fbit (f : CtrKind) (u i n : Nat) (q : FRef) : (s.ctrAdd f u i n).fbit q = s.fbit q := rfl
@[simp] theorem State.ctrAdd_coreState (f : CtrKind) (u i n : Nat) (j : Nat) : (s.ctrAdd f u i n).coreState j = s.coreState j := rfl
@[simp] theorem State.ctrAdd_core (f : CtrKind) (u i n : Nat) (j : Nat) : (s.ctrAdd f u i n).core j = s.core j := rfl
@[simp] theorem State.ctrAdd_sem (f : CtrKind) (u i n : Nat) (j : Nat) : (s.ctrAdd f u i n).sem j = s.sem j := rfl
@[simp] theorem State.ctrAdd_lane (f : CtrKind) (u i n : Nat) (j : Nat) : (s.ctrAdd f u i n).lane j = s.lane j := rfl
@[simp] theorem State.ctrAdd_group (f : CtrKind) (u i n : Nat) (j : Nat) : (s.ctrAdd f u i n).group j = s.group j := rfl
@[simp] theorem State.ctrAdd_trib (f : CtrKind) (u i n : Nat) (j : Nat) : (s.ctrAdd f u i n).trib j = s.trib j := rfl
@[simp] theorem State.ctrAdd_part (f : CtrKind) (u i n : Nat) (j : Nat) : (s.ctrAdd f u i n).part j = s.part j := rfl
@[simp] theorem State.ctrAdd_ring (f : CtrKind) (u i n : Nat) (p' j : Nat) : (s.ctrAdd f u i n).ring p' j = s.ring p' j := rfl
@[simp] theorem State.ctrAdd_winSt (f : CtrKind) (u i n : Nat) (j : Nat) : (s.ctrAdd f u i n).winSt j = s.winSt j := rfl
@[simp] theorem State.ctrAdd_tstored (f : CtrKind) (u i n : Nat) (j : Nat) : (s.ctrAdd f u i n).tstored j = s.tstored j := rfl
@[simp] theorem State.ctrAdd_now (f : CtrKind) (u i n : Nat) : (s.ctrAdd f u i n).now = s.now := rfl
@[simp] theorem State.ctrAdd_mailOf (f : CtrKind) (u i n : Nat) (m' : Nat) (b' : Mailbox) : (s.ctrAdd f u i n).mailOf m' b' = s.mailOf m' b' := rfl
@[simp] theorem State.ctrAdd_inReset (f : CtrKind) (u i n : Nat) : (s.ctrAdd f u i n).inReset = s.inReset := rfl

/-! ## ctrZero -/

@[simp] theorem State.ctrZero_pending (f : CtrKind) (u i : Nat) : (s.ctrZero f u i).pending = s.pending := rfl
@[simp] theorem State.ctrZero_clock (f : CtrKind) (u i : Nat) : (s.ctrZero f u i).clock = s.clock := rfl
@[simp] theorem State.ctrZero_ticks (f : CtrKind) (u i : Nat) : (s.ctrZero f u i).ticks = s.ticks := rfl
@[simp] theorem State.ctrZero_regs (f : CtrKind) (u i : Nat) : (s.ctrZero f u i).regs = s.regs := rfl
@[simp] theorem State.ctrZero_mail (f : CtrKind) (u i : Nat) : (s.ctrZero f u i).mail = s.mail := rfl
@[simp] theorem State.ctrZero_pairs (f : CtrKind) (u i : Nat) : (s.ctrZero f u i).pairs = s.pairs := rfl
@[simp] theorem State.ctrZero_ports (f : CtrKind) (u i : Nat) : (s.ctrZero f u i).ports = s.ports := rfl
@[simp] theorem State.ctrZero_casErrs (f : CtrKind) (u i : Nat) : (s.ctrZero f u i).casErrs = s.casErrs := rfl
@[simp] theorem State.ctrZero_digErrs (f : CtrKind) (u i : Nat) : (s.ctrZero f u i).digErrs = s.digErrs := rfl
@[simp] theorem State.ctrZero_tbl (f : CtrKind) (u i : Nat) : (s.ctrZero f u i).tbl = s.tbl := rfl
@[simp] theorem State.ctrZero_tflip (f : CtrKind) (u i : Nat) : (s.ctrZero f u i).tflip = s.tflip := rfl
@[simp] theorem State.ctrZero_lanes (f : CtrKind) (u i : Nat) : (s.ctrZero f u i).lanes = s.lanes := rfl
@[simp] theorem State.ctrZero_groups (f : CtrKind) (u i : Nat) : (s.ctrZero f u i).groups = s.groups := rfl
@[simp] theorem State.ctrZero_tribs (f : CtrKind) (u i : Nat) : (s.ctrZero f u i).tribs = s.tribs := rfl
@[simp] theorem State.ctrZero_cores (f : CtrKind) (u i : Nat) : (s.ctrZero f u i).cores = s.cores := rfl
@[simp] theorem State.ctrZero_sems (f : CtrKind) (u i : Nat) : (s.ctrZero f u i).sems = s.sems := rfl
@[simp] theorem State.ctrZero_mem (f : CtrKind) (u i : Nat) : (s.ctrZero f u i).mem = s.mem := rfl
@[simp] theorem State.ctrZero_sys (f : CtrKind) (u i : Nat) : (s.ctrZero f u i).sys = s.sys := rfl
@[simp] theorem State.ctrZero_rings (f : CtrKind) (u i : Nat) : (s.ctrZero f u i).rings = s.rings := rfl
@[simp] theorem State.ctrZero_parts (f : CtrKind) (u i : Nat) : (s.ctrZero f u i).parts = s.parts := rfl
@[simp] theorem State.ctrZero_reads (f : CtrKind) (u i : Nat) : (s.ctrZero f u i).reads = s.reads := rfl
@[simp] theorem State.ctrZero_quarantine (f : CtrKind) (u i : Nat) : (s.ctrZero f u i).quarantine = s.quarantine := rfl
@[simp] theorem State.ctrZero_slcs (f : CtrKind) (u i : Nat) : (s.ctrZero f u i).slcs = s.slcs := rfl
@[simp] theorem State.ctrZero_cellsIn (f : CtrKind) (u i : Nat) : (s.ctrZero f u i).cellsIn = s.cellsIn := rfl
@[simp] theorem State.ctrZero_wins (f : CtrKind) (u i : Nat) : (s.ctrZero f u i).wins = s.wins := rfl
@[simp] theorem State.ctrZero_tim (f : CtrKind) (u i : Nat) : (s.ctrZero f u i).tim = s.tim := rfl
@[simp] theorem State.ctrZero_pair (f : CtrKind) (u i : Nat) : (s.ctrZero f u i).pair = s.pair := rfl
@[simp] theorem State.ctrZero_cas (f : CtrKind) (u i : Nat) : (s.ctrZero f u i).cas = s.cas := rfl
@[simp] theorem State.ctrZero_fresh (f : CtrKind) (u i : Nat) : (s.ctrZero f u i).fresh = s.fresh := rfl
@[simp] theorem State.ctrZero_out (f : CtrKind) (u i : Nat) : (s.ctrZero f u i).out = s.out := rfl
@[simp] theorem State.ctrZero_rget (f : CtrKind) (u i : Nat) (j : Nat) : (s.ctrZero f u i).rget j = s.rget j := rfl
@[simp] theorem State.ctrZero_fget (f : CtrKind) (u i : Nat) (q : FRef) : (s.ctrZero f u i).fget q = s.fget q := rfl
@[simp] theorem State.ctrZero_fbit (f : CtrKind) (u i : Nat) (q : FRef) : (s.ctrZero f u i).fbit q = s.fbit q := rfl
@[simp] theorem State.ctrZero_coreState (f : CtrKind) (u i : Nat) (j : Nat) : (s.ctrZero f u i).coreState j = s.coreState j := rfl
@[simp] theorem State.ctrZero_core (f : CtrKind) (u i : Nat) (j : Nat) : (s.ctrZero f u i).core j = s.core j := rfl
@[simp] theorem State.ctrZero_sem (f : CtrKind) (u i : Nat) (j : Nat) : (s.ctrZero f u i).sem j = s.sem j := rfl
@[simp] theorem State.ctrZero_lane (f : CtrKind) (u i : Nat) (j : Nat) : (s.ctrZero f u i).lane j = s.lane j := rfl
@[simp] theorem State.ctrZero_group (f : CtrKind) (u i : Nat) (j : Nat) : (s.ctrZero f u i).group j = s.group j := rfl
@[simp] theorem State.ctrZero_trib (f : CtrKind) (u i : Nat) (j : Nat) : (s.ctrZero f u i).trib j = s.trib j := rfl
@[simp] theorem State.ctrZero_part (f : CtrKind) (u i : Nat) (j : Nat) : (s.ctrZero f u i).part j = s.part j := rfl
@[simp] theorem State.ctrZero_ring (f : CtrKind) (u i : Nat) (p' j : Nat) : (s.ctrZero f u i).ring p' j = s.ring p' j := rfl
@[simp] theorem State.ctrZero_winSt (f : CtrKind) (u i : Nat) (j : Nat) : (s.ctrZero f u i).winSt j = s.winSt j := rfl
@[simp] theorem State.ctrZero_tstored (f : CtrKind) (u i : Nat) (j : Nat) : (s.ctrZero f u i).tstored j = s.tstored j := rfl
@[simp] theorem State.ctrZero_now (f : CtrKind) (u i : Nat) : (s.ctrZero f u i).now = s.now := rfl
@[simp] theorem State.ctrZero_mailOf (f : CtrKind) (u i : Nat) (m' : Nat) (b' : Mailbox) : (s.ctrZero f u i).mailOf m' b' = s.mailOf m' b' := rfl
@[simp] theorem State.ctrZero_inReset (f : CtrKind) (u i : Nat) : (s.ctrZero f u i).inReset = s.inReset := rfl

/-! ## setLane -/

@[simp] theorem State.setLane_pending (i : Nat) (v : LaneSt) : (s.setLane i v).pending = s.pending := rfl
@[simp] theorem State.setLane_clock (i : Nat) (v : LaneSt) : (s.setLane i v).clock = s.clock := rfl
@[simp] theorem State.setLane_ticks (i : Nat) (v : LaneSt) : (s.setLane i v).ticks = s.ticks := rfl
@[simp] theorem State.setLane_regs (i : Nat) (v : LaneSt) : (s.setLane i v).regs = s.regs := rfl
@[simp] theorem State.setLane_counters (i : Nat) (v : LaneSt) : (s.setLane i v).counters = s.counters := rfl
@[simp] theorem State.setLane_mail (i : Nat) (v : LaneSt) : (s.setLane i v).mail = s.mail := rfl
@[simp] theorem State.setLane_pairs (i : Nat) (v : LaneSt) : (s.setLane i v).pairs = s.pairs := rfl
@[simp] theorem State.setLane_ports (i : Nat) (v : LaneSt) : (s.setLane i v).ports = s.ports := rfl
@[simp] theorem State.setLane_casErrs (i : Nat) (v : LaneSt) : (s.setLane i v).casErrs = s.casErrs := rfl
@[simp] theorem State.setLane_digErrs (i : Nat) (v : LaneSt) : (s.setLane i v).digErrs = s.digErrs := rfl
@[simp] theorem State.setLane_tbl (i : Nat) (v : LaneSt) : (s.setLane i v).tbl = s.tbl := rfl
@[simp] theorem State.setLane_tflip (i : Nat) (v : LaneSt) : (s.setLane i v).tflip = s.tflip := rfl
@[simp] theorem State.setLane_groups (i : Nat) (v : LaneSt) : (s.setLane i v).groups = s.groups := rfl
@[simp] theorem State.setLane_tribs (i : Nat) (v : LaneSt) : (s.setLane i v).tribs = s.tribs := rfl
@[simp] theorem State.setLane_cores (i : Nat) (v : LaneSt) : (s.setLane i v).cores = s.cores := rfl
@[simp] theorem State.setLane_sems (i : Nat) (v : LaneSt) : (s.setLane i v).sems = s.sems := rfl
@[simp] theorem State.setLane_mem (i : Nat) (v : LaneSt) : (s.setLane i v).mem = s.mem := rfl
@[simp] theorem State.setLane_sys (i : Nat) (v : LaneSt) : (s.setLane i v).sys = s.sys := rfl
@[simp] theorem State.setLane_rings (i : Nat) (v : LaneSt) : (s.setLane i v).rings = s.rings := rfl
@[simp] theorem State.setLane_parts (i : Nat) (v : LaneSt) : (s.setLane i v).parts = s.parts := rfl
@[simp] theorem State.setLane_reads (i : Nat) (v : LaneSt) : (s.setLane i v).reads = s.reads := rfl
@[simp] theorem State.setLane_quarantine (i : Nat) (v : LaneSt) : (s.setLane i v).quarantine = s.quarantine := rfl
@[simp] theorem State.setLane_slcs (i : Nat) (v : LaneSt) : (s.setLane i v).slcs = s.slcs := rfl
@[simp] theorem State.setLane_cellsIn (i : Nat) (v : LaneSt) : (s.setLane i v).cellsIn = s.cellsIn := rfl
@[simp] theorem State.setLane_wins (i : Nat) (v : LaneSt) : (s.setLane i v).wins = s.wins := rfl
@[simp] theorem State.setLane_tim (i : Nat) (v : LaneSt) : (s.setLane i v).tim = s.tim := rfl
@[simp] theorem State.setLane_pair (i : Nat) (v : LaneSt) : (s.setLane i v).pair = s.pair := rfl
@[simp] theorem State.setLane_cas (i : Nat) (v : LaneSt) : (s.setLane i v).cas = s.cas := rfl
@[simp] theorem State.setLane_fresh (i : Nat) (v : LaneSt) : (s.setLane i v).fresh = s.fresh := rfl
@[simp] theorem State.setLane_out (i : Nat) (v : LaneSt) : (s.setLane i v).out = s.out := rfl
@[simp] theorem State.setLane_rget (i : Nat) (v : LaneSt) (j : Nat) : (s.setLane i v).rget j = s.rget j := rfl
@[simp] theorem State.setLane_fget (i : Nat) (v : LaneSt) (q : FRef) : (s.setLane i v).fget q = s.fget q := rfl
@[simp] theorem State.setLane_fbit (i : Nat) (v : LaneSt) (q : FRef) : (s.setLane i v).fbit q = s.fbit q := rfl
@[simp] theorem State.setLane_coreState (i : Nat) (v : LaneSt) (j : Nat) : (s.setLane i v).coreState j = s.coreState j := rfl
@[simp] theorem State.setLane_core (i : Nat) (v : LaneSt) (j : Nat) : (s.setLane i v).core j = s.core j := rfl
@[simp] theorem State.setLane_sem (i : Nat) (v : LaneSt) (j : Nat) : (s.setLane i v).sem j = s.sem j := rfl
@[simp] theorem State.setLane_group (i : Nat) (v : LaneSt) (j : Nat) : (s.setLane i v).group j = s.group j := rfl
@[simp] theorem State.setLane_trib (i : Nat) (v : LaneSt) (j : Nat) : (s.setLane i v).trib j = s.trib j := rfl
@[simp] theorem State.setLane_part (i : Nat) (v : LaneSt) (j : Nat) : (s.setLane i v).part j = s.part j := rfl
@[simp] theorem State.setLane_ring (i : Nat) (v : LaneSt) (p' j : Nat) : (s.setLane i v).ring p' j = s.ring p' j := rfl
@[simp] theorem State.setLane_winSt (i : Nat) (v : LaneSt) (j : Nat) : (s.setLane i v).winSt j = s.winSt j := rfl
@[simp] theorem State.setLane_tstored (i : Nat) (v : LaneSt) (j : Nat) : (s.setLane i v).tstored j = s.tstored j := rfl
@[simp] theorem State.setLane_now (i : Nat) (v : LaneSt) : (s.setLane i v).now = s.now := rfl
@[simp] theorem State.setLane_ctr (i : Nat) (v : LaneSt) (f' : CtrKind) (u' j : Nat) : (s.setLane i v).ctr f' u' j = s.ctr f' u' j := rfl
@[simp] theorem State.setLane_mailOf (i : Nat) (v : LaneSt) (m' : Nat) (b' : Mailbox) : (s.setLane i v).mailOf m' b' = s.mailOf m' b' := rfl
@[simp] theorem State.setLane_inReset (i : Nat) (v : LaneSt) : (s.setLane i v).inReset = s.inReset := rfl

/-! ## setGroup -/

@[simp] theorem State.setGroup_pending (i : Nat) (v : GroupSt) : (s.setGroup i v).pending = s.pending := rfl
@[simp] theorem State.setGroup_clock (i : Nat) (v : GroupSt) : (s.setGroup i v).clock = s.clock := rfl
@[simp] theorem State.setGroup_ticks (i : Nat) (v : GroupSt) : (s.setGroup i v).ticks = s.ticks := rfl
@[simp] theorem State.setGroup_regs (i : Nat) (v : GroupSt) : (s.setGroup i v).regs = s.regs := rfl
@[simp] theorem State.setGroup_counters (i : Nat) (v : GroupSt) : (s.setGroup i v).counters = s.counters := rfl
@[simp] theorem State.setGroup_mail (i : Nat) (v : GroupSt) : (s.setGroup i v).mail = s.mail := rfl
@[simp] theorem State.setGroup_pairs (i : Nat) (v : GroupSt) : (s.setGroup i v).pairs = s.pairs := rfl
@[simp] theorem State.setGroup_ports (i : Nat) (v : GroupSt) : (s.setGroup i v).ports = s.ports := rfl
@[simp] theorem State.setGroup_casErrs (i : Nat) (v : GroupSt) : (s.setGroup i v).casErrs = s.casErrs := rfl
@[simp] theorem State.setGroup_digErrs (i : Nat) (v : GroupSt) : (s.setGroup i v).digErrs = s.digErrs := rfl
@[simp] theorem State.setGroup_tbl (i : Nat) (v : GroupSt) : (s.setGroup i v).tbl = s.tbl := rfl
@[simp] theorem State.setGroup_tflip (i : Nat) (v : GroupSt) : (s.setGroup i v).tflip = s.tflip := rfl
@[simp] theorem State.setGroup_lanes (i : Nat) (v : GroupSt) : (s.setGroup i v).lanes = s.lanes := rfl
@[simp] theorem State.setGroup_tribs (i : Nat) (v : GroupSt) : (s.setGroup i v).tribs = s.tribs := rfl
@[simp] theorem State.setGroup_cores (i : Nat) (v : GroupSt) : (s.setGroup i v).cores = s.cores := rfl
@[simp] theorem State.setGroup_sems (i : Nat) (v : GroupSt) : (s.setGroup i v).sems = s.sems := rfl
@[simp] theorem State.setGroup_mem (i : Nat) (v : GroupSt) : (s.setGroup i v).mem = s.mem := rfl
@[simp] theorem State.setGroup_sys (i : Nat) (v : GroupSt) : (s.setGroup i v).sys = s.sys := rfl
@[simp] theorem State.setGroup_rings (i : Nat) (v : GroupSt) : (s.setGroup i v).rings = s.rings := rfl
@[simp] theorem State.setGroup_parts (i : Nat) (v : GroupSt) : (s.setGroup i v).parts = s.parts := rfl
@[simp] theorem State.setGroup_reads (i : Nat) (v : GroupSt) : (s.setGroup i v).reads = s.reads := rfl
@[simp] theorem State.setGroup_quarantine (i : Nat) (v : GroupSt) : (s.setGroup i v).quarantine = s.quarantine := rfl
@[simp] theorem State.setGroup_slcs (i : Nat) (v : GroupSt) : (s.setGroup i v).slcs = s.slcs := rfl
@[simp] theorem State.setGroup_cellsIn (i : Nat) (v : GroupSt) : (s.setGroup i v).cellsIn = s.cellsIn := rfl
@[simp] theorem State.setGroup_wins (i : Nat) (v : GroupSt) : (s.setGroup i v).wins = s.wins := rfl
@[simp] theorem State.setGroup_tim (i : Nat) (v : GroupSt) : (s.setGroup i v).tim = s.tim := rfl
@[simp] theorem State.setGroup_pair (i : Nat) (v : GroupSt) : (s.setGroup i v).pair = s.pair := rfl
@[simp] theorem State.setGroup_cas (i : Nat) (v : GroupSt) : (s.setGroup i v).cas = s.cas := rfl
@[simp] theorem State.setGroup_fresh (i : Nat) (v : GroupSt) : (s.setGroup i v).fresh = s.fresh := rfl
@[simp] theorem State.setGroup_out (i : Nat) (v : GroupSt) : (s.setGroup i v).out = s.out := rfl
@[simp] theorem State.setGroup_rget (i : Nat) (v : GroupSt) (j : Nat) : (s.setGroup i v).rget j = s.rget j := rfl
@[simp] theorem State.setGroup_fget (i : Nat) (v : GroupSt) (q : FRef) : (s.setGroup i v).fget q = s.fget q := rfl
@[simp] theorem State.setGroup_fbit (i : Nat) (v : GroupSt) (q : FRef) : (s.setGroup i v).fbit q = s.fbit q := rfl
@[simp] theorem State.setGroup_coreState (i : Nat) (v : GroupSt) (j : Nat) : (s.setGroup i v).coreState j = s.coreState j := rfl
@[simp] theorem State.setGroup_core (i : Nat) (v : GroupSt) (j : Nat) : (s.setGroup i v).core j = s.core j := rfl
@[simp] theorem State.setGroup_sem (i : Nat) (v : GroupSt) (j : Nat) : (s.setGroup i v).sem j = s.sem j := rfl
@[simp] theorem State.setGroup_lane (i : Nat) (v : GroupSt) (j : Nat) : (s.setGroup i v).lane j = s.lane j := rfl
@[simp] theorem State.setGroup_trib (i : Nat) (v : GroupSt) (j : Nat) : (s.setGroup i v).trib j = s.trib j := rfl
@[simp] theorem State.setGroup_part (i : Nat) (v : GroupSt) (j : Nat) : (s.setGroup i v).part j = s.part j := rfl
@[simp] theorem State.setGroup_ring (i : Nat) (v : GroupSt) (p' j : Nat) : (s.setGroup i v).ring p' j = s.ring p' j := rfl
@[simp] theorem State.setGroup_winSt (i : Nat) (v : GroupSt) (j : Nat) : (s.setGroup i v).winSt j = s.winSt j := rfl
@[simp] theorem State.setGroup_tstored (i : Nat) (v : GroupSt) (j : Nat) : (s.setGroup i v).tstored j = s.tstored j := rfl
@[simp] theorem State.setGroup_now (i : Nat) (v : GroupSt) : (s.setGroup i v).now = s.now := rfl
@[simp] theorem State.setGroup_ctr (i : Nat) (v : GroupSt) (f' : CtrKind) (u' j : Nat) : (s.setGroup i v).ctr f' u' j = s.ctr f' u' j := rfl
@[simp] theorem State.setGroup_mailOf (i : Nat) (v : GroupSt) (m' : Nat) (b' : Mailbox) : (s.setGroup i v).mailOf m' b' = s.mailOf m' b' := rfl
@[simp] theorem State.setGroup_inReset (i : Nat) (v : GroupSt) : (s.setGroup i v).inReset = s.inReset := rfl

/-! ## setTrib -/

@[simp] theorem State.setTrib_pending (i : Nat) (v : TribSt) : (s.setTrib i v).pending = s.pending := rfl
@[simp] theorem State.setTrib_clock (i : Nat) (v : TribSt) : (s.setTrib i v).clock = s.clock := rfl
@[simp] theorem State.setTrib_ticks (i : Nat) (v : TribSt) : (s.setTrib i v).ticks = s.ticks := rfl
@[simp] theorem State.setTrib_regs (i : Nat) (v : TribSt) : (s.setTrib i v).regs = s.regs := rfl
@[simp] theorem State.setTrib_counters (i : Nat) (v : TribSt) : (s.setTrib i v).counters = s.counters := rfl
@[simp] theorem State.setTrib_mail (i : Nat) (v : TribSt) : (s.setTrib i v).mail = s.mail := rfl
@[simp] theorem State.setTrib_pairs (i : Nat) (v : TribSt) : (s.setTrib i v).pairs = s.pairs := rfl
@[simp] theorem State.setTrib_ports (i : Nat) (v : TribSt) : (s.setTrib i v).ports = s.ports := rfl
@[simp] theorem State.setTrib_casErrs (i : Nat) (v : TribSt) : (s.setTrib i v).casErrs = s.casErrs := rfl
@[simp] theorem State.setTrib_digErrs (i : Nat) (v : TribSt) : (s.setTrib i v).digErrs = s.digErrs := rfl
@[simp] theorem State.setTrib_tbl (i : Nat) (v : TribSt) : (s.setTrib i v).tbl = s.tbl := rfl
@[simp] theorem State.setTrib_tflip (i : Nat) (v : TribSt) : (s.setTrib i v).tflip = s.tflip := rfl
@[simp] theorem State.setTrib_lanes (i : Nat) (v : TribSt) : (s.setTrib i v).lanes = s.lanes := rfl
@[simp] theorem State.setTrib_groups (i : Nat) (v : TribSt) : (s.setTrib i v).groups = s.groups := rfl
@[simp] theorem State.setTrib_cores (i : Nat) (v : TribSt) : (s.setTrib i v).cores = s.cores := rfl
@[simp] theorem State.setTrib_sems (i : Nat) (v : TribSt) : (s.setTrib i v).sems = s.sems := rfl
@[simp] theorem State.setTrib_mem (i : Nat) (v : TribSt) : (s.setTrib i v).mem = s.mem := rfl
@[simp] theorem State.setTrib_sys (i : Nat) (v : TribSt) : (s.setTrib i v).sys = s.sys := rfl
@[simp] theorem State.setTrib_rings (i : Nat) (v : TribSt) : (s.setTrib i v).rings = s.rings := rfl
@[simp] theorem State.setTrib_parts (i : Nat) (v : TribSt) : (s.setTrib i v).parts = s.parts := rfl
@[simp] theorem State.setTrib_reads (i : Nat) (v : TribSt) : (s.setTrib i v).reads = s.reads := rfl
@[simp] theorem State.setTrib_quarantine (i : Nat) (v : TribSt) : (s.setTrib i v).quarantine = s.quarantine := rfl
@[simp] theorem State.setTrib_slcs (i : Nat) (v : TribSt) : (s.setTrib i v).slcs = s.slcs := rfl
@[simp] theorem State.setTrib_cellsIn (i : Nat) (v : TribSt) : (s.setTrib i v).cellsIn = s.cellsIn := rfl
@[simp] theorem State.setTrib_wins (i : Nat) (v : TribSt) : (s.setTrib i v).wins = s.wins := rfl
@[simp] theorem State.setTrib_tim (i : Nat) (v : TribSt) : (s.setTrib i v).tim = s.tim := rfl
@[simp] theorem State.setTrib_pair (i : Nat) (v : TribSt) : (s.setTrib i v).pair = s.pair := rfl
@[simp] theorem State.setTrib_cas (i : Nat) (v : TribSt) : (s.setTrib i v).cas = s.cas := rfl
@[simp] theorem State.setTrib_fresh (i : Nat) (v : TribSt) : (s.setTrib i v).fresh = s.fresh := rfl
@[simp] theorem State.setTrib_out (i : Nat) (v : TribSt) : (s.setTrib i v).out = s.out := rfl
@[simp] theorem State.setTrib_rget (i : Nat) (v : TribSt) (j : Nat) : (s.setTrib i v).rget j = s.rget j := rfl
@[simp] theorem State.setTrib_fget (i : Nat) (v : TribSt) (q : FRef) : (s.setTrib i v).fget q = s.fget q := rfl
@[simp] theorem State.setTrib_fbit (i : Nat) (v : TribSt) (q : FRef) : (s.setTrib i v).fbit q = s.fbit q := rfl
@[simp] theorem State.setTrib_coreState (i : Nat) (v : TribSt) (j : Nat) : (s.setTrib i v).coreState j = s.coreState j := rfl
@[simp] theorem State.setTrib_core (i : Nat) (v : TribSt) (j : Nat) : (s.setTrib i v).core j = s.core j := rfl
@[simp] theorem State.setTrib_sem (i : Nat) (v : TribSt) (j : Nat) : (s.setTrib i v).sem j = s.sem j := rfl
@[simp] theorem State.setTrib_lane (i : Nat) (v : TribSt) (j : Nat) : (s.setTrib i v).lane j = s.lane j := rfl
@[simp] theorem State.setTrib_group (i : Nat) (v : TribSt) (j : Nat) : (s.setTrib i v).group j = s.group j := rfl
@[simp] theorem State.setTrib_part (i : Nat) (v : TribSt) (j : Nat) : (s.setTrib i v).part j = s.part j := rfl
@[simp] theorem State.setTrib_ring (i : Nat) (v : TribSt) (p' j : Nat) : (s.setTrib i v).ring p' j = s.ring p' j := rfl
@[simp] theorem State.setTrib_winSt (i : Nat) (v : TribSt) (j : Nat) : (s.setTrib i v).winSt j = s.winSt j := rfl
@[simp] theorem State.setTrib_tstored (i : Nat) (v : TribSt) (j : Nat) : (s.setTrib i v).tstored j = s.tstored j := rfl
@[simp] theorem State.setTrib_now (i : Nat) (v : TribSt) : (s.setTrib i v).now = s.now := rfl
@[simp] theorem State.setTrib_ctr (i : Nat) (v : TribSt) (f' : CtrKind) (u' j : Nat) : (s.setTrib i v).ctr f' u' j = s.ctr f' u' j := rfl
@[simp] theorem State.setTrib_mailOf (i : Nat) (v : TribSt) (m' : Nat) (b' : Mailbox) : (s.setTrib i v).mailOf m' b' = s.mailOf m' b' := rfl
@[simp] theorem State.setTrib_inReset (i : Nat) (v : TribSt) : (s.setTrib i v).inReset = s.inReset := rfl

/-! ## setCore -/

@[simp] theorem State.setCore_pending (i : Nat) (v : CoreSt) : (s.setCore i v).pending = s.pending := rfl
@[simp] theorem State.setCore_clock (i : Nat) (v : CoreSt) : (s.setCore i v).clock = s.clock := rfl
@[simp] theorem State.setCore_ticks (i : Nat) (v : CoreSt) : (s.setCore i v).ticks = s.ticks := rfl
@[simp] theorem State.setCore_regs (i : Nat) (v : CoreSt) : (s.setCore i v).regs = s.regs := rfl
@[simp] theorem State.setCore_counters (i : Nat) (v : CoreSt) : (s.setCore i v).counters = s.counters := rfl
@[simp] theorem State.setCore_mail (i : Nat) (v : CoreSt) : (s.setCore i v).mail = s.mail := rfl
@[simp] theorem State.setCore_pairs (i : Nat) (v : CoreSt) : (s.setCore i v).pairs = s.pairs := rfl
@[simp] theorem State.setCore_ports (i : Nat) (v : CoreSt) : (s.setCore i v).ports = s.ports := rfl
@[simp] theorem State.setCore_casErrs (i : Nat) (v : CoreSt) : (s.setCore i v).casErrs = s.casErrs := rfl
@[simp] theorem State.setCore_digErrs (i : Nat) (v : CoreSt) : (s.setCore i v).digErrs = s.digErrs := rfl
@[simp] theorem State.setCore_tbl (i : Nat) (v : CoreSt) : (s.setCore i v).tbl = s.tbl := rfl
@[simp] theorem State.setCore_tflip (i : Nat) (v : CoreSt) : (s.setCore i v).tflip = s.tflip := rfl
@[simp] theorem State.setCore_lanes (i : Nat) (v : CoreSt) : (s.setCore i v).lanes = s.lanes := rfl
@[simp] theorem State.setCore_groups (i : Nat) (v : CoreSt) : (s.setCore i v).groups = s.groups := rfl
@[simp] theorem State.setCore_tribs (i : Nat) (v : CoreSt) : (s.setCore i v).tribs = s.tribs := rfl
@[simp] theorem State.setCore_sems (i : Nat) (v : CoreSt) : (s.setCore i v).sems = s.sems := rfl
@[simp] theorem State.setCore_mem (i : Nat) (v : CoreSt) : (s.setCore i v).mem = s.mem := rfl
@[simp] theorem State.setCore_sys (i : Nat) (v : CoreSt) : (s.setCore i v).sys = s.sys := rfl
@[simp] theorem State.setCore_rings (i : Nat) (v : CoreSt) : (s.setCore i v).rings = s.rings := rfl
@[simp] theorem State.setCore_parts (i : Nat) (v : CoreSt) : (s.setCore i v).parts = s.parts := rfl
@[simp] theorem State.setCore_reads (i : Nat) (v : CoreSt) : (s.setCore i v).reads = s.reads := rfl
@[simp] theorem State.setCore_quarantine (i : Nat) (v : CoreSt) : (s.setCore i v).quarantine = s.quarantine := rfl
@[simp] theorem State.setCore_slcs (i : Nat) (v : CoreSt) : (s.setCore i v).slcs = s.slcs := rfl
@[simp] theorem State.setCore_cellsIn (i : Nat) (v : CoreSt) : (s.setCore i v).cellsIn = s.cellsIn := rfl
@[simp] theorem State.setCore_wins (i : Nat) (v : CoreSt) : (s.setCore i v).wins = s.wins := rfl
@[simp] theorem State.setCore_tim (i : Nat) (v : CoreSt) : (s.setCore i v).tim = s.tim := rfl
@[simp] theorem State.setCore_pair (i : Nat) (v : CoreSt) : (s.setCore i v).pair = s.pair := rfl
@[simp] theorem State.setCore_cas (i : Nat) (v : CoreSt) : (s.setCore i v).cas = s.cas := rfl
@[simp] theorem State.setCore_fresh (i : Nat) (v : CoreSt) : (s.setCore i v).fresh = s.fresh := rfl
@[simp] theorem State.setCore_out (i : Nat) (v : CoreSt) : (s.setCore i v).out = s.out := rfl
@[simp] theorem State.setCore_rget (i : Nat) (v : CoreSt) (j : Nat) : (s.setCore i v).rget j = s.rget j := rfl
@[simp] theorem State.setCore_fget (i : Nat) (v : CoreSt) (q : FRef) : (s.setCore i v).fget q = s.fget q := rfl
@[simp] theorem State.setCore_fbit (i : Nat) (v : CoreSt) (q : FRef) : (s.setCore i v).fbit q = s.fbit q := rfl
@[simp] theorem State.setCore_coreState (i : Nat) (v : CoreSt) (j : Nat) : (s.setCore i v).coreState j = s.coreState j := rfl
@[simp] theorem State.setCore_sem (i : Nat) (v : CoreSt) (j : Nat) : (s.setCore i v).sem j = s.sem j := rfl
@[simp] theorem State.setCore_lane (i : Nat) (v : CoreSt) (j : Nat) : (s.setCore i v).lane j = s.lane j := rfl
@[simp] theorem State.setCore_group (i : Nat) (v : CoreSt) (j : Nat) : (s.setCore i v).group j = s.group j := rfl
@[simp] theorem State.setCore_trib (i : Nat) (v : CoreSt) (j : Nat) : (s.setCore i v).trib j = s.trib j := rfl
@[simp] theorem State.setCore_part (i : Nat) (v : CoreSt) (j : Nat) : (s.setCore i v).part j = s.part j := rfl
@[simp] theorem State.setCore_ring (i : Nat) (v : CoreSt) (p' j : Nat) : (s.setCore i v).ring p' j = s.ring p' j := rfl
@[simp] theorem State.setCore_winSt (i : Nat) (v : CoreSt) (j : Nat) : (s.setCore i v).winSt j = s.winSt j := rfl
@[simp] theorem State.setCore_tstored (i : Nat) (v : CoreSt) (j : Nat) : (s.setCore i v).tstored j = s.tstored j := rfl
@[simp] theorem State.setCore_now (i : Nat) (v : CoreSt) : (s.setCore i v).now = s.now := rfl
@[simp] theorem State.setCore_ctr (i : Nat) (v : CoreSt) (f' : CtrKind) (u' j : Nat) : (s.setCore i v).ctr f' u' j = s.ctr f' u' j := rfl
@[simp] theorem State.setCore_mailOf (i : Nat) (v : CoreSt) (m' : Nat) (b' : Mailbox) : (s.setCore i v).mailOf m' b' = s.mailOf m' b' := rfl
@[simp] theorem State.setCore_inReset (i : Nat) (v : CoreSt) : (s.setCore i v).inReset = s.inReset := rfl

/-! ## setSem -/

@[simp] theorem State.setSem_pending (i : Nat) (v : SemSt) : (s.setSem i v).pending = s.pending := rfl
@[simp] theorem State.setSem_clock (i : Nat) (v : SemSt) : (s.setSem i v).clock = s.clock := rfl
@[simp] theorem State.setSem_ticks (i : Nat) (v : SemSt) : (s.setSem i v).ticks = s.ticks := rfl
@[simp] theorem State.setSem_regs (i : Nat) (v : SemSt) : (s.setSem i v).regs = s.regs := rfl
@[simp] theorem State.setSem_counters (i : Nat) (v : SemSt) : (s.setSem i v).counters = s.counters := rfl
@[simp] theorem State.setSem_mail (i : Nat) (v : SemSt) : (s.setSem i v).mail = s.mail := rfl
@[simp] theorem State.setSem_pairs (i : Nat) (v : SemSt) : (s.setSem i v).pairs = s.pairs := rfl
@[simp] theorem State.setSem_ports (i : Nat) (v : SemSt) : (s.setSem i v).ports = s.ports := rfl
@[simp] theorem State.setSem_casErrs (i : Nat) (v : SemSt) : (s.setSem i v).casErrs = s.casErrs := rfl
@[simp] theorem State.setSem_digErrs (i : Nat) (v : SemSt) : (s.setSem i v).digErrs = s.digErrs := rfl
@[simp] theorem State.setSem_tbl (i : Nat) (v : SemSt) : (s.setSem i v).tbl = s.tbl := rfl
@[simp] theorem State.setSem_tflip (i : Nat) (v : SemSt) : (s.setSem i v).tflip = s.tflip := rfl
@[simp] theorem State.setSem_lanes (i : Nat) (v : SemSt) : (s.setSem i v).lanes = s.lanes := rfl
@[simp] theorem State.setSem_groups (i : Nat) (v : SemSt) : (s.setSem i v).groups = s.groups := rfl
@[simp] theorem State.setSem_tribs (i : Nat) (v : SemSt) : (s.setSem i v).tribs = s.tribs := rfl
@[simp] theorem State.setSem_cores (i : Nat) (v : SemSt) : (s.setSem i v).cores = s.cores := rfl
@[simp] theorem State.setSem_mem (i : Nat) (v : SemSt) : (s.setSem i v).mem = s.mem := rfl
@[simp] theorem State.setSem_sys (i : Nat) (v : SemSt) : (s.setSem i v).sys = s.sys := rfl
@[simp] theorem State.setSem_rings (i : Nat) (v : SemSt) : (s.setSem i v).rings = s.rings := rfl
@[simp] theorem State.setSem_parts (i : Nat) (v : SemSt) : (s.setSem i v).parts = s.parts := rfl
@[simp] theorem State.setSem_reads (i : Nat) (v : SemSt) : (s.setSem i v).reads = s.reads := rfl
@[simp] theorem State.setSem_quarantine (i : Nat) (v : SemSt) : (s.setSem i v).quarantine = s.quarantine := rfl
@[simp] theorem State.setSem_slcs (i : Nat) (v : SemSt) : (s.setSem i v).slcs = s.slcs := rfl
@[simp] theorem State.setSem_cellsIn (i : Nat) (v : SemSt) : (s.setSem i v).cellsIn = s.cellsIn := rfl
@[simp] theorem State.setSem_wins (i : Nat) (v : SemSt) : (s.setSem i v).wins = s.wins := rfl
@[simp] theorem State.setSem_tim (i : Nat) (v : SemSt) : (s.setSem i v).tim = s.tim := rfl
@[simp] theorem State.setSem_pair (i : Nat) (v : SemSt) : (s.setSem i v).pair = s.pair := rfl
@[simp] theorem State.setSem_cas (i : Nat) (v : SemSt) : (s.setSem i v).cas = s.cas := rfl
@[simp] theorem State.setSem_fresh (i : Nat) (v : SemSt) : (s.setSem i v).fresh = s.fresh := rfl
@[simp] theorem State.setSem_out (i : Nat) (v : SemSt) : (s.setSem i v).out = s.out := rfl
@[simp] theorem State.setSem_rget (i : Nat) (v : SemSt) (j : Nat) : (s.setSem i v).rget j = s.rget j := rfl
@[simp] theorem State.setSem_fget (i : Nat) (v : SemSt) (q : FRef) : (s.setSem i v).fget q = s.fget q := rfl
@[simp] theorem State.setSem_fbit (i : Nat) (v : SemSt) (q : FRef) : (s.setSem i v).fbit q = s.fbit q := rfl
@[simp] theorem State.setSem_coreState (i : Nat) (v : SemSt) (j : Nat) : (s.setSem i v).coreState j = s.coreState j := rfl
@[simp] theorem State.setSem_core (i : Nat) (v : SemSt) (j : Nat) : (s.setSem i v).core j = s.core j := rfl
@[simp] theorem State.setSem_lane (i : Nat) (v : SemSt) (j : Nat) : (s.setSem i v).lane j = s.lane j := rfl
@[simp] theorem State.setSem_group (i : Nat) (v : SemSt) (j : Nat) : (s.setSem i v).group j = s.group j := rfl
@[simp] theorem State.setSem_trib (i : Nat) (v : SemSt) (j : Nat) : (s.setSem i v).trib j = s.trib j := rfl
@[simp] theorem State.setSem_part (i : Nat) (v : SemSt) (j : Nat) : (s.setSem i v).part j = s.part j := rfl
@[simp] theorem State.setSem_ring (i : Nat) (v : SemSt) (p' j : Nat) : (s.setSem i v).ring p' j = s.ring p' j := rfl
@[simp] theorem State.setSem_winSt (i : Nat) (v : SemSt) (j : Nat) : (s.setSem i v).winSt j = s.winSt j := rfl
@[simp] theorem State.setSem_tstored (i : Nat) (v : SemSt) (j : Nat) : (s.setSem i v).tstored j = s.tstored j := rfl
@[simp] theorem State.setSem_now (i : Nat) (v : SemSt) : (s.setSem i v).now = s.now := rfl
@[simp] theorem State.setSem_ctr (i : Nat) (v : SemSt) (f' : CtrKind) (u' j : Nat) : (s.setSem i v).ctr f' u' j = s.ctr f' u' j := rfl
@[simp] theorem State.setSem_mailOf (i : Nat) (v : SemSt) (m' : Nat) (b' : Mailbox) : (s.setSem i v).mailOf m' b' = s.mailOf m' b' := rfl
@[simp] theorem State.setSem_inReset (i : Nat) (v : SemSt) : (s.setSem i v).inReset = s.inReset := rfl

/-! ## setWin -/

@[simp] theorem State.setWin_pending (i : Nat) (v : WinSt) : (s.setWin i v).pending = s.pending := rfl
@[simp] theorem State.setWin_clock (i : Nat) (v : WinSt) : (s.setWin i v).clock = s.clock := rfl
@[simp] theorem State.setWin_ticks (i : Nat) (v : WinSt) : (s.setWin i v).ticks = s.ticks := rfl
@[simp] theorem State.setWin_regs (i : Nat) (v : WinSt) : (s.setWin i v).regs = s.regs := rfl
@[simp] theorem State.setWin_counters (i : Nat) (v : WinSt) : (s.setWin i v).counters = s.counters := rfl
@[simp] theorem State.setWin_mail (i : Nat) (v : WinSt) : (s.setWin i v).mail = s.mail := rfl
@[simp] theorem State.setWin_pairs (i : Nat) (v : WinSt) : (s.setWin i v).pairs = s.pairs := rfl
@[simp] theorem State.setWin_ports (i : Nat) (v : WinSt) : (s.setWin i v).ports = s.ports := rfl
@[simp] theorem State.setWin_casErrs (i : Nat) (v : WinSt) : (s.setWin i v).casErrs = s.casErrs := rfl
@[simp] theorem State.setWin_digErrs (i : Nat) (v : WinSt) : (s.setWin i v).digErrs = s.digErrs := rfl
@[simp] theorem State.setWin_tbl (i : Nat) (v : WinSt) : (s.setWin i v).tbl = s.tbl := rfl
@[simp] theorem State.setWin_tflip (i : Nat) (v : WinSt) : (s.setWin i v).tflip = s.tflip := rfl
@[simp] theorem State.setWin_lanes (i : Nat) (v : WinSt) : (s.setWin i v).lanes = s.lanes := rfl
@[simp] theorem State.setWin_groups (i : Nat) (v : WinSt) : (s.setWin i v).groups = s.groups := rfl
@[simp] theorem State.setWin_tribs (i : Nat) (v : WinSt) : (s.setWin i v).tribs = s.tribs := rfl
@[simp] theorem State.setWin_cores (i : Nat) (v : WinSt) : (s.setWin i v).cores = s.cores := rfl
@[simp] theorem State.setWin_sems (i : Nat) (v : WinSt) : (s.setWin i v).sems = s.sems := rfl
@[simp] theorem State.setWin_mem (i : Nat) (v : WinSt) : (s.setWin i v).mem = s.mem := rfl
@[simp] theorem State.setWin_sys (i : Nat) (v : WinSt) : (s.setWin i v).sys = s.sys := rfl
@[simp] theorem State.setWin_rings (i : Nat) (v : WinSt) : (s.setWin i v).rings = s.rings := rfl
@[simp] theorem State.setWin_parts (i : Nat) (v : WinSt) : (s.setWin i v).parts = s.parts := rfl
@[simp] theorem State.setWin_reads (i : Nat) (v : WinSt) : (s.setWin i v).reads = s.reads := rfl
@[simp] theorem State.setWin_quarantine (i : Nat) (v : WinSt) : (s.setWin i v).quarantine = s.quarantine := rfl
@[simp] theorem State.setWin_slcs (i : Nat) (v : WinSt) : (s.setWin i v).slcs = s.slcs := rfl
@[simp] theorem State.setWin_cellsIn (i : Nat) (v : WinSt) : (s.setWin i v).cellsIn = s.cellsIn := rfl
@[simp] theorem State.setWin_tim (i : Nat) (v : WinSt) : (s.setWin i v).tim = s.tim := rfl
@[simp] theorem State.setWin_pair (i : Nat) (v : WinSt) : (s.setWin i v).pair = s.pair := rfl
@[simp] theorem State.setWin_cas (i : Nat) (v : WinSt) : (s.setWin i v).cas = s.cas := rfl
@[simp] theorem State.setWin_fresh (i : Nat) (v : WinSt) : (s.setWin i v).fresh = s.fresh := rfl
@[simp] theorem State.setWin_out (i : Nat) (v : WinSt) : (s.setWin i v).out = s.out := rfl
@[simp] theorem State.setWin_rget (i : Nat) (v : WinSt) (j : Nat) : (s.setWin i v).rget j = s.rget j := rfl
@[simp] theorem State.setWin_fget (i : Nat) (v : WinSt) (q : FRef) : (s.setWin i v).fget q = s.fget q := rfl
@[simp] theorem State.setWin_fbit (i : Nat) (v : WinSt) (q : FRef) : (s.setWin i v).fbit q = s.fbit q := rfl
@[simp] theorem State.setWin_coreState (i : Nat) (v : WinSt) (j : Nat) : (s.setWin i v).coreState j = s.coreState j := rfl
@[simp] theorem State.setWin_core (i : Nat) (v : WinSt) (j : Nat) : (s.setWin i v).core j = s.core j := rfl
@[simp] theorem State.setWin_sem (i : Nat) (v : WinSt) (j : Nat) : (s.setWin i v).sem j = s.sem j := rfl
@[simp] theorem State.setWin_lane (i : Nat) (v : WinSt) (j : Nat) : (s.setWin i v).lane j = s.lane j := rfl
@[simp] theorem State.setWin_group (i : Nat) (v : WinSt) (j : Nat) : (s.setWin i v).group j = s.group j := rfl
@[simp] theorem State.setWin_trib (i : Nat) (v : WinSt) (j : Nat) : (s.setWin i v).trib j = s.trib j := rfl
@[simp] theorem State.setWin_part (i : Nat) (v : WinSt) (j : Nat) : (s.setWin i v).part j = s.part j := rfl
@[simp] theorem State.setWin_ring (i : Nat) (v : WinSt) (p' j : Nat) : (s.setWin i v).ring p' j = s.ring p' j := rfl
@[simp] theorem State.setWin_tstored (i : Nat) (v : WinSt) (j : Nat) : (s.setWin i v).tstored j = s.tstored j := rfl
@[simp] theorem State.setWin_now (i : Nat) (v : WinSt) : (s.setWin i v).now = s.now := rfl
@[simp] theorem State.setWin_ctr (i : Nat) (v : WinSt) (f' : CtrKind) (u' j : Nat) : (s.setWin i v).ctr f' u' j = s.ctr f' u' j := rfl
@[simp] theorem State.setWin_mailOf (i : Nat) (v : WinSt) (m' : Nat) (b' : Mailbox) : (s.setWin i v).mailOf m' b' = s.mailOf m' b' := rfl
@[simp] theorem State.setWin_inReset (i : Nat) (v : WinSt) : (s.setWin i v).inReset = s.inReset := rfl

/-! ## setPart -/

@[simp] theorem State.setPart_pending (i : Nat) (v : PartSt) : (s.setPart i v).pending = s.pending := rfl
@[simp] theorem State.setPart_clock (i : Nat) (v : PartSt) : (s.setPart i v).clock = s.clock := rfl
@[simp] theorem State.setPart_ticks (i : Nat) (v : PartSt) : (s.setPart i v).ticks = s.ticks := rfl
@[simp] theorem State.setPart_regs (i : Nat) (v : PartSt) : (s.setPart i v).regs = s.regs := rfl
@[simp] theorem State.setPart_counters (i : Nat) (v : PartSt) : (s.setPart i v).counters = s.counters := rfl
@[simp] theorem State.setPart_mail (i : Nat) (v : PartSt) : (s.setPart i v).mail = s.mail := rfl
@[simp] theorem State.setPart_pairs (i : Nat) (v : PartSt) : (s.setPart i v).pairs = s.pairs := rfl
@[simp] theorem State.setPart_ports (i : Nat) (v : PartSt) : (s.setPart i v).ports = s.ports := rfl
@[simp] theorem State.setPart_casErrs (i : Nat) (v : PartSt) : (s.setPart i v).casErrs = s.casErrs := rfl
@[simp] theorem State.setPart_digErrs (i : Nat) (v : PartSt) : (s.setPart i v).digErrs = s.digErrs := rfl
@[simp] theorem State.setPart_tbl (i : Nat) (v : PartSt) : (s.setPart i v).tbl = s.tbl := rfl
@[simp] theorem State.setPart_tflip (i : Nat) (v : PartSt) : (s.setPart i v).tflip = s.tflip := rfl
@[simp] theorem State.setPart_lanes (i : Nat) (v : PartSt) : (s.setPart i v).lanes = s.lanes := rfl
@[simp] theorem State.setPart_groups (i : Nat) (v : PartSt) : (s.setPart i v).groups = s.groups := rfl
@[simp] theorem State.setPart_tribs (i : Nat) (v : PartSt) : (s.setPart i v).tribs = s.tribs := rfl
@[simp] theorem State.setPart_cores (i : Nat) (v : PartSt) : (s.setPart i v).cores = s.cores := rfl
@[simp] theorem State.setPart_sems (i : Nat) (v : PartSt) : (s.setPart i v).sems = s.sems := rfl
@[simp] theorem State.setPart_mem (i : Nat) (v : PartSt) : (s.setPart i v).mem = s.mem := rfl
@[simp] theorem State.setPart_sys (i : Nat) (v : PartSt) : (s.setPart i v).sys = s.sys := rfl
@[simp] theorem State.setPart_rings (i : Nat) (v : PartSt) : (s.setPart i v).rings = s.rings := rfl
@[simp] theorem State.setPart_reads (i : Nat) (v : PartSt) : (s.setPart i v).reads = s.reads := rfl
@[simp] theorem State.setPart_quarantine (i : Nat) (v : PartSt) : (s.setPart i v).quarantine = s.quarantine := rfl
@[simp] theorem State.setPart_slcs (i : Nat) (v : PartSt) : (s.setPart i v).slcs = s.slcs := rfl
@[simp] theorem State.setPart_cellsIn (i : Nat) (v : PartSt) : (s.setPart i v).cellsIn = s.cellsIn := rfl
@[simp] theorem State.setPart_wins (i : Nat) (v : PartSt) : (s.setPart i v).wins = s.wins := rfl
@[simp] theorem State.setPart_tim (i : Nat) (v : PartSt) : (s.setPart i v).tim = s.tim := rfl
@[simp] theorem State.setPart_pair (i : Nat) (v : PartSt) : (s.setPart i v).pair = s.pair := rfl
@[simp] theorem State.setPart_cas (i : Nat) (v : PartSt) : (s.setPart i v).cas = s.cas := rfl
@[simp] theorem State.setPart_fresh (i : Nat) (v : PartSt) : (s.setPart i v).fresh = s.fresh := rfl
@[simp] theorem State.setPart_out (i : Nat) (v : PartSt) : (s.setPart i v).out = s.out := rfl
@[simp] theorem State.setPart_rget (i : Nat) (v : PartSt) (j : Nat) : (s.setPart i v).rget j = s.rget j := rfl
@[simp] theorem State.setPart_fget (i : Nat) (v : PartSt) (q : FRef) : (s.setPart i v).fget q = s.fget q := rfl
@[simp] theorem State.setPart_fbit (i : Nat) (v : PartSt) (q : FRef) : (s.setPart i v).fbit q = s.fbit q := rfl
@[simp] theorem State.setPart_coreState (i : Nat) (v : PartSt) (j : Nat) : (s.setPart i v).coreState j = s.coreState j := rfl
@[simp] theorem State.setPart_core (i : Nat) (v : PartSt) (j : Nat) : (s.setPart i v).core j = s.core j := rfl
@[simp] theorem State.setPart_sem (i : Nat) (v : PartSt) (j : Nat) : (s.setPart i v).sem j = s.sem j := rfl
@[simp] theorem State.setPart_lane (i : Nat) (v : PartSt) (j : Nat) : (s.setPart i v).lane j = s.lane j := rfl
@[simp] theorem State.setPart_group (i : Nat) (v : PartSt) (j : Nat) : (s.setPart i v).group j = s.group j := rfl
@[simp] theorem State.setPart_trib (i : Nat) (v : PartSt) (j : Nat) : (s.setPart i v).trib j = s.trib j := rfl
@[simp] theorem State.setPart_ring (i : Nat) (v : PartSt) (p' j : Nat) : (s.setPart i v).ring p' j = s.ring p' j := rfl
@[simp] theorem State.setPart_winSt (i : Nat) (v : PartSt) (j : Nat) : (s.setPart i v).winSt j = s.winSt j := rfl
@[simp] theorem State.setPart_tstored (i : Nat) (v : PartSt) (j : Nat) : (s.setPart i v).tstored j = s.tstored j := rfl
@[simp] theorem State.setPart_now (i : Nat) (v : PartSt) : (s.setPart i v).now = s.now := rfl
@[simp] theorem State.setPart_ctr (i : Nat) (v : PartSt) (f' : CtrKind) (u' j : Nat) : (s.setPart i v).ctr f' u' j = s.ctr f' u' j := rfl
@[simp] theorem State.setPart_mailOf (i : Nat) (v : PartSt) (m' : Nat) (b' : Mailbox) : (s.setPart i v).mailOf m' b' = s.mailOf m' b' := rfl
@[simp] theorem State.setPart_inReset (i : Nat) (v : PartSt) : (s.setPart i v).inReset = s.inReset := rfl

/-! ## setRing -/

@[simp] theorem State.setRing_pending (p i : Nat) (v : RingSt) : (s.setRing p i v).pending = s.pending := rfl
@[simp] theorem State.setRing_clock (p i : Nat) (v : RingSt) : (s.setRing p i v).clock = s.clock := rfl
@[simp] theorem State.setRing_ticks (p i : Nat) (v : RingSt) : (s.setRing p i v).ticks = s.ticks := rfl
@[simp] theorem State.setRing_regs (p i : Nat) (v : RingSt) : (s.setRing p i v).regs = s.regs := rfl
@[simp] theorem State.setRing_counters (p i : Nat) (v : RingSt) : (s.setRing p i v).counters = s.counters := rfl
@[simp] theorem State.setRing_mail (p i : Nat) (v : RingSt) : (s.setRing p i v).mail = s.mail := rfl
@[simp] theorem State.setRing_pairs (p i : Nat) (v : RingSt) : (s.setRing p i v).pairs = s.pairs := rfl
@[simp] theorem State.setRing_ports (p i : Nat) (v : RingSt) : (s.setRing p i v).ports = s.ports := rfl
@[simp] theorem State.setRing_casErrs (p i : Nat) (v : RingSt) : (s.setRing p i v).casErrs = s.casErrs := rfl
@[simp] theorem State.setRing_digErrs (p i : Nat) (v : RingSt) : (s.setRing p i v).digErrs = s.digErrs := rfl
@[simp] theorem State.setRing_tbl (p i : Nat) (v : RingSt) : (s.setRing p i v).tbl = s.tbl := rfl
@[simp] theorem State.setRing_tflip (p i : Nat) (v : RingSt) : (s.setRing p i v).tflip = s.tflip := rfl
@[simp] theorem State.setRing_lanes (p i : Nat) (v : RingSt) : (s.setRing p i v).lanes = s.lanes := rfl
@[simp] theorem State.setRing_groups (p i : Nat) (v : RingSt) : (s.setRing p i v).groups = s.groups := rfl
@[simp] theorem State.setRing_tribs (p i : Nat) (v : RingSt) : (s.setRing p i v).tribs = s.tribs := rfl
@[simp] theorem State.setRing_cores (p i : Nat) (v : RingSt) : (s.setRing p i v).cores = s.cores := rfl
@[simp] theorem State.setRing_sems (p i : Nat) (v : RingSt) : (s.setRing p i v).sems = s.sems := rfl
@[simp] theorem State.setRing_mem (p i : Nat) (v : RingSt) : (s.setRing p i v).mem = s.mem := rfl
@[simp] theorem State.setRing_sys (p i : Nat) (v : RingSt) : (s.setRing p i v).sys = s.sys := rfl
@[simp] theorem State.setRing_parts (p i : Nat) (v : RingSt) : (s.setRing p i v).parts = s.parts := rfl
@[simp] theorem State.setRing_reads (p i : Nat) (v : RingSt) : (s.setRing p i v).reads = s.reads := rfl
@[simp] theorem State.setRing_quarantine (p i : Nat) (v : RingSt) : (s.setRing p i v).quarantine = s.quarantine := rfl
@[simp] theorem State.setRing_slcs (p i : Nat) (v : RingSt) : (s.setRing p i v).slcs = s.slcs := rfl
@[simp] theorem State.setRing_cellsIn (p i : Nat) (v : RingSt) : (s.setRing p i v).cellsIn = s.cellsIn := rfl
@[simp] theorem State.setRing_wins (p i : Nat) (v : RingSt) : (s.setRing p i v).wins = s.wins := rfl
@[simp] theorem State.setRing_tim (p i : Nat) (v : RingSt) : (s.setRing p i v).tim = s.tim := rfl
@[simp] theorem State.setRing_pair (p i : Nat) (v : RingSt) : (s.setRing p i v).pair = s.pair := rfl
@[simp] theorem State.setRing_cas (p i : Nat) (v : RingSt) : (s.setRing p i v).cas = s.cas := rfl
@[simp] theorem State.setRing_fresh (p i : Nat) (v : RingSt) : (s.setRing p i v).fresh = s.fresh := rfl
@[simp] theorem State.setRing_out (p i : Nat) (v : RingSt) : (s.setRing p i v).out = s.out := rfl
@[simp] theorem State.setRing_rget (p i : Nat) (v : RingSt) (j : Nat) : (s.setRing p i v).rget j = s.rget j := rfl
@[simp] theorem State.setRing_fget (p i : Nat) (v : RingSt) (q : FRef) : (s.setRing p i v).fget q = s.fget q := rfl
@[simp] theorem State.setRing_fbit (p i : Nat) (v : RingSt) (q : FRef) : (s.setRing p i v).fbit q = s.fbit q := rfl
@[simp] theorem State.setRing_coreState (p i : Nat) (v : RingSt) (j : Nat) : (s.setRing p i v).coreState j = s.coreState j := rfl
@[simp] theorem State.setRing_core (p i : Nat) (v : RingSt) (j : Nat) : (s.setRing p i v).core j = s.core j := rfl
@[simp] theorem State.setRing_sem (p i : Nat) (v : RingSt) (j : Nat) : (s.setRing p i v).sem j = s.sem j := rfl
@[simp] theorem State.setRing_lane (p i : Nat) (v : RingSt) (j : Nat) : (s.setRing p i v).lane j = s.lane j := rfl
@[simp] theorem State.setRing_group (p i : Nat) (v : RingSt) (j : Nat) : (s.setRing p i v).group j = s.group j := rfl
@[simp] theorem State.setRing_trib (p i : Nat) (v : RingSt) (j : Nat) : (s.setRing p i v).trib j = s.trib j := rfl
@[simp] theorem State.setRing_part (p i : Nat) (v : RingSt) (j : Nat) : (s.setRing p i v).part j = s.part j := rfl
@[simp] theorem State.setRing_winSt (p i : Nat) (v : RingSt) (j : Nat) : (s.setRing p i v).winSt j = s.winSt j := rfl
@[simp] theorem State.setRing_tstored (p i : Nat) (v : RingSt) (j : Nat) : (s.setRing p i v).tstored j = s.tstored j := rfl
@[simp] theorem State.setRing_now (p i : Nat) (v : RingSt) : (s.setRing p i v).now = s.now := rfl
@[simp] theorem State.setRing_ctr (p i : Nat) (v : RingSt) (f' : CtrKind) (u' j : Nat) : (s.setRing p i v).ctr f' u' j = s.ctr f' u' j := rfl
@[simp] theorem State.setRing_mailOf (p i : Nat) (v : RingSt) (m' : Nat) (b' : Mailbox) : (s.setRing p i v).mailOf m' b' = s.mailOf m' b' := rfl
@[simp] theorem State.setRing_inReset (p i : Nat) (v : RingSt) : (s.setRing p i v).inReset = s.inReset := rfl

/-! ## setMail -/

@[simp] theorem State.setMail_pending (m : Nat) (b : Mailbox) (v : Mail) : (s.setMail m b v).pending = s.pending := rfl
@[simp] theorem State.setMail_clock (m : Nat) (b : Mailbox) (v : Mail) : (s.setMail m b v).clock = s.clock := rfl
@[simp] theorem State.setMail_ticks (m : Nat) (b : Mailbox) (v : Mail) : (s.setMail m b v).ticks = s.ticks := rfl
@[simp] theorem State.setMail_regs (m : Nat) (b : Mailbox) (v : Mail) : (s.setMail m b v).regs = s.regs := rfl
@[simp] theorem State.setMail_counters (m : Nat) (b : Mailbox) (v : Mail) : (s.setMail m b v).counters = s.counters := rfl
@[simp] theorem State.setMail_pairs (m : Nat) (b : Mailbox) (v : Mail) : (s.setMail m b v).pairs = s.pairs := rfl
@[simp] theorem State.setMail_ports (m : Nat) (b : Mailbox) (v : Mail) : (s.setMail m b v).ports = s.ports := rfl
@[simp] theorem State.setMail_casErrs (m : Nat) (b : Mailbox) (v : Mail) : (s.setMail m b v).casErrs = s.casErrs := rfl
@[simp] theorem State.setMail_digErrs (m : Nat) (b : Mailbox) (v : Mail) : (s.setMail m b v).digErrs = s.digErrs := rfl
@[simp] theorem State.setMail_tbl (m : Nat) (b : Mailbox) (v : Mail) : (s.setMail m b v).tbl = s.tbl := rfl
@[simp] theorem State.setMail_tflip (m : Nat) (b : Mailbox) (v : Mail) : (s.setMail m b v).tflip = s.tflip := rfl
@[simp] theorem State.setMail_lanes (m : Nat) (b : Mailbox) (v : Mail) : (s.setMail m b v).lanes = s.lanes := rfl
@[simp] theorem State.setMail_groups (m : Nat) (b : Mailbox) (v : Mail) : (s.setMail m b v).groups = s.groups := rfl
@[simp] theorem State.setMail_tribs (m : Nat) (b : Mailbox) (v : Mail) : (s.setMail m b v).tribs = s.tribs := rfl
@[simp] theorem State.setMail_cores (m : Nat) (b : Mailbox) (v : Mail) : (s.setMail m b v).cores = s.cores := rfl
@[simp] theorem State.setMail_sems (m : Nat) (b : Mailbox) (v : Mail) : (s.setMail m b v).sems = s.sems := rfl
@[simp] theorem State.setMail_mem (m : Nat) (b : Mailbox) (v : Mail) : (s.setMail m b v).mem = s.mem := rfl
@[simp] theorem State.setMail_sys (m : Nat) (b : Mailbox) (v : Mail) : (s.setMail m b v).sys = s.sys := rfl
@[simp] theorem State.setMail_rings (m : Nat) (b : Mailbox) (v : Mail) : (s.setMail m b v).rings = s.rings := rfl
@[simp] theorem State.setMail_parts (m : Nat) (b : Mailbox) (v : Mail) : (s.setMail m b v).parts = s.parts := rfl
@[simp] theorem State.setMail_reads (m : Nat) (b : Mailbox) (v : Mail) : (s.setMail m b v).reads = s.reads := rfl
@[simp] theorem State.setMail_quarantine (m : Nat) (b : Mailbox) (v : Mail) : (s.setMail m b v).quarantine = s.quarantine := rfl
@[simp] theorem State.setMail_slcs (m : Nat) (b : Mailbox) (v : Mail) : (s.setMail m b v).slcs = s.slcs := rfl
@[simp] theorem State.setMail_cellsIn (m : Nat) (b : Mailbox) (v : Mail) : (s.setMail m b v).cellsIn = s.cellsIn := rfl
@[simp] theorem State.setMail_wins (m : Nat) (b : Mailbox) (v : Mail) : (s.setMail m b v).wins = s.wins := rfl
@[simp] theorem State.setMail_tim (m : Nat) (b : Mailbox) (v : Mail) : (s.setMail m b v).tim = s.tim := rfl
@[simp] theorem State.setMail_pair (m : Nat) (b : Mailbox) (v : Mail) : (s.setMail m b v).pair = s.pair := rfl
@[simp] theorem State.setMail_cas (m : Nat) (b : Mailbox) (v : Mail) : (s.setMail m b v).cas = s.cas := rfl
@[simp] theorem State.setMail_fresh (m : Nat) (b : Mailbox) (v : Mail) : (s.setMail m b v).fresh = s.fresh := rfl
@[simp] theorem State.setMail_out (m : Nat) (b : Mailbox) (v : Mail) : (s.setMail m b v).out = s.out := rfl
@[simp] theorem State.setMail_rget (m : Nat) (b : Mailbox) (v : Mail) (j : Nat) : (s.setMail m b v).rget j = s.rget j := rfl
@[simp] theorem State.setMail_fget (m : Nat) (b : Mailbox) (v : Mail) (q : FRef) : (s.setMail m b v).fget q = s.fget q := rfl
@[simp] theorem State.setMail_fbit (m : Nat) (b : Mailbox) (v : Mail) (q : FRef) : (s.setMail m b v).fbit q = s.fbit q := rfl
@[simp] theorem State.setMail_coreState (m : Nat) (b : Mailbox) (v : Mail) (j : Nat) : (s.setMail m b v).coreState j = s.coreState j := rfl
@[simp] theorem State.setMail_core (m : Nat) (b : Mailbox) (v : Mail) (j : Nat) : (s.setMail m b v).core j = s.core j := rfl
@[simp] theorem State.setMail_sem (m : Nat) (b : Mailbox) (v : Mail) (j : Nat) : (s.setMail m b v).sem j = s.sem j := rfl
@[simp] theorem State.setMail_lane (m : Nat) (b : Mailbox) (v : Mail) (j : Nat) : (s.setMail m b v).lane j = s.lane j := rfl
@[simp] theorem State.setMail_group (m : Nat) (b : Mailbox) (v : Mail) (j : Nat) : (s.setMail m b v).group j = s.group j := rfl
@[simp] theorem State.setMail_trib (m : Nat) (b : Mailbox) (v : Mail) (j : Nat) : (s.setMail m b v).trib j = s.trib j := rfl
@[simp] theorem State.setMail_part (m : Nat) (b : Mailbox) (v : Mail) (j : Nat) : (s.setMail m b v).part j = s.part j := rfl
@[simp] theorem State.setMail_ring (m : Nat) (b : Mailbox) (v : Mail) (p' j : Nat) : (s.setMail m b v).ring p' j = s.ring p' j := rfl
@[simp] theorem State.setMail_winSt (m : Nat) (b : Mailbox) (v : Mail) (j : Nat) : (s.setMail m b v).winSt j = s.winSt j := rfl
@[simp] theorem State.setMail_tstored (m : Nat) (b : Mailbox) (v : Mail) (j : Nat) : (s.setMail m b v).tstored j = s.tstored j := rfl
@[simp] theorem State.setMail_now (m : Nat) (b : Mailbox) (v : Mail) : (s.setMail m b v).now = s.now := rfl
@[simp] theorem State.setMail_ctr (m : Nat) (b : Mailbox) (v : Mail) (f' : CtrKind) (u' j : Nat) : (s.setMail m b v).ctr f' u' j = s.ctr f' u' j := rfl
@[simp] theorem State.setMail_inReset (m : Nat) (b : Mailbox) (v : Mail) : (s.setMail m b v).inReset = s.inReset := rfl

/-! ## emit -/

@[simp] theorem State.emit_pending (o : Output) : (s.emit o).pending = s.pending := rfl
@[simp] theorem State.emit_clock (o : Output) : (s.emit o).clock = s.clock := rfl
@[simp] theorem State.emit_ticks (o : Output) : (s.emit o).ticks = s.ticks := rfl
@[simp] theorem State.emit_regs (o : Output) : (s.emit o).regs = s.regs := rfl
@[simp] theorem State.emit_counters (o : Output) : (s.emit o).counters = s.counters := rfl
@[simp] theorem State.emit_mail (o : Output) : (s.emit o).mail = s.mail := rfl
@[simp] theorem State.emit_pairs (o : Output) : (s.emit o).pairs = s.pairs := rfl
@[simp] theorem State.emit_ports (o : Output) : (s.emit o).ports = s.ports := rfl
@[simp] theorem State.emit_casErrs (o : Output) : (s.emit o).casErrs = s.casErrs := rfl
@[simp] theorem State.emit_digErrs (o : Output) : (s.emit o).digErrs = s.digErrs := rfl
@[simp] theorem State.emit_tbl (o : Output) : (s.emit o).tbl = s.tbl := rfl
@[simp] theorem State.emit_tflip (o : Output) : (s.emit o).tflip = s.tflip := rfl
@[simp] theorem State.emit_lanes (o : Output) : (s.emit o).lanes = s.lanes := rfl
@[simp] theorem State.emit_groups (o : Output) : (s.emit o).groups = s.groups := rfl
@[simp] theorem State.emit_tribs (o : Output) : (s.emit o).tribs = s.tribs := rfl
@[simp] theorem State.emit_cores (o : Output) : (s.emit o).cores = s.cores := rfl
@[simp] theorem State.emit_sems (o : Output) : (s.emit o).sems = s.sems := rfl
@[simp] theorem State.emit_mem (o : Output) : (s.emit o).mem = s.mem := rfl
@[simp] theorem State.emit_sys (o : Output) : (s.emit o).sys = s.sys := rfl
@[simp] theorem State.emit_rings (o : Output) : (s.emit o).rings = s.rings := rfl
@[simp] theorem State.emit_parts (o : Output) : (s.emit o).parts = s.parts := rfl
@[simp] theorem State.emit_reads (o : Output) : (s.emit o).reads = s.reads := rfl
@[simp] theorem State.emit_quarantine (o : Output) : (s.emit o).quarantine = s.quarantine := rfl
@[simp] theorem State.emit_slcs (o : Output) : (s.emit o).slcs = s.slcs := rfl
@[simp] theorem State.emit_cellsIn (o : Output) : (s.emit o).cellsIn = s.cellsIn := rfl
@[simp] theorem State.emit_wins (o : Output) : (s.emit o).wins = s.wins := rfl
@[simp] theorem State.emit_tim (o : Output) : (s.emit o).tim = s.tim := rfl
@[simp] theorem State.emit_pair (o : Output) : (s.emit o).pair = s.pair := rfl
@[simp] theorem State.emit_cas (o : Output) : (s.emit o).cas = s.cas := rfl
@[simp] theorem State.emit_fresh (o : Output) : (s.emit o).fresh = s.fresh := rfl
@[simp] theorem State.emit_rget (o : Output) (j : Nat) : (s.emit o).rget j = s.rget j := rfl
@[simp] theorem State.emit_fget (o : Output) (q : FRef) : (s.emit o).fget q = s.fget q := rfl
@[simp] theorem State.emit_fbit (o : Output) (q : FRef) : (s.emit o).fbit q = s.fbit q := rfl
@[simp] theorem State.emit_coreState (o : Output) (j : Nat) : (s.emit o).coreState j = s.coreState j := rfl
@[simp] theorem State.emit_core (o : Output) (j : Nat) : (s.emit o).core j = s.core j := rfl
@[simp] theorem State.emit_sem (o : Output) (j : Nat) : (s.emit o).sem j = s.sem j := rfl
@[simp] theorem State.emit_lane (o : Output) (j : Nat) : (s.emit o).lane j = s.lane j := rfl
@[simp] theorem State.emit_group (o : Output) (j : Nat) : (s.emit o).group j = s.group j := rfl
@[simp] theorem State.emit_trib (o : Output) (j : Nat) : (s.emit o).trib j = s.trib j := rfl
@[simp] theorem State.emit_part (o : Output) (j : Nat) : (s.emit o).part j = s.part j := rfl
@[simp] theorem State.emit_ring (o : Output) (p' j : Nat) : (s.emit o).ring p' j = s.ring p' j := rfl
@[simp] theorem State.emit_winSt (o : Output) (j : Nat) : (s.emit o).winSt j = s.winSt j := rfl
@[simp] theorem State.emit_tstored (o : Output) (j : Nat) : (s.emit o).tstored j = s.tstored j := rfl
@[simp] theorem State.emit_now (o : Output) : (s.emit o).now = s.now := rfl
@[simp] theorem State.emit_ctr (o : Output) (f' : CtrKind) (u' j : Nat) : (s.emit o).ctr f' u' j = s.ctr f' u' j := rfl
@[simp] theorem State.emit_mailOf (o : Output) (m' : Nat) (b' : Mailbox) : (s.emit o).mailOf m' b' = s.mailOf m' b' := rfl
@[simp] theorem State.emit_inReset (o : Output) : (s.emit o).inReset = s.inReset := rfl

/-! ## A reading after its own update -/

theorem State.rget_rset (k j : Nat) (w : Word) : (s.rset k w).rget j = if j = k then w else s.rget j := by
  unfold State.rget State.rset
  split
  · subst_vars; simp
  · exact SMap.getD_putD_ne _ _ _ _ ‹_›

@[simp] theorem State.rget_rset_same (k : Nat) (w : Word) : (s.rset k w).rget k = w := by simp [State.rget_rset]

theorem State.rget_rset_ne {k j : Nat} (w : Word) (h : j ≠ k) : (s.rset k w).rget j = s.rget j := by simp [State.rget_rset, h]

@[simp] theorem State.core_setCore_same (i : Nat) (v : CoreSt) : (s.setCore i v).core i = v := by simp [State.core, State.setCore]
theorem State.core_setCore_ne {i j : Nat} (v : CoreSt) (h : j ≠ i) : (s.setCore i v).core j = s.core j :=
  SMap.getD_putD_ne _ _ _ _ h

@[simp] theorem State.sem_setSem_same (i : Nat) (v : SemSt) : (s.setSem i v).sem i = v := by simp [State.sem, State.setSem]
theorem State.sem_setSem_ne {i j : Nat} (v : SemSt) (h : j ≠ i) : (s.setSem i v).sem j = s.sem j := SMap.getD_putD_ne _ _ _ _ h

@[simp] theorem State.lane_setLane_same (i : Nat) (v : LaneSt) : (s.setLane i v).lane i = v := by simp [State.lane, State.setLane]
theorem State.lane_setLane_ne {i j : Nat} (v : LaneSt) (h : j ≠ i) : (s.setLane i v).lane j = s.lane j :=
  SMap.getD_putD_ne _ _ _ _ h

@[simp] theorem State.group_setGroup_same (i : Nat) (v : GroupSt) : (s.setGroup i v).group i = v := by
  simp [State.group, State.setGroup]
theorem State.group_setGroup_ne {i j : Nat} (v : GroupSt) (h : j ≠ i) : (s.setGroup i v).group j = s.group j :=
  SMap.getD_putD_ne _ _ _ _ h

@[simp] theorem State.trib_setTrib_same (i : Nat) (v : TribSt) : (s.setTrib i v).trib i = v := by simp [State.trib, State.setTrib]
theorem State.trib_setTrib_ne {i j : Nat} (v : TribSt) (h : j ≠ i) : (s.setTrib i v).trib j = s.trib j :=
  SMap.getD_putD_ne _ _ _ _ h

@[simp] theorem State.winSt_setWin_same (i : Nat) (v : WinSt) : (s.setWin i v).winSt i = v := by simp [State.winSt, State.setWin]
theorem State.winSt_setWin_ne {i j : Nat} (v : WinSt) (h : j ≠ i) : (s.setWin i v).winSt j = s.winSt j :=
  SMap.getD_putD_ne _ _ _ _ h

@[simp] theorem State.part_setPart_same (i : Nat) (v : PartSt) : (s.setPart i v).part i = v := by simp [State.part, State.setPart]
theorem State.part_setPart_ne {i j : Nat} (v : PartSt) (h : j ≠ i) : (s.setPart i v).part j = s.part j :=
  SMap.getD_putD_ne _ _ _ _ h

@[simp] theorem State.ring_setRing_same (p i : Nat) (v : RingSt) : (s.setRing p i v).ring p i = v := by
  simp [State.ring, State.setRing]

@[simp] theorem State.mailOf_setMail_same (m : Nat) (b : Mailbox) (v : Mail) : (s.setMail m b v).mailOf m b = v := by
  simp [State.mailOf, State.setMail]

/-- A counter after it advanced: modulo 2^48. -/
theorem State.ctr_ctrAdd (f f' : CtrKind) (u i n u' i' : Nat) :
    (s.ctrAdd f u i n).ctr f' u' i' = if ctrKey f' u' i' = ctrKey f u i then (s.ctr f u i + n) % 2 ^ 48 else s.ctr f' u' i' := by
  unfold State.ctr State.ctrAdd
  exact SMap.getD_putD _ _ _ _ _

@[simp] theorem State.ctr_ctrZero_same (f : CtrKind) (u i : Nat) : (s.ctrZero f u i).ctr f u i = 0 := by
  simp [State.ctr, State.ctrZero, SMap.getD]

@[simp] theorem State.emit_out (o : Output) : (s.emit o).out = o :: s.out := rfl

end Sys2Proof.Machine
end

