-- ==== Sys2Proof/Laws/Regs.lean ====
section
/-! SUPPORT. Register fields: a field reads as it was set, other fields keep their value, and the register file keeps its canonical
form. -/

namespace Sys2Proof.Machine

/-! ## Fields of a word -/

theorem FRef.of_lt (r : FRef) (w : Word) : r.of w < 2 ^ (r.hi - r.lo + 1) := Nat.mod_lt _ (by positivity)

/-- A field split off a number: what lies below it, the field, and what lies above. -/
theorem FRef.split (r : FRef) (w : Word) :
    w.toNat = w.toNat % 2 ^ r.lo + 2 ^ r.lo * (r.of w + 2 ^ (r.hi - r.lo + 1) * (w.toNat / 2 ^ r.lo / 2 ^ (r.hi - r.lo + 1))) := by
  unfold FRef.of
  rw [Nat.mod_add_div, Nat.mod_add_div]

/-- A word with a field replaced, as a number. -/
theorem FRef.put_toNat (r : FRef) (w : Word) (v : Nat) (hl : r.lo ≤ r.hi) (hh : r.hi < 32) :
    (r.put w v).toNat = w.toNat % 2 ^ r.lo
      + 2 ^ r.lo * (v % 2 ^ (r.hi - r.lo + 1) + 2 ^ (r.hi - r.lo + 1) * (w.toNat / 2 ^ r.lo / 2 ^ (r.hi - r.lo + 1))) := by
  have hs := r.split w
  have hw := w.isLt
  have hv : v % 2 ^ (r.hi - r.lo + 1) < 2 ^ (r.hi - r.lo + 1) := Nat.mod_lt _ (by positivity)
  have hd : 2 ^ (32 - (r.hi + 1)) * 2 ^ (r.hi - r.lo + 1) * 2 ^ r.lo = 2 ^ 32 := by
    rw [← pow_add, ← pow_add]; congr 1; omega
  have hm : w.toNat % 2 ^ r.lo < 2 ^ r.lo := Nat.mod_lt _ (by positivity)
  have ht : w.toNat / 2 ^ r.lo / 2 ^ (r.hi - r.lo + 1) < 2 ^ (32 - (r.hi + 1)) := by
    rw [Nat.div_div_eq_div_mul, Nat.div_lt_iff_lt_mul (by positivity)]
    calc w.toNat < 2 ^ 32 := hw
      _ = _ := by rw [← hd]; ring
  unfold FRef.put
  generalize w.toNat / 2 ^ r.lo / 2 ^ (r.hi - r.lo + 1) = t at *
  generalize w.toNat % 2 ^ r.lo = m at *
  generalize r.of w = x at *
  generalize v % 2 ^ (r.hi - r.lo + 1) = y at *
  generalize 2 ^ (r.hi - r.lo + 1) = B at *
  generalize 2 ^ (32 - (r.hi + 1)) = C at *
  generalize 2 ^ r.lo = A at *
  have e : w.toNat - x * A + y * A = m + A * (y + B * t) := by
    rw [hs]
    have : m + A * (x + B * t) = x * A + (m + A * (B * t)) := by ring
    rw [this, Nat.add_sub_cancel_left]; ring
  rw [BitVec.toNat_ofNat, e]
  apply Nat.mod_eq_of_lt
  rw [← hd]
  have h1 : B * t + B ≤ C * B := by
    have : t + 1 ≤ C := ht
    calc B * t + B = (t + 1) * B := by ring
      _ ≤ C * B := Nat.mul_le_mul_right _ this
  calc m + A * (y + B * t) < A + A * (y + B * t) := by omega
    _ = A * (y + 1 + B * t) := by ring
    _ ≤ A * (B + B * t) := Nat.mul_le_mul_left _ (by omega)
    _ ≤ A * (C * B) := Nat.mul_le_mul_left _ (by omega)
    _ = C * B * A := by ring

/-- A field reads as it was put, modulo its width. -/
theorem FRef.of_put_same (r : FRef) (w : Word) (v : Nat) (hl : r.lo ≤ r.hi) (hh : r.hi < 32) :
    r.of (r.put w v) = v % 2 ^ (r.hi - r.lo + 1) := by
  unfold FRef.of
  rw [r.put_toNat w v hl hh]
  rw [Nat.add_mul_div_left _ _ (by positivity), Nat.div_eq_of_lt (Nat.mod_lt _ (by positivity)), Nat.zero_add,
    Nat.add_mul_mod_self_left, Nat.mod_mod]

/-- Fields that lie below a field keep their value when it is put. -/
theorem FRef.of_put_below (r q : FRef) (w : Word) (v : Nat) (hl : r.lo ≤ r.hi) (hh : r.hi < 32) (hq : q.lo ≤ q.hi) (h : q.hi < r.lo) :
    q.of (r.put w v) = q.of w := by
  have key : ∀ x : Nat, x / 2 ^ q.lo % 2 ^ (q.hi - q.lo + 1) = x % 2 ^ r.lo / 2 ^ q.lo % 2 ^ (q.hi - q.lo + 1) := by
    intro x
    have : r.lo = q.lo + (q.hi - q.lo + 1) + (r.lo - q.hi - 1) := by omega
    apply Nat.eq_of_testBit_eq
    intro i
    simp only [Nat.testBit_mod_two_pow, Nat.testBit_div_two_pow]
    by_cases hi : i < q.hi - q.lo + 1
    · have : i + q.lo < r.lo := by omega
      simp [hi, this, Nat.add_comm]
    · simp [hi]
  unfold FRef.of
  rw [key, key w.toNat, r.put_toNat w v hl hh]
  simp

/-- Fields that lie above a field keep their value when it is put. -/
theorem FRef.of_put_above (r q : FRef) (w : Word) (v : Nat) (hl : r.lo ≤ r.hi) (hh : r.hi < 32) (h : r.hi < q.lo) :
    q.of (r.put w v) = q.of w := by
  have key : ∀ x : Nat, x / 2 ^ q.lo = x / 2 ^ r.lo / 2 ^ (r.hi - r.lo + 1) / 2 ^ (q.lo - r.hi - 1) := by
    intro x
    rw [Nat.div_div_eq_div_mul, Nat.div_div_eq_div_mul, ← pow_add, ← pow_add]
    congr 2; omega
  unfold FRef.of
  congr 1
  rw [key, key w.toNat, r.put_toNat w v hl hh, Nat.add_mul_div_left _ _ (by positivity),
    Nat.div_eq_of_lt (Nat.mod_lt _ (by positivity)), Nat.zero_add, Nat.add_mul_div_left _ _ (by positivity),
    Nat.div_eq_of_lt (Nat.mod_lt _ (by positivity)), Nat.zero_add]

/-! ## Fields of the register file -/

variable (s : State)

/-- A field reads as it was set. -/
theorem State.fget_fset_same (r : FRef) (v : Nat) (hl : r.lo ≤ r.hi) (hh : r.hi < 32) :
    (s.fset r v).fget r = v % 2 ^ (r.hi - r.lo + 1) := by
  simp only [State.fget, State.fset, State.rget_rset_same]
  exact r.of_put_same _ v hl hh

/-- A field set in one register leaves every other register. -/
theorem State.rget_fset_ne (r : FRef) (v k : Nat) (h : k ≠ r.key) : (s.fset r v).rget k = s.rget k := State.rget_rset_ne s _ h

theorem State.rget_fsetB_ne (r : FRef) (b : Bool) (k : Nat) (h : k ≠ r.key) : (s.fsetB r b).rget k = s.rget k :=
  s.rget_fset_ne r _ k h

theorem State.rget_stick_ne (r : FRef) (v k : Nat) (h : k ≠ r.key) : (s.stick r v).rget k = s.rget k := s.rget_fset_ne r _ k h

theorem State.rget_fsat_ne (r : FRef) (n k : Nat) (h : k ≠ r.key) : (s.fsat r n).rget k = s.rget k := s.rget_fset_ne r _ k h

/-- A field set leaves a field of another register. -/
theorem State.fget_fset_key (r q : FRef) (v : Nat) (h : q.key ≠ r.key) : (s.fset r v).fget q = s.fget q := by
  simp only [State.fget, s.rget_fset_ne r v q.key h]

theorem State.fget_fsetB_key (r q : FRef) (b : Bool) (h : q.key ≠ r.key) : (s.fsetB r b).fget q = s.fget q :=
  s.fget_fset_key r q _ h

/-- A field set leaves the fields beside it in its register. -/
theorem State.fget_fset_beside (r q : FRef) (v : Nat) (hl : r.lo ≤ r.hi) (hh : r.hi < 32) (hq : q.lo ≤ q.hi)
    (h : q.hi < r.lo ∨ r.hi < q.lo) : (s.fset r v).fget q = s.fget q := by
  by_cases hk : q.key = r.key
  · simp only [State.fget, State.fset, hk, State.rget_rset_same]
    rcases h with h | h
    · exact r.of_put_below q _ v hl hh hq h
    · exact r.of_put_above q _ v hl hh h
  · exact s.fget_fset_key r q v hk

/-- A one-bit field reads as it was set. -/
theorem State.fbit_fsetB_same (r : FRef) (b : Bool) (hl : r.lo = r.hi) (hh : r.hi < 32) : (s.fsetB r b).fbit r = b := by
  unfold State.fbit State.fsetB
  rw [s.fget_fset_same r _ (by omega) hh, hl, Nat.sub_self]
  cases b <;> rfl

theorem State.fbit_fsetB_key (r q : FRef) (b : Bool) (h : q.key ≠ r.key) : (s.fsetB r b).fbit q = s.fbit q := by
  simp only [State.fbit, s.fget_fsetB_key r q b h]

theorem State.fbit_fset_key (r q : FRef) (v : Nat) (h : q.key ≠ r.key) : (s.fset r v).fbit q = s.fbit q := by
  simp only [State.fbit, s.fget_fset_key r q v h]

/-- The state of a core reads as it was set. -/
theorem State.coreState_setCoreState_same (c v : Nat) : (s.setCoreState c v).coreState c = v % 8 :=
  s.fget_fset_same (SepStat.state c) v (by simp [SepStat.state]) (by simp [SepStat.state])

theorem State.coreState_setCoreState_ne {c d : Nat} (v : Nat) (h : d ≠ c) : (s.setCoreState c v).coreState d = s.coreState d :=
  s.fget_fset_key _ _ v (by simp [SepStat.state, SepStat.reg]; omega)

/-! ## The canonical form of the register file -/

theorem all_ins {α : Type} (f : Nat × α → Bool) (m : SMap α) (k : Nat) (v : α) (hm : m.all f = true) (hv : f (k, v) = true) :
    (SMap.ins m k v).all f = true := by
  induction m with
  | nil => simp [SMap.ins, hv]
  | cons e m ih =>
    obtain ⟨a, b⟩ := e
    simp only [List.all_cons, Bool.and_eq_true] at hm
    unfold SMap.ins
    split
    · simp [hv, hm.1, hm.2]
    · split
      · simp [hv, hm.2]
      · simp [hm.1, ih hm.2]

theorem all_del {α : Type} (f : Nat × α → Bool) (m : SMap α) (k : Nat) (hm : m.all f = true) : (SMap.del m k).all f = true := by
  induction m with
  | nil => simpa [SMap.del] using hm
  | cons e m ih =>
    obtain ⟨a, b⟩ := e
    simp only [List.all_cons, Bool.and_eq_true] at hm
    unfold SMap.del
    split
    · exact ih hm.2
    · simp [hm.1, ih hm.2]

/-- Writing a register keeps the register file canonical. -/
theorem State.rset_regsWf (k : Nat) (w : Word) (h : regsWf s.regs = true) : regsWf (s.rset k w).regs = true := by
  simp only [regsWf, Bool.and_eq_true] at h ⊢
  unfold State.rset
  refine ⟨SMap.rising_putD h.1 _ _ _, ?_⟩
  unfold SMap.putD
  split
  · exact all_del _ _ _ h.2
  · exact all_ins _ _ _ _ h.2 (by simpa using ‹_›)

end Sys2Proof.Machine
end

