-- ==== Sys2Proof/Laws/Kept.lean ====
section
/-! SUPPORT. What every meaning keeps: the queue of commands, the elapsed ticks, the outputs already made, the order of the free values
and the canonical form of the state. One lemma for each operation says that it keeps them. -/

namespace Sys2Proof.Machine

/-- s is kept from r: the same queue and ticks, the outputs of r and perhaps more, free values drawn on from those of r, and canonical if r
is. -/
structure Kept (r s : State) : Prop where
  pending : s.pending = r.pending
  ticks : s.ticks = r.ticks
  out : r.out <:+ s.out
  fresh : r.fresh ≤ s.fresh
  canonical : r.canonical → s.canonical

variable {r s : State}

theorem Kept.refl : Kept r r := ⟨rfl, rfl, List.suffix_refl _, le_refl _, id⟩

/-- An update that touches none of these. -/
theorem Kept.of_eq {t : State} (h : Kept r s) (h1 : t.pending = s.pending) (h2 : t.ticks = s.ticks) (h3 : t.out = s.out)
    (h4 : t.fresh = s.fresh) (h5 : t.regs = s.regs) (h6 : t.counters = s.counters) (h7 : t.tbl = s.tbl) (h8 : t.tflip = s.tflip) :
    Kept r t :=
  ⟨h1 ▸ h.pending, h2 ▸ h.ticks, h3 ▸ h.out, h4 ▸ h.fresh, fun hr => by
    have := h.canonical hr
    simpa only [State.canonical, h5, h6, h7, h8] using this⟩

/-- An update of other fields of a record of the state. -/
theorem Kept.upd (h : Kept r s) (c m pa po ce de la gr tr co se me sy ri pt rd qu sl ci wi ti pr ca) :
    Kept r ⟨s.pending, c, s.ticks, s.regs, s.counters, m, pa, po, ce, de, s.tbl, s.tflip, la, gr, tr, co, se, me, sy, ri, pt, rd, qu, sl, ci,
      wi, ti, pr, ca, s.fresh, s.out⟩ :=
  h.of_eq rfl rfl rfl rfl rfl rfl rfl rfl

/-! ## Results that come with the state -/

theorem Kept.snd {α : Type} {p : α × State} {v : α} {t : State} (e : p = (v, t)) (h : Kept r p.2) : Kept r t := by subst e; exact h

theorem Kept.snd2 {α β : Type} {p : α × β × State} {v : α} {w : β} {t : State} (e : p = (v, w, t)) (h : Kept r p.2.2) : Kept r t := by
  subst e; exact h

theorem Kept.snd3 {α β γ : Type} {p : α × β × γ × State} {v : α} {w : β} {x : γ} {t : State} (e : p = (v, w, x, t)) (h : Kept r p.2.2.2) :
    Kept r t := by
  subst e; exact h

theorem Kept.fst {α : Type} {p : State × α} {v : α} {t : State} (e : p = (t, v)) (h : Kept r p.1) : Kept r t := by subst e; exact h

theorem Kept.snd_ite {α : Type} (c : Prop) [Decidable c] {p q : α × State} (hp : Kept r p.2) (hq : Kept r q.2) :
    Kept r (if c then p else q).2 := by split <;> assumption

theorem Kept.opt {o : Option State} {t : State} (e : o = some t) (h : ∀ x, o = some x → Kept r x) : Kept r t := h t e

/-- An optional outcome or the state as it was. -/
theorem Kept.getD {o : Option State} (h : Kept r s) (ho : ∀ t, o = some t → Kept r t) : Kept r (o.getD s) := by
  cases o with
  | none => exact h
  | some t => exact ho t rfl

/-- A state named on the way. -/
theorem Kept.cut {t x : State} (hb : Kept r x → Kept r t) (hx : Kept r x) : Kept r t := hb hx

/-! ## Changes made over a list -/

theorem Kept.foldl {α : Type} {f : State → α → State} (hf : ∀ t x, Kept r t → Kept r (f t x)) (l : List α) :
    ∀ {t : State}, Kept r t → Kept r (l.foldl f t) := by
  induction l with
  | nil => exact id
  | cons x l ih => exact fun h => ih (hf _ x h)

theorem Kept.foldl_snd {α β : Type} {f : β × State → α → β × State} (hf : ∀ a x, Kept r a.2 → Kept r (f a x).2) (l : List α) :
    ∀ {a : β × State}, Kept r a.2 → Kept r (l.foldl f a).2 := by
  induction l with
  | nil => exact id
  | cons x l ih => exact fun h => ih (hf _ x h)

theorem Kept.foldl_snd2 {α β γ : Type} {f : β × γ × State → α → β × γ × State} (hf : ∀ a x, Kept r a.2.2 → Kept r (f a x).2.2)
    (l : List α) : ∀ {a : β × γ × State}, Kept r a.2.2 → Kept r (l.foldl f a).2.2 := by
  induction l with
  | nil => exact id
  | cons x l ih => exact fun h => ih (hf _ x h)

theorem State.forEach_kept (l : List Nat) (f : State → Nat → State) (h : Kept r s) (hf : ∀ t x, Kept r t → Kept r (f t x)) :
    Kept r (s.forEach l f) :=
  Kept.foldl hf l h

theorem State.onlyIf_kept (c : Bool) (f : State → State) (h : Kept r s) (hf : ∀ t, Kept r t → Kept r (f t)) : Kept r (s.onlyIf c f) := by
  unfold State.onlyIf
  split
  · exact hf _ h
  · exact h

/-! ## The operations that touch them -/

theorem State.rset_kept (k : Nat) (w : Word) (h : Kept r s) : Kept r (s.rset k w) :=
  ⟨h.pending, h.ticks, h.out, h.fresh, fun hr => ⟨s.rset_regsWf k w (h.canonical hr).1, (h.canonical hr).2⟩⟩

theorem State.ctrAdd_kept (f : CtrKind) (u i n : Nat) (h : Kept r s) : Kept r (s.ctrAdd f u i n) :=
  ⟨h.pending, h.ticks, h.out, h.fresh, fun hr =>
    ⟨(h.canonical hr).1, SMap.rising_putD (h.canonical hr).2.1 _ _ _, (h.canonical hr).2.2⟩⟩

theorem State.ctrZero_kept (f : CtrKind) (u i : Nat) (h : Kept r s) : Kept r (s.ctrZero f u i) :=
  ⟨h.pending, h.ticks, h.out, h.fresh, fun hr => ⟨(h.canonical hr).1, SMap.rising_del (h.canonical hr).2.1 _, (h.canonical hr).2.2⟩⟩

theorem State.emit_kept (o : Output) (h : Kept r s) : Kept r (s.emit o) :=
  ⟨h.pending, h.ticks, h.out.trans (List.suffix_cons o s.out), h.fresh, h.canonical⟩

theorem State.free_kept (w : Nat) (h : Kept r s) : Kept r (s.free w).2 :=
  ⟨h.pending, h.ticks, h.out, Nat.le_succ_of_le h.fresh, h.canonical⟩

theorem State.freeB_kept (h : Kept r s) : Kept r s.freeB.2 :=
  ⟨h.pending, h.ticks, h.out, Nat.le_succ_of_le h.fresh, h.canonical⟩

/-- Class T memory and its error masks replaced by canonical ones. -/
theorem Kept.memory {tb : List Host.Cell} {fl : SMap Nat} (h : Kept r s)
    (hm : Memory.wf s.tbl = true → SMap.rising s.tflip = true → Memory.wf tb = true ∧ SMap.rising fl = true) :
    Kept r { s with tbl := tb, tflip := fl } :=
  ⟨h.pending, h.ticks, h.out, h.fresh, fun hr =>
    ⟨(h.canonical hr).1, (h.canonical hr).2.1, hm (h.canonical hr).2.2.1 (h.canonical hr).2.2.2⟩⟩

theorem State.tstore_kept (a : Nat) (b : Byte) (h : Kept r s) : Kept r (s.tstore a b) :=
  h.memory fun h1 h2 => ⟨SMap.rising_ins h1 a b, SMap.rising_del h2 a⟩

theorem State.tpoison_kept (a : Nat) (h : Kept r s) : Kept r (s.tpoison a) :=
  h.memory fun h1 h2 => ⟨SMap.rising_del h1 a, SMap.rising_del h2 a⟩

theorem State.tfill_kept (lo n : Nat) (h : Kept r s) : Kept r (s.tfill lo n) :=
  h.memory fun h1 h2 => ⟨SMap.rising_filter h1 _, SMap.rising_filter h2 _⟩

theorem State.tfillAll_kept (h : Kept r s) : Kept r s.tfillAll := h.memory fun _ _ => ⟨rfl, rfl⟩

/-- A byte's error mask replaced. -/
theorem Kept.flip (a m : Nat) (h : Kept r s) : Kept r { s with tflip := SMap.putD s.tflip a 0 m } :=
  h.memory fun h1 h2 => ⟨h1, SMap.rising_putD h2 a 0 m⟩

/-- Registers of a range at their reset values. -/
theorem State.resetRange_kept (lo hi : Nat) (h : Kept r s) : Kept r (s.resetRange lo hi) :=
  ⟨h.pending, h.ticks, h.out, h.fresh, fun hr => by
    have hc := h.canonical hr
    refine ⟨?_, hc.2⟩
    have h1 := hc.1
    simp only [regsWf, Bool.and_eq_true] at h1 ⊢
    refine ⟨SMap.rising_filter h1.1 _, ?_⟩
    simp only [State.resetRange, List.all_eq_true, List.mem_filter] at h1 ⊢
    exact fun e he => h1.2 e he.1⟩

end Sys2Proof.Machine
end

