-- ==== Sys2Proof/Laws/Ops.lean ====
section
/-! SUPPORT. What shared operations keep: one lemma for each operation treated here, which says that it keeps the queue, the ticks, the
outputs made, the order of the free values and the canonical form (Kept). A meaning is kept by applying the lemmas of the operations it calls.
Operations without a lemma here are proved the same way, by unfolding them over these. -/

namespace Sys2Proof.Machine

set_option maxRecDepth 4000
set_option linter.all false

/-! ## State, registers, counters and outputs -/

theorem State.setLane_kept {r : State} : ∀ s n v, Kept r s → Kept r (State.setLane s n v) := by
  intro s n v h0
  unfold State.setLane
  repeat' first
    | with_reducible assumption
    | (extract_lets +onlyGivenNames x; first
      | (refine Kept.cut (x := x) (fun hx => ?_) ?_; (on_goal 1 => clear_value x); (on_goal 2 => subst x))
      | clear_value x)
    | split
    | with_reducible apply Kept.upd
    | intro _
    | dsimp only

theorem State.setTrib_kept {r : State} : ∀ s t v, Kept r s → Kept r (State.setTrib s t v) := by
  intro s t v h0
  unfold State.setTrib
  repeat' first
    | with_reducible assumption
    | (extract_lets +onlyGivenNames x; first
      | (refine Kept.cut (x := x) (fun hx => ?_) ?_; (on_goal 1 => clear_value x); (on_goal 2 => subst x))
      | clear_value x)
    | split
    | with_reducible apply Kept.upd
    | intro _
    | dsimp only

theorem State.setPart_kept {r : State} : ∀ s p v, Kept r s → Kept r (State.setPart s p v) := by
  intro s p v h0
  unfold State.setPart
  repeat' first
    | with_reducible assumption
    | (extract_lets +onlyGivenNames x; first
      | (refine Kept.cut (x := x) (fun hx => ?_) ?_; (on_goal 1 => clear_value x); (on_goal 2 => subst x))
      | clear_value x)
    | split
    | with_reducible apply Kept.upd
    | intro _
    | dsimp only

theorem State.setSem_kept {r : State} : ∀ s i v, Kept r s → Kept r (State.setSem s i v) := by
  intro s i v h0
  unfold State.setSem
  repeat' first
    | with_reducible assumption
    | (extract_lets +onlyGivenNames x; first
      | (refine Kept.cut (x := x) (fun hx => ?_) ?_; (on_goal 1 => clear_value x); (on_goal 2 => subst x))
      | clear_value x)
    | split
    | with_reducible apply Kept.upd
    | intro _
    | dsimp only

theorem State.fset_kept {r : State} : ∀ s x1 v, Kept r s → Kept r (State.fset s x1 v) := by
  intro s x1 v h0
  unfold State.fset
  repeat' first
    | with_reducible assumption
    | (extract_lets +onlyGivenNames x; first
      | (refine Kept.cut (x := x) (fun hx => ?_) ?_; (on_goal 1 => clear_value x); (on_goal 2 => subst x))
      | clear_value x)
    | with_reducible apply State.rset_kept
    | split
    | with_reducible apply Kept.upd
    | intro _
    | dsimp only

theorem State.fsetB_kept {r : State} : ∀ s x1 b, Kept r s → Kept r (State.fsetB s x1 b) := by
  intro s x1 b h0
  unfold State.fsetB
  repeat' first
    | with_reducible assumption
    | (extract_lets +onlyGivenNames x; first
      | (refine Kept.cut (x := x) (fun hx => ?_) ?_; (on_goal 1 => clear_value x); (on_goal 2 => subst x))
      | clear_value x)
    | with_reducible apply State.fset_kept
    | split
    | with_reducible apply Kept.upd
    | intro _
    | dsimp only

theorem State.perfHit_kept {r : State} : ∀ s p code arg n, Kept r s → Kept r (State.perfHit s p code arg n) := by
  intro s p code arg n h0
  unfold State.perfHit
  repeat' first
    | with_reducible assumption
    | (extract_lets +onlyGivenNames x; first
      | (refine Kept.cut (x := x) (fun hx => ?_) ?_; (on_goal 1 => clear_value x); (on_goal 2 => subst x))
      | clear_value x)
    | with_reducible apply State.ctrAdd_kept
    | split
    | with_reducible apply Kept.foldl
    | with_reducible apply Kept.foldl_snd
    | with_reducible apply Kept.foldl_snd2
    | with_reducible apply Kept.upd
    | intro _
    | dsimp only

theorem State.bump_kept {r : State} : ∀ s k unit idx n, Kept r s → Kept r (State.bump s k unit idx n) := by
  intro s k unit idx n h0
  unfold State.bump
  repeat' first
    | with_reducible assumption
    | (extract_lets +onlyGivenNames x; first
      | (refine Kept.cut (x := x) (fun hx => ?_) ?_; (on_goal 1 => clear_value x); (on_goal 2 => subst x))
      | clear_value x)
    | with_reducible apply State.perfHit_kept
    | with_reducible apply State.ctrAdd_kept
    | split
    | with_reducible apply Kept.upd
    | intro _
    | dsimp only

theorem State.fsat_kept {r : State} : ∀ s x1 n, Kept r s → Kept r (State.fsat s x1 n) := by
  intro s x1 n h0
  unfold State.fsat
  repeat' first
    | with_reducible assumption
    | (extract_lets +onlyGivenNames x; first
      | (refine Kept.cut (x := x) (fun hx => ?_) ?_; (on_goal 1 => clear_value x); (on_goal 2 => subst x))
      | clear_value x)
    | with_reducible apply State.fset_kept
    | split
    | with_reducible apply Kept.upd
    | intro _
    | dsimp only

theorem State.stick_kept {r : State} : ∀ s x1 v, Kept r s → Kept r (State.stick s x1 v) := by
  intro s x1 v h0
  unfold State.stick
  repeat' first
    | with_reducible assumption
    | (extract_lets +onlyGivenNames x; first
      | (refine Kept.cut (x := x) (fun hx => ?_) ?_; (on_goal 1 => clear_value x); (on_goal 2 => subst x))
      | clear_value x)
    | with_reducible apply State.fset_kept
    | split
    | with_reducible apply Kept.upd
    | intro _
    | dsimp only

theorem State.setDom_kept {r : State} : ∀ s d on, Kept r s → Kept r (State.setDom s d on) := by
  intro s d on h0
  unfold State.setDom
  repeat' first
    | with_reducible assumption
    | (extract_lets +onlyGivenNames x; first
      | (refine Kept.cut (x := x) (fun hx => ?_) ?_; (on_goal 1 => clear_value x); (on_goal 2 => subst x))
      | clear_value x)
    | with_reducible apply State.fsetB_kept
    | split
    | with_reducible apply Kept.upd
    | intro _
    | dsimp only

theorem State.setGroup_kept {r : State} : ∀ s g v, Kept r s → Kept r (State.setGroup s g v) := by
  intro s g v h0
  unfold State.setGroup
  repeat' first
    | with_reducible assumption
    | (extract_lets +onlyGivenNames x; first
      | (refine Kept.cut (x := x) (fun hx => ?_) ?_; (on_goal 1 => clear_value x); (on_goal 2 => subst x))
      | clear_value x)
    | split
    | with_reducible apply Kept.upd
    | intro _
    | dsimp only

theorem State.setRing_kept {r : State} : ∀ s p x2 v, Kept r s → Kept r (State.setRing s p x2 v) := by
  intro s p x2 v h0
  unfold State.setRing
  repeat' first
    | with_reducible assumption
    | (extract_lets +onlyGivenNames x; first
      | (refine Kept.cut (x := x) (fun hx => ?_) ?_; (on_goal 1 => clear_value x); (on_goal 2 => subst x))
      | clear_value x)
    | split
    | with_reducible apply Kept.upd
    | intro _
    | dsimp only

theorem State.setWin_kept {r : State} : ∀ s w v, Kept r s → Kept r (State.setWin s w v) := by
  intro s w v h0
  unfold State.setWin
  repeat' first
    | with_reducible assumption
    | (extract_lets +onlyGivenNames x; first
      | (refine Kept.cut (x := x) (fun hx => ?_) ?_; (on_goal 1 => clear_value x); (on_goal 2 => subst x))
      | clear_value x)
    | split
    | with_reducible apply Kept.upd
    | intro _
    | dsimp only

theorem State.setCore_kept {r : State} : ∀ s c v, Kept r s → Kept r (State.setCore s c v) := by
  intro s c v h0
  unfold State.setCore
  repeat' first
    | with_reducible assumption
    | (extract_lets +onlyGivenNames x; first
      | (refine Kept.cut (x := x) (fun hx => ?_) ?_; (on_goal 1 => clear_value x); (on_goal 2 => subst x))
      | clear_value x)
    | split
    | with_reducible apply Kept.upd
    | intro _
    | dsimp only

theorem State.setMail_kept {r : State} : ∀ s m b v, Kept r s → Kept r (State.setMail s m b v) := by
  intro s m b v h0
  unfold State.setMail
  repeat' first
    | with_reducible assumption
    | (extract_lets +onlyGivenNames x; first
      | (refine Kept.cut (x := x) (fun hx => ?_) ?_; (on_goal 1 => clear_value x); (on_goal 2 => subst x))
      | clear_value x)
    | split
    | with_reducible apply Kept.upd
    | intro _
    | dsimp only

/-! ## Events and entries of rings -/

theorem State.pushEvent_kept {r : State} : ∀ s p x2 stamp es, Kept r s → Kept r (State.pushEvent s p x2 stamp es) := by
  intro s p x2 stamp es h0
  unfold State.pushEvent
  repeat' first
    | with_reducible assumption
    | (extract_lets +onlyGivenNames x; first
      | (refine Kept.cut (x := x) (fun hx => ?_) ?_; (on_goal 1 => clear_value x); (on_goal 2 => subst x))
      | clear_value x)
    | dsimp only
    | with_reducible apply State.fsetB_kept
    | with_reducible apply State.setRing_kept
    | with_reducible apply State.bump_kept
    | split
    | with_reducible apply Kept.upd
    | with_reducible refine Kept.snd (by assumption) ?_
    | with_reducible refine Kept.snd2 (by assumption) ?_
    | with_reducible refine Kept.snd3 (by assumption) ?_
    | with_reducible refine Kept.fst (by assumption) ?_
    | intro _
    | dsimp only

theorem State.raiseMany_kept {r : State} : ∀ s p kind stamp es, Kept r s → Kept r (State.raiseMany s p kind stamp es) := by
  intro s p kind stamp es h0
  unfold State.raiseMany
  repeat' first
    | with_reducible assumption
    | (extract_lets +onlyGivenNames x; first
      | (refine Kept.cut (x := x) (fun hx => ?_) ?_; (on_goal 1 => clear_value x); (on_goal 2 => subst x))
      | clear_value x)
    | with_reducible apply State.setPart_kept
    | with_reducible apply State.forEach_kept
    | with_reducible apply State.pushEvent_kept
    | split
    | with_reducible apply Kept.upd
    | intro _
    | dsimp only

theorem State.raiseAt_kept {r : State} : ∀ s p kind source data0 data1 stamp, Kept r s → Kept r (State.raiseAt s p kind source data0 data1 stamp) := by
  intro s p kind source data0 data1 stamp h0
  unfold State.raiseAt
  repeat' first
    | with_reducible assumption
    | (extract_lets +onlyGivenNames x; first
      | (refine Kept.cut (x := x) (fun hx => ?_) ?_; (on_goal 1 => clear_value x); (on_goal 2 => subst x))
      | clear_value x)
    | with_reducible apply State.raiseMany_kept
    | split
    | with_reducible apply Kept.upd
    | intro _
    | dsimp only

theorem State.stamp_kept {r : State} : ∀ s, Kept r s → Kept r (State.stamp s).2 := by
  intro s h0
  unfold State.stamp
  repeat' first
    | with_reducible assumption
    | (extract_lets +onlyGivenNames x; first
      | (refine Kept.cut (x := x) (fun hx => ?_) ?_; (on_goal 1 => clear_value x); (on_goal 2 => subst x))
      | clear_value x)
    | dsimp only
    | with_reducible apply State.free_kept
    | split
    | with_reducible apply Kept.upd
    | with_reducible refine Kept.snd (by assumption) ?_
    | with_reducible refine Kept.fst (by assumption) ?_
    | intro _
    | dsimp only

theorem State.raise_kept {r : State} : ∀ s p kind source data0 data1, Kept r s → Kept r (State.raise s p kind source data0 data1) := by
  intro s p kind source data0 data1 h0
  unfold State.raise
  repeat' first
    | with_reducible assumption
    | (extract_lets +onlyGivenNames x; first
      | (refine Kept.cut (x := x) (fun hx => ?_) ?_; (on_goal 1 => clear_value x); (on_goal 2 => subst x))
      | clear_value x)
    | with_reducible apply State.raiseAt_kept
    | with_reducible apply State.stamp_kept
    | split
    | with_reducible apply Kept.upd
    | with_reducible refine Kept.snd (by assumption) ?_
    | with_reducible refine Kept.fst (by assumption) ?_
    | intro _
    | dsimp only

theorem State.memHappening_kept {r : State} : ∀ s p cls happening loc1 loc0 unit kind, Kept r s → Kept r (State.memHappening s p cls happening loc1 loc0 unit kind) := by
  intro s p cls happening loc1 loc0 unit kind h0
  unfold State.memHappening
  repeat' first
    | with_reducible assumption
    | (extract_lets +onlyGivenNames x; first
      | (refine Kept.cut (x := x) (fun hx => ?_) ?_; (on_goal 1 => clear_value x); (on_goal 2 => subst x))
      | clear_value x)
    | split
    | with_reducible apply Kept.upd
    | intro _
    | dsimp only

theorem State.poisonConsumed_kept {r : State} : ∀ s p cls loc unit kind, Kept r s → Kept r (State.poisonConsumed s p cls loc unit kind) := by
  intro s p cls loc unit kind h0
  unfold State.poisonConsumed
  repeat' first
    | with_reducible assumption
    | (extract_lets +onlyGivenNames x; first
      | (refine Kept.cut (x := x) (fun hx => ?_) ?_; (on_goal 1 => clear_value x); (on_goal 2 => subst x))
      | clear_value x)
    | with_reducible apply State.memHappening_kept
    | with_reducible apply State.bump_kept
    | split
    | with_reducible apply Kept.upd
    | intro _
    | dsimp only

theorem State.alarm_kept {r : State} : ∀ s, Kept r s → Kept r (State.alarm s) := by
  intro s h0
  unfold State.alarm
  repeat' first
    | with_reducible assumption
    | (extract_lets +onlyGivenNames x; first
      | (refine Kept.cut (x := x) (fun hx => ?_) ?_; (on_goal 1 => clear_value x); (on_goal 2 => subst x))
      | clear_value x)
    | with_reducible apply State.stick_kept
    | with_reducible apply State.fset_kept
    | with_reducible apply State.emit_kept
    | split
    | with_reducible apply Kept.upd
    | intro _
    | dsimp only

theorem State.duskCause_kept {r : State} : ∀ s cause, Kept r s → Kept r (State.duskCause s cause) := by
  intro s cause h0
  unfold State.duskCause
  repeat' first
    | with_reducible assumption
    | (extract_lets +onlyGivenNames x; first
      | (refine Kept.cut (x := x) (fun hx => ?_) ?_; (on_goal 1 => clear_value x); (on_goal 2 => subst x))
      | clear_value x)
    | with_reducible apply State.fset_kept
    | split
    | with_reducible apply Kept.upd
    | intro _
    | dsimp only

theorem State.foundUncorrectable_kept {r : State} : ∀ s p cls stack pos loc unit kind, Kept r s → Kept r (State.foundUncorrectable s p cls stack pos loc unit kind) := by
  intro s p cls stack pos loc unit kind h0
  unfold State.foundUncorrectable
  repeat' first
    | with_reducible assumption
    | (extract_lets +onlyGivenNames x; first
      | (refine Kept.cut (x := x) (fun hx => ?_) ?_; (on_goal 1 => clear_value x); (on_goal 2 => subst x))
      | clear_value x)
    | with_reducible apply State.bump_kept
    | with_reducible apply State.rset_kept
    | with_reducible apply State.alarm_kept
    | with_reducible apply State.duskCause_kept
    | with_reducible apply State.memHappening_kept
    | split
    | with_reducible apply Kept.upd
    | intro _
    | dsimp only

/-! ## Class T memory -/

theorem State.twrite_kept {r : State} : ∀ s x1 b, Kept r s → Kept r (State.twrite s x1 b) := by
  intro s x1 b h0
  unfold State.twrite
  repeat' first
    | with_reducible assumption
    | (extract_lets +onlyGivenNames x; first
      | (refine Kept.cut (x := x) (fun hx => ?_) ?_; (on_goal 1 => clear_value x); (on_goal 2 => subst x))
      | clear_value x)
    | with_reducible apply State.tstore_kept
    | with_reducible apply State.bump_kept
    | with_reducible apply State.fsetB_kept
    | split
    | with_reducible apply Kept.upd
    | with_reducible apply Kept.flip
    | intro _
    | dsimp only

theorem State.twriteN_kept {r : State} : ∀ s x1 bs, Kept r s → Kept r (State.twriteN s x1 bs) := by
  intro s x1 bs h0
  unfold State.twriteN
  repeat' first
    | with_reducible assumption
    | (extract_lets +onlyGivenNames x; first
      | (refine Kept.cut (x := x) (fun hx => ?_) ?_; (on_goal 1 => clear_value x); (on_goal 2 => subst x))
      | clear_value x)
    | with_reducible apply State.twrite_kept
    | split
    | with_reducible apply Kept.foldl
    | with_reducible apply Kept.foldl_snd
    | with_reducible apply Kept.foldl_snd2
    | with_reducible apply Kept.upd
    | with_reducible apply Kept.flip
    | intro _
    | dsimp only

theorem State.tread_kept {r : State} : ∀ s x1, Kept r s → Kept r (State.tread s x1).2.2 := by
  intro s x1 h0
  unfold State.tread
  repeat' first
    | with_reducible assumption
    | (extract_lets +onlyGivenNames x; first
      | (refine Kept.cut (x := x) (fun hx => ?_) ?_; (on_goal 1 => clear_value x); (on_goal 2 => subst x))
      | clear_value x)
    | dsimp only
    | with_reducible apply State.bump_kept
    | with_reducible apply State.tstore_kept
    | with_reducible apply State.tpoison_kept
    | with_reducible apply State.freeB_kept
    | with_reducible apply State.free_kept
    | split
    | with_reducible apply Kept.upd
    | with_reducible apply Kept.flip
    | with_reducible refine Kept.snd (by assumption) ?_
    | with_reducible refine Kept.snd2 (by assumption) ?_
    | with_reducible refine Kept.snd3 (by assumption) ?_
    | with_reducible refine Kept.fst (by assumption) ?_
    | intro _
    | dsimp only

theorem State.treadN_kept {r : State} : ∀ s p x2 n unit kind, Kept r s → Kept r (State.treadN s p x2 n unit kind).2 := by
  intro s p x2 n unit kind h0
  unfold State.treadN
  repeat' first
    | with_reducible assumption
    | dsimp only
    | with_reducible apply State.tread_kept
    | with_reducible apply State.foundUncorrectable_kept
    | with_reducible apply State.poisonConsumed_kept
    | split
    | with_reducible apply Kept.foldl
    | with_reducible apply Kept.foldl_snd
    | with_reducible apply Kept.foldl_snd2
    | with_reducible apply Kept.upd
    | with_reducible apply Kept.flip
    | with_reducible refine Kept.snd (by assumption) ?_
    | with_reducible refine Kept.snd2 (by assumption) ?_
    | with_reducible refine Kept.snd3 (by assumption) ?_
    | with_reducible refine Kept.fst (by assumption) ?_
    | intro _
    | dsimp only

/-! ## Bus errors, completions and host commands -/

theorem State.aerRaise_kept {r : State} : ∀ s p bit, Kept r s → Kept r (State.aerRaise s p bit) := by
  intro s p bit h0
  unfold State.aerRaise
  repeat' first
    | with_reducible assumption
    | (extract_lets +onlyGivenNames x; first
      | (refine Kept.cut (x := x) (fun hx => ?_) ?_; (on_goal 1 => clear_value x); (on_goal 2 => subst x))
      | clear_value x)
    | with_reducible apply State.setPart_kept
    | with_reducible apply State.emit_kept
    | split
    | with_reducible apply Kept.upd
    | intro _
    | dsimp only

theorem State.syncRing_kept {r : State} : ∀ s p x2, Kept r s → Kept r (State.syncRing s p x2) := by
  intro s p x2 h0
  unfold State.syncRing
  repeat' first
    | with_reducible assumption
    | (extract_lets +onlyGivenNames x; first
      | (refine Kept.cut (x := x) (fun hx => ?_) ?_; (on_goal 1 => clear_value x); (on_goal 2 => subst x))
      | clear_value x)
    | with_reducible apply State.fsetB_kept
    | with_reducible apply State.fset_kept
    | split
    | with_reducible apply Kept.upd
    | intro _
    | dsimp only

theorem State.pushRecords_kept {r : State} : ∀ s p c es atOnce, Kept r s → Kept r (State.pushRecords s p c es atOnce) := by
  intro s p c es atOnce h0
  unfold State.pushRecords
  repeat' first
    | with_reducible assumption
    | (extract_lets +onlyGivenNames x; first
      | (refine Kept.cut (x := x) (fun hx => ?_) ?_; (on_goal 1 => clear_value x); (on_goal 2 => subst x))
      | clear_value x)
    | dsimp only
    | with_reducible apply State.bump_kept
    | with_reducible apply State.syncRing_kept
    | with_reducible apply State.setRing_kept
    | split
    | with_reducible apply Kept.upd
    | with_reducible refine Kept.snd (by assumption) ?_
    | with_reducible refine Kept.snd2 (by assumption) ?_
    | with_reducible refine Kept.snd3 (by assumption) ?_
    | with_reducible refine Kept.fst (by assumption) ?_
    | intro _
    | dsimp only

theorem State.complete_kept {r : State} : ∀ s p x2 status result data more, Kept r s → Kept r (State.complete s p x2 status result data more) := by
  intro s p x2 status result data more h0
  unfold State.complete
  repeat' first
    | with_reducible assumption
    | (extract_lets +onlyGivenNames x; first
      | (refine Kept.cut (x := x) (fun hx => ?_) ?_; (on_goal 1 => clear_value x); (on_goal 2 => subst x))
      | clear_value x)
    | with_reducible apply State.syncRing_kept
    | with_reducible apply State.setRing_kept
    | with_reducible apply State.bump_kept
    | with_reducible apply State.pushRecords_kept
    | split
    | with_reducible apply Kept.upd
    | intro _
    | dsimp only

theorem State.cmdBusy_kept {r : State} : ∀ s p x2, Kept r s → Kept r (State.cmdBusy s p x2) := by
  intro s p x2 h0
  unfold State.cmdBusy
  repeat' first
    | with_reducible assumption
    | (extract_lets +onlyGivenNames x; first
      | (refine Kept.cut (x := x) (fun hx => ?_) ?_; (on_goal 1 => clear_value x); (on_goal 2 => subst x))
      | clear_value x)
    | with_reducible apply State.setRing_kept
    | split
    | with_reducible apply Kept.upd
    | intro _
    | dsimp only

theorem State.busErr_kept {r : State} : ∀ s m cause write bar off, Kept r s → Kept r (State.busErr s m cause write bar off) := by
  intro s m cause write bar off h0
  unfold State.busErr
  repeat' first
    | with_reducible assumption
    | (extract_lets +onlyGivenNames x; first
      | (refine Kept.cut (x := x) (fun hx => ?_) ?_; (on_goal 1 => clear_value x); (on_goal 2 => subst x))
      | clear_value x)
    | with_reducible apply State.fsetB_kept
    | with_reducible apply State.fset_kept
    | with_reducible apply State.perfHit_kept
    | with_reducible apply State.fsat_kept
    | with_reducible apply State.aerRaise_kept
    | with_reducible apply State.emit_kept
    | split
    | with_reducible apply Kept.upd
    | intro _
    | dsimp only

/-! ## Writes of registers -/

theorem State.dwLog_kept {r : State} : ∀ s m cause off, Kept r s → Kept r (State.dwLog s m cause off) := by
  intro s m cause off h0
  unfold State.dwLog
  repeat' first
    | with_reducible assumption
    | (extract_lets +onlyGivenNames x; first
      | (refine Kept.cut (x := x) (fun hx => ?_) ?_; (on_goal 1 => clear_value x); (on_goal 2 => subst x))
      | clear_value x)
    | with_reducible apply State.fset_kept
    | with_reducible apply State.rset_kept
    | with_reducible apply State.fsat_kept
    | split
    | with_reducible apply Kept.upd
    | intro _
    | dsimp only

theorem State.pairExpire_kept {r : State} : ∀ s m x, Kept r s → Kept r (State.pairExpire s m x) := by
  intro s m x h0
  unfold State.pairExpire
  repeat' first
    | with_reducible assumption
    | (extract_lets +onlyGivenNames x; first
      | (refine Kept.cut (x := x) (fun hx => ?_) ?_; (on_goal 1 => clear_value x); (on_goal 2 => subst x))
      | clear_value x)
    | with_reducible apply State.dwLog_kept
    | split
    | with_reducible apply Kept.upd
    | intro _
    | dsimp only

theorem State.dropPair_kept {r : State} : ∀ s m row, Kept r s → Kept r (State.dropPair s m row) := by
  intro s m row h0
  unfold State.dropPair
  repeat' first
    | with_reducible assumption
    | (extract_lets +onlyGivenNames x; first
      | (refine Kept.cut (x := x) (fun hx => ?_) ?_; (on_goal 1 => clear_value x); (on_goal 2 => subst x))
      | clear_value x)
    | split
    | with_reducible apply Kept.upd
    | intro _
    | dsimp only

theorem State.pairBroken_kept {r : State} : ∀ s m row off, Kept r s → Kept r (State.pairBroken s m row off) := by
  intro s m row off h0
  unfold State.pairBroken
  repeat' first
    | with_reducible assumption
    | (extract_lets +onlyGivenNames x; first
      | (refine Kept.cut (x := x) (fun hx => ?_) ?_; (on_goal 1 => clear_value x); (on_goal 2 => subst x))
      | clear_value x)
    | with_reducible apply State.pairExpire_kept
    | with_reducible apply State.dropPair_kept
    | with_reducible apply State.dwLog_kept
    | split
    | with_reducible apply Kept.upd
    | intro _
    | dsimp only

theorem State.access_kept {r : State} : ∀ s m key write act, Kept r s → (∀ y0, Kept r y0 → Kept r (act y0)) → Kept r (State.access s m key write act) := by
  intro s m key write act h0 h1
  unfold State.access
  repeat' first
    | with_reducible assumption
    | (extract_lets +onlyGivenNames x; first
      | (refine Kept.cut (x := x) (fun hx => ?_) ?_; (on_goal 1 => clear_value x); (on_goal 2 => subst x))
      | clear_value x)
    | with_reducible apply h1
    | with_reducible apply State.busErr_kept
    | with_reducible apply State.pairBroken_kept
    | split
    | with_reducible apply Kept.upd
    | intro _
    | dsimp only

theorem State.cfgWhileEn_kept {r : State} : ∀ s p b off, Kept r s → Kept r (State.cfgWhileEn s p b off) := by
  intro s p b off h0
  unfold State.cfgWhileEn
  repeat' first
    | with_reducible assumption
    | (extract_lets +onlyGivenNames x; first
      | (refine Kept.cut (x := x) (fun hx => ?_) ?_; (on_goal 1 => clear_value x); (on_goal 2 => subst x))
      | clear_value x)
    | with_reducible apply State.stick_kept
    | with_reducible apply State.fset_kept
    | split
    | with_reducible apply Kept.upd
    | intro _
    | dsimp only

theorem State.writeReg_kept {r : State} : ∀ s m key off x4 w, Kept r s → ∀ t, State.writeReg s m key off x4 w = some t → Kept r t := by
  intro s m key off al w h t e
  unfold State.writeReg at e
  split at e
  · cases e
  · dsimp only at e
    split at e
    · cases e
    · cases e
      exact State.onlyIf_kept _ _ (State.onlyIf_kept _ _ (State.rset_kept _ _ h) fun t ht => State.cfgWhileEn_kept _ _ _ _ ht)
        fun t ht => State.busErr_kept _ _ _ _ _ _ ht

theorem State.writeThen_kept {r : State} : ∀ s m key w act, Kept r s → (∀ y0, Kept r y0 → Kept r (act y0)) → Kept r (State.writeThen s m key w act) := by
  intro s m key w act h0 h1
  unfold State.writeThen
  repeat' first
    | with_reducible assumption
    | (extract_lets +onlyGivenNames x; first
      | (refine Kept.cut (x := x) (fun hx => ?_) ?_; (on_goal 1 => clear_value x); (on_goal 2 => subst x))
      | clear_value x)
    | with_reducible apply h1
    | with_reducible apply State.access_kept
    | with_reducible refine State.writeReg_kept _ _ _ _ _ _ ?_ _ (by assumption)
    | with_reducible apply State.busErr_kept
    | split
    | with_reducible apply Kept.upd
    | intro _
    | dsimp only

/-! ## The timing block -/

theorem State.setInp_kept {r : State} : ∀ s n v, Kept r s → Kept r (State.setInp s n v) := by
  intro s n v h0
  unfold State.setInp
  repeat' first
    | with_reducible assumption
    | (extract_lets +onlyGivenNames x; first
      | (refine Kept.cut (x := x) (fun hx => ?_) ?_; (on_goal 1 => clear_value x); (on_goal 2 => subst x))
      | clear_value x)
    | split
    | with_reducible apply Kept.upd
    | intro _
    | dsimp only

theorem State.stopSoak_kept {r : State} : ∀ s n, Kept r s → Kept r (State.stopSoak s n) := by
  intro s n h0
  unfold State.stopSoak
  repeat' first
    | with_reducible assumption
    | (extract_lets +onlyGivenNames x; first
      | (refine Kept.cut (x := x) (fun hx => ?_) ?_; (on_goal 1 => clear_value x); (on_goal 2 => subst x))
      | clear_value x)
    | with_reducible apply State.fsetB_kept
    | with_reducible apply State.setInp_kept
    | split
    | with_reducible apply Kept.upd
    | intro _
    | dsimp only

theorem State.syncCand_kept {r : State} : ∀ s n, Kept r s → Kept r (State.syncCand s n) := by
  intro s n h0
  unfold State.syncCand
  repeat' first
    | with_reducible assumption
    | (extract_lets +onlyGivenNames x; first
      | (refine Kept.cut (x := x) (fun hx => ?_) ?_; (on_goal 1 => clear_value x); (on_goal 2 => subst x))
      | clear_value x)
    | with_reducible apply State.fsetB_kept
    | split
    | with_reducible apply Kept.upd
    | intro _
    | dsimp only

theorem State.startSoak_kept {r : State} : ∀ s n, Kept r s → Kept r (State.startSoak s n) := by
  intro s n h0
  unfold State.startSoak
  repeat' first
    | with_reducible assumption
    | (extract_lets +onlyGivenNames x; first
      | (refine Kept.cut (x := x) (fun hx => ?_) ?_; (on_goal 1 => clear_value x); (on_goal 2 => subst x))
      | clear_value x)
    | with_reducible apply State.fsetB_kept
    | with_reducible apply State.setInp_kept
    | split
    | with_reducible apply Kept.upd
    | intro _
    | dsimp only

theorem State.syncQl_kept {r : State} : ∀ s, Kept r s → Kept r (State.syncQl s) := by
  intro s h0
  unfold State.syncQl
  repeat' first
    | with_reducible assumption
    | with_reducible apply State.fsetB_kept
    | with_reducible apply State.fset_kept
    | split
    | with_reducible apply Kept.upd
    | intro _
    | dsimp only

theorem State.pairEvent_kept {r : State} : ∀ s what, Kept r s → Kept r (State.pairEvent s what) := by
  intro s what h0
  unfold State.pairEvent
  repeat' first
    | with_reducible assumption
    | (extract_lets +onlyGivenNames x; first
      | (refine Kept.cut (x := x) (fun hx => ?_) ?_; (on_goal 1 => clear_value x); (on_goal 2 => subst x))
      | clear_value x)
    | with_reducible apply State.raise_kept
    | with_reducible apply State.alarm_kept
    | with_reducible apply State.duskCause_kept
    | split
    | with_reducible apply Kept.upd
    | with_reducible refine Kept.snd (by assumption) ?_
    | with_reducible refine Kept.fst (by assumption) ?_
    | intro _
    | dsimp only

theorem State.syncPair_kept {r : State} : ∀ s, Kept r s → Kept r (State.syncPair s) := by
  intro s h0
  unfold State.syncPair
  repeat' first
    | with_reducible assumption
    | (extract_lets +onlyGivenNames x; first
      | (refine Kept.cut (x := x) (fun hx => ?_) ?_; (on_goal 1 => clear_value x); (on_goal 2 => subst x))
      | clear_value x)
    | with_reducible apply State.fsetB_kept
    | with_reducible apply State.fsetB_kept
    | with_reducible apply State.alarm_kept
    | with_reducible apply State.pairEvent_kept
    | split
    | with_reducible apply Kept.upd
    | with_reducible refine Kept.snd (by assumption) ?_
    | with_reducible refine Kept.fst (by assumption) ?_
    | intro _
    | dsimp only

theorem State.driveWire_kept {r : State} : ∀ s low, Kept r s → Kept r (State.driveWire s low) := by
  intro s low h0
  unfold State.driveWire
  repeat' first
    | with_reducible assumption
    | (extract_lets +onlyGivenNames x; first
      | (refine Kept.cut (x := x) (fun hx => ?_) ?_; (on_goal 1 => clear_value x); (on_goal 2 => subst x))
      | clear_value x)
    | with_reducible apply State.fsetB_kept
    | with_reducible apply State.emit_kept
    | with_reducible apply State.fsetB_kept
    | split
    | with_reducible apply Kept.upd
    | with_reducible refine Kept.snd (by assumption) ?_
    | with_reducible refine Kept.fst (by assumption) ?_
    | intro _
    | dsimp only

theorem State.setRole_kept {r : State} : ∀ s role, Kept r s → Kept r (State.setRole s role) := by
  intro s role h0
  unfold State.setRole
  repeat' first
    | with_reducible assumption
    | (extract_lets +onlyGivenNames x; first
      | (refine Kept.cut (x := x) (fun hx => ?_) ?_; (on_goal 1 => clear_value x); (on_goal 2 => subst x))
      | clear_value x)
    | with_reducible apply State.fset_kept
    | with_reducible apply State.fset_kept
    | with_reducible apply State.pairEvent_kept
    | with_reducible apply State.syncPair_kept
    | split
    | with_reducible apply Kept.upd
    | with_reducible refine Kept.snd (by assumption) ?_
    | with_reducible refine Kept.fst (by assumption) ?_
    | intro _
    | dsimp only

theorem State.setOutp_kept {r : State} : ∀ s o v, Kept r s → Kept r (State.setOutp s o v) := by
  intro s o v h0
  unfold State.setOutp
  repeat' first
    | with_reducible assumption
    | (extract_lets +onlyGivenNames x; first
      | (refine Kept.cut (x := x) (fun hx => ?_) ?_; (on_goal 1 => clear_value x); (on_goal 2 => subst x))
      | clear_value x)
    | split
    | with_reducible apply Kept.upd
    | with_reducible refine Kept.snd (by assumption) ?_
    | with_reducible refine Kept.fst (by assumption) ?_
    | intro _
    | dsimp only

theorem State.releaseOutputs_kept {r : State} : ∀ s, Kept r s → Kept r (State.releaseOutputs s) := by
  intro s h0
  unfold State.releaseOutputs
  repeat' first
    | with_reducible assumption
    | (extract_lets +onlyGivenNames x; first
      | (refine Kept.cut (x := x) (fun hx => ?_) ?_; (on_goal 1 => clear_value x); (on_goal 2 => subst x))
      | clear_value x)
    | with_reducible apply State.forEach_kept
    | with_reducible apply State.setOutp_kept
    | split
    | with_reducible apply Kept.upd
    | with_reducible refine Kept.snd (by assumption) ?_
    | with_reducible refine Kept.fst (by assumption) ?_
    | intro _
    | dsimp only

theorem State.standDown_kept {r : State} : ∀ s, Kept r s → Kept r (State.standDown s) := by
  intro s h0
  unfold State.standDown
  repeat' first
    | with_reducible assumption
    | (extract_lets +onlyGivenNames x; first
      | (refine Kept.cut (x := x) (fun hx => ?_) ?_; (on_goal 1 => clear_value x); (on_goal 2 => subst x))
      | clear_value x)
    | with_reducible apply State.driveWire_kept
    | with_reducible apply State.setRole_kept
    | with_reducible apply State.releaseOutputs_kept
    | split
    | with_reducible apply Kept.upd
    | with_reducible refine Kept.snd (by assumption) ?_
    | with_reducible refine Kept.fst (by assumption) ?_
    | intro _
    | dsimp only

theorem State.relOnFault_kept {r : State} : ∀ s, Kept r s → Kept r (State.relOnFault s) := by
  intro s h0
  unfold State.relOnFault
  repeat' first
    | with_reducible assumption
    | (extract_lets +onlyGivenNames x; first
      | (refine Kept.cut (x := x) (fun hx => ?_) ?_; (on_goal 1 => clear_value x); (on_goal 2 => subst x))
      | clear_value x)
    | with_reducible apply State.standDown_kept
    | split
    | with_reducible apply Kept.upd
    | with_reducible refine Kept.snd (by assumption) ?_
    | with_reducible refine Kept.fst (by assumption) ?_
    | intro _
    | dsimp only

theorem State.setTiming_kept {r : State} : ∀ s0 new, Kept r s0 → Kept r (State.setTiming s0 new) := by
  intro s0 new h0
  unfold State.setTiming
  repeat' first
    | with_reducible assumption
    | (extract_lets +onlyGivenNames x; first
      | (refine Kept.cut (x := x) (fun hx => ?_) ?_; (on_goal 1 => clear_value x); (on_goal 2 => subst x))
      | clear_value x)
    | with_reducible apply State.fset_kept
    | with_reducible apply State.fsetB_kept
    | with_reducible apply State.onlyIf_kept
    | with_reducible apply State.free_kept
    | with_reducible apply State.fset_kept
    | with_reducible apply State.fsetB_kept
    | with_reducible apply State.stick_kept
    | with_reducible apply State.raise_kept
    | with_reducible apply State.alarm_kept
    | with_reducible apply State.syncQl_kept
    | with_reducible apply State.relOnFault_kept
    | split
    | with_reducible apply Kept.upd
    | with_reducible refine Kept.snd (by assumption) ?_
    | with_reducible refine Kept.fst (by assumption) ?_
    | intro _
    | dsimp only

theorem State.stageDco_kept {r : State} : ∀ s d, Kept r s → Kept r (State.stageDco s d) := by
  intro s d h0
  unfold State.stageDco
  repeat' first
    | with_reducible assumption
    | (extract_lets +onlyGivenNames x; first
      | (refine Kept.cut (x := x) (fun hx => ?_) ?_; (on_goal 1 => clear_value x); (on_goal 2 => subst x))
      | clear_value x)
    | dsimp only
    | split
    | with_reducible apply Kept.upd
    | with_reducible refine Kept.snd (by assumption) ?_
    | with_reducible refine Kept.snd2 (by assumption) ?_
    | with_reducible refine Kept.snd3 (by assumption) ?_
    | with_reducible refine Kept.fst (by assumption) ?_
    | intro _
    | dsimp only

theorem State.deselect_kept {r : State} : ∀ s, Kept r s → Kept r (State.deselect s) := by
  intro s h0
  unfold State.deselect
  repeat' first
    | with_reducible assumption
    | (extract_lets +onlyGivenNames x; first
      | (refine Kept.cut (x := x) (fun hx => ?_) ?_; (on_goal 1 => clear_value x); (on_goal 2 => subst x))
      | clear_value x)
    | with_reducible apply State.fsetB_kept
    | with_reducible apply State.setTiming_kept
    | with_reducible apply State.stageDco_kept
    | split
    | with_reducible apply Kept.upd
    | intro _
    | dsimp only

theorem State.buildOut_kept {r : State} : ∀ s n, Kept r s → Kept r (State.buildOut s n) := by
  intro s n h0
  unfold State.buildOut
  repeat' first
    | with_reducible assumption
    | (extract_lets +onlyGivenNames x; first
      | (refine Kept.cut (x := x) (fun hx => ?_) ?_; (on_goal 1 => clear_value x); (on_goal 2 => subst x))
      | clear_value x)
    | with_reducible apply State.fset_kept
    | with_reducible apply State.fsetB_kept
    | with_reducible apply State.free_kept
    | with_reducible apply State.fset_kept
    | with_reducible apply State.fsetB_kept
    | split
    | with_reducible apply Kept.upd
    | with_reducible refine Kept.snd (by assumption) ?_
    | with_reducible refine Kept.fst (by assumption) ?_
    | intro _
    | dsimp only

theorem State.select_kept {r : State} : ∀ s n, Kept r s → Kept r (State.select s n) := by
  intro s n h0
  unfold State.select
  repeat' first
    | with_reducible assumption
    | (extract_lets +onlyGivenNames x; first
      | (refine Kept.cut (x := x) (fun hx => ?_) ?_; (on_goal 1 => clear_value x); (on_goal 2 => subst x))
      | clear_value x)
    | with_reducible apply State.fset_kept
    | with_reducible apply State.fsetB_kept
    | with_reducible apply State.onlyIf_kept
    | with_reducible apply State.fset_kept
    | with_reducible apply State.fsetB_kept
    | with_reducible apply State.stick_kept
    | with_reducible apply State.setTiming_kept
    | with_reducible apply State.buildOut_kept
    | split
    | with_reducible apply Kept.upd
    | with_reducible refine Kept.snd (by assumption) ?_
    | with_reducible refine Kept.fst (by assumption) ?_
    | intro _
    | dsimp only

theorem State.lossOfSelected_kept {r : State} : ∀ s, Kept r s → Kept r (State.lossOfSelected s) := by
  intro s h0
  unfold State.lossOfSelected
  repeat' first
    | with_reducible assumption
    | (extract_lets +onlyGivenNames x; first
      | (refine Kept.cut (x := x) (fun hx => ?_) ?_; (on_goal 1 => clear_value x); (on_goal 2 => subst x))
      | clear_value x)
    | with_reducible apply State.deselect_kept
    | with_reducible apply State.select_kept
    | with_reducible apply State.onlyIf_kept
    | with_reducible apply State.stick_kept
    | split
    | with_reducible apply Kept.upd
    | intro _
    | dsimp only

theorem State.disqualify_kept {r : State} : ∀ s n, Kept r s → Kept r (State.disqualify s n) := by
  intro s n h0
  unfold State.disqualify
  repeat' first
    | with_reducible assumption
    | (extract_lets +onlyGivenNames x; first
      | (refine Kept.cut (x := x) (fun hx => ?_) ?_; (on_goal 1 => clear_value x); (on_goal 2 => subst x))
      | clear_value x)
    | with_reducible apply State.fsetB_kept
    | with_reducible apply State.setInp_kept
    | with_reducible apply State.syncCand_kept
    | with_reducible apply State.lossOfSelected_kept
    | split
    | with_reducible apply Kept.upd
    | intro _
    | dsimp only

theorem State.judgeB_kept {r : State} : ∀ s n, Kept r s → Kept r (State.judgeB s n) := by
  intro s n h0
  unfold State.judgeB
  repeat' first
    | with_reducible assumption
    | (extract_lets +onlyGivenNames x; first
      | (refine Kept.cut (x := x) (fun hx => ?_) ?_; (on_goal 1 => clear_value x); (on_goal 2 => subst x))
      | clear_value x)
    | with_reducible apply State.startSoak_kept
    | with_reducible apply State.disqualify_kept
    | with_reducible apply State.stopSoak_kept
    | split
    | with_reducible apply Kept.upd
    | intro _
    | dsimp only

theorem State.activityOk_kept {r : State} : ∀ s n, Kept r s → Kept r (State.activityOk s n) := by
  intro s n h0
  unfold State.activityOk
  repeat' first
    | with_reducible assumption
    | (extract_lets +onlyGivenNames x; first
      | (refine Kept.cut (x := x) (fun hx => ?_) ?_; (on_goal 1 => clear_value x); (on_goal 2 => subst x))
      | clear_value x)
    | with_reducible apply State.judgeB_kept
    | with_reducible apply State.fsetB_kept
    | split
    | with_reducible apply Kept.upd
    | intro _
    | dsimp only

theorem State.activityFault_kept {r : State} : ∀ s n, Kept r s → Kept r (State.activityFault s n) := by
  intro s n h0
  unfold State.activityFault
  repeat' first
    | with_reducible assumption
    | (extract_lets +onlyGivenNames x; first
      | (refine Kept.cut (x := x) (fun hx => ?_) ?_; (on_goal 1 => clear_value x); (on_goal 2 => subst x))
      | clear_value x)
    | with_reducible apply State.disqualify_kept
    | with_reducible apply State.fsetB_kept
    | split
    | with_reducible apply Kept.upd
    | intro _
    | dsimp only

theorem State.followClock_kept {r : State} : ∀ s n, Kept r s → Kept r (State.followClock s n) := by
  intro s n h0
  unfold State.followClock
  repeat' first
    | with_reducible assumption
    | (extract_lets +onlyGivenNames x; first
      | (refine Kept.cut (x := x) (fun hx => ?_) ?_; (on_goal 1 => clear_value x); (on_goal 2 => subst x))
      | clear_value x)
    | with_reducible apply State.activityOk_kept
    | with_reducible apply State.activityFault_kept
    | split
    | with_reducible apply Kept.upd
    | with_reducible refine Kept.snd (by assumption) ?_
    | with_reducible refine Kept.fst (by assumption) ?_
    | intro _
    | dsimp only

theorem State.lineClock_kept {r : State} : ∀ s g, Kept r s → Kept r (State.lineClock s g) := by
  intro s g h0
  unfold State.lineClock
  repeat' first
    | with_reducible assumption
    | (extract_lets +onlyGivenNames x; first
      | (refine Kept.cut (x := x) (fun hx => ?_) ?_; (on_goal 1 => clear_value x); (on_goal 2 => subst x))
      | clear_value x)
    | with_reducible apply State.forEach_kept
    | with_reducible apply State.followClock_kept
    | split
    | with_reducible apply Kept.upd
    | with_reducible refine Kept.snd (by assumption) ?_
    | with_reducible refine Kept.fst (by assumption) ?_
    | intro _
    | dsimp only

theorem State.receiveQl_kept {r : State} : ∀ s n q, Kept r s → Kept r (State.receiveQl s n q) := by
  intro s n q h0
  unfold State.receiveQl
  repeat' first
    | with_reducible assumption
    | (extract_lets +onlyGivenNames x; first
      | (refine Kept.cut (x := x) (fun hx => ?_) ?_; (on_goal 1 => clear_value x); (on_goal 2 => subst x))
      | clear_value x)
    | with_reducible apply State.syncQl_kept
    | with_reducible apply State.judgeB_kept
    | with_reducible apply State.fsetB_kept
    | with_reducible apply State.fset_kept
    | split
    | with_reducible apply Kept.upd
    | intro _
    | dsimp only

theorem State.lineQl_kept {r : State} : ∀ s n valid, Kept r s → Kept r (State.lineQl s n valid) := by
  intro s n valid h0
  unfold State.lineQl
  repeat' first
    | with_reducible assumption
    | (extract_lets +onlyGivenNames x; first
      | (refine Kept.cut (x := x) (fun hx => ?_) ?_; (on_goal 1 => clear_value x); (on_goal 2 => subst x))
      | clear_value x)
    | with_reducible apply State.forEach_kept
    | with_reducible apply State.receiveQl_kept
    | split
    | with_reducible apply Kept.upd
    | intro _
    | dsimp only

theorem State.failQl_kept {r : State} : ∀ s n, Kept r s → Kept r (State.failQl s n) := by
  intro s n h0
  unfold State.failQl
  repeat' first
    | with_reducible assumption
    | (extract_lets +onlyGivenNames x; first
      | (refine Kept.cut (x := x) (fun hx => ?_) ?_; (on_goal 1 => clear_value x); (on_goal 2 => subst x))
      | clear_value x)
    | with_reducible apply State.judgeB_kept
    | with_reducible apply State.fsetB_kept
    | split
    | with_reducible apply Kept.upd
    | intro _
    | dsimp only

theorem State.setPageByte_kept {r : State} : ∀ s n k v, Kept r s → Kept r (State.setPageByte s n k v) := by
  intro s n k v h0
  unfold State.setPageByte
  repeat' first
    | with_reducible assumption
    | (extract_lets +onlyGivenNames x; first
      | (refine Kept.cut (x := x) (fun hx => ?_) ?_; (on_goal 1 => clear_value x); (on_goal 2 => subst x))
      | clear_value x)
    | with_reducible apply State.fset_kept
    | split
    | with_reducible apply Kept.upd
    | intro _
    | dsimp only

theorem State.round_kept {r : State} : ∀ s num den, Kept r s → Kept r (State.round s num den).2 := by
  intro s num den h0
  unfold State.round
  repeat' first
    | with_reducible assumption
    | (extract_lets +onlyGivenNames x; first
      | (refine Kept.cut (x := x) (fun hx => ?_) ?_; (on_goal 1 => clear_value x); (on_goal 2 => subst x))
      | clear_value x)
    | dsimp only
    | with_reducible apply State.freeB_kept
    | split
    | with_reducible apply Kept.upd
    | with_reducible refine Kept.snd (by assumption) ?_
    | with_reducible refine Kept.snd2 (by assumption) ?_
    | with_reducible refine Kept.snd3 (by assumption) ?_
    | with_reducible refine Kept.fst (by assumption) ?_
    | intro _
    | dsimp only

theorem State.coreWritesPage_kept {r : State} : ∀ s n, Kept r s → Kept r (State.coreWritesPage s n) := by
  intro s n h0
  unfold State.coreWritesPage
  repeat' first
    | with_reducible assumption
    | (extract_lets +onlyGivenNames x; first
      | (refine Kept.cut (x := x) (fun hx => ?_) ?_; (on_goal 1 => clear_value x); (on_goal 2 => subst x))
      | clear_value x)
    | with_reducible apply State.setPageByte_kept
    | with_reducible apply State.onlyIf_kept
    | split
    | with_reducible apply Kept.upd
    | intro _
    | dsimp only

/-! ## The cascade -/

theorem State.setUpstream_kept {r : State} : ∀ s u, Kept r s → Kept r (State.setUpstream s u) := by
  intro s u h0
  unfold State.setUpstream
  repeat' first
    | with_reducible assumption
    | (extract_lets +onlyGivenNames x; first
      | (refine Kept.cut (x := x) (fun hx => ?_) ?_; (on_goal 1 => clear_value x); (on_goal 2 => subst x))
      | clear_value x)
    | with_reducible apply State.fsetB_kept
    | with_reducible apply State.activityFault_kept
    | with_reducible apply State.bump_kept
    | with_reducible apply State.fset_kept
    | with_reducible apply State.select_kept
    | split
    | with_reducible apply Kept.upd
    | intro _
    | dsimp only

theorem State.syncUpstream_kept {r : State} : ∀ s, Kept r s → Kept r (State.syncUpstream s) := by
  intro s h0
  unfold State.syncUpstream
  repeat' first
    | with_reducible assumption
    | (extract_lets +onlyGivenNames x; first
      | (refine Kept.cut (x := x) (fun hx => ?_) ?_; (on_goal 1 => clear_value x); (on_goal 2 => subst x))
      | clear_value x)
    | with_reducible apply State.setUpstream_kept
    | split
    | with_reducible apply Kept.upd
    | with_reducible apply Kept.getD
    | intro _
    | dsimp only

theorem State.setCasBit_kept {r : State} : ∀ s f p b, Kept r s → Kept r (State.setCasBit s f p b) := by
  intro s f p b h0
  unfold State.setCasBit
  repeat' first
    | with_reducible assumption
    | (extract_lets +onlyGivenNames x; first
      | (refine Kept.cut (x := x) (fun hx => ?_) ?_; (on_goal 1 => clear_value x); (on_goal 2 => subst x))
      | clear_value x)
    | with_reducible apply State.fset_kept
    | split
    | with_reducible apply Kept.upd
    | intro _
    | dsimp only

theorem State.setReach_kept {r : State} : ∀ s p b, Kept r s → Kept r (State.setReach s p b) := by
  intro s p b h0
  unfold State.setReach
  repeat' first
    | with_reducible assumption
    | (extract_lets +onlyGivenNames x; first
      | (refine Kept.cut (x := x) (fun hx => ?_) ?_; (on_goal 1 => clear_value x); (on_goal 2 => subst x))
      | clear_value x)
    | with_reducible apply State.syncUpstream_kept
    | with_reducible apply State.fsetB_kept
    | with_reducible apply State.setCasBit_kept
    | split
    | with_reducible apply Kept.upd
    | intro _
    | dsimp only

theorem State.setCasPort_kept {r : State} : ∀ s p v, Kept r s → Kept r (State.setCasPort s p v) := by
  intro s p v h0
  unfold State.setCasPort
  repeat' first
    | with_reducible assumption
    | (extract_lets +onlyGivenNames x; first
      | (refine Kept.cut (x := x) (fun hx => ?_) ?_; (on_goal 1 => clear_value x); (on_goal 2 => subst x))
      | clear_value x)
    | split
    | with_reducible apply Kept.upd
    | intro _
    | dsimp only

theorem State.casQueue_kept {r : State} : ∀ s p kind cells, Kept r s → Kept r (State.casQueue s p kind cells) := by
  intro s p kind cells h0
  unfold State.casQueue
  repeat' first
    | with_reducible assumption
    | (extract_lets +onlyGivenNames x; first
      | (refine Kept.cut (x := x) (fun hx => ?_) ?_; (on_goal 1 => clear_value x); (on_goal 2 => subst x))
      | clear_value x)
    | dsimp only
    | with_reducible apply State.bump_kept
    | with_reducible apply State.setCasPort_kept
    | split
    | with_reducible apply Kept.upd
    | with_reducible refine Kept.snd (by assumption) ?_
    | with_reducible refine Kept.snd2 (by assumption) ?_
    | with_reducible refine Kept.snd3 (by assumption) ?_
    | with_reducible refine Kept.fst (by assumption) ?_
    | intro _
    | dsimp only

theorem State.casSend_kept {r : State} : ∀ s p kind bcast dst words, Kept r s → Kept r (State.casSend s p kind bcast dst words) := by
  intro s p kind bcast dst words h0
  unfold State.casSend
  repeat' first
    | with_reducible assumption
    | (extract_lets +onlyGivenNames x; first
      | (refine Kept.cut (x := x) (fun hx => ?_) ?_; (on_goal 1 => clear_value x); (on_goal 2 => subst x))
      | clear_value x)
    | with_reducible apply State.casQueue_kept
    | split
    | with_reducible apply Kept.upd
    | intro _
    | dsimp only

theorem State.casSendBoth_kept {r : State} : ∀ s kind bcast dst words, Kept r s → Kept r (State.casSendBoth s kind bcast dst words) := by
  intro s kind bcast dst words h0
  unfold State.casSendBoth
  repeat' first
    | with_reducible assumption
    | (extract_lets +onlyGivenNames x; first
      | (refine Kept.cut (x := x) (fun hx => ?_) ?_; (on_goal 1 => clear_value x); (on_goal 2 => subst x))
      | clear_value x)
    | with_reducible apply State.casSend_kept
    | split
    | with_reducible apply Kept.upd
    | intro _
    | dsimp only

theorem State.syncPort_kept {r : State} : ∀ s p, Kept r s → Kept r (State.syncPort s p) := by
  intro s p h0
  unfold State.syncPort
  repeat' first
    | with_reducible assumption
    | (extract_lets +onlyGivenNames x; first
      | (refine Kept.cut (x := x) (fun hx => ?_) ?_; (on_goal 1 => clear_value x); (on_goal 2 => subst x))
      | clear_value x)
    | with_reducible apply State.setCasBit_kept
    | with_reducible apply State.casSendBoth_kept
    | with_reducible apply State.setReach_kept
    | split
    | with_reducible apply Kept.upd
    | intro _
    | dsimp only

theorem State.casForward_kept {r : State} : ∀ s c seq arrived time, Kept r s → Kept r (State.casForward s c seq arrived time) := by
  intro s c seq arrived time h0
  unfold State.casForward
  repeat' first
    | with_reducible assumption
    | (extract_lets +onlyGivenNames x; first
      | (refine Kept.cut (x := x) (fun hx => ?_) ?_; (on_goal 1 => clear_value x); (on_goal 2 => subst x))
      | clear_value x)
    | with_reducible apply State.setCasPort_kept
    | split
    | with_reducible apply Kept.upd
    | intro _
    | dsimp only

theorem State.commitDigest_kept {r : State} : ∀ s ref, Kept r s → Kept r (State.commitDigest s ref) := by
  intro s ref h0
  unfold State.commitDigest
  repeat' first
    | with_reducible assumption
    | (extract_lets +onlyGivenNames x; first
      | (refine Kept.cut (x := x) (fun hx => ?_) ?_; (on_goal 1 => clear_value x); (on_goal 2 => subst x))
      | clear_value x)
    | with_reducible apply State.fsetB_kept
    | with_reducible apply State.fset_kept
    | split
    | with_reducible apply Kept.upd
    | intro _
    | dsimp only

theorem State.nextCell_kept {r : State} : ∀ s c, Kept r s → Kept r (State.nextCell s c).2 := by
  intro s c h0
  unfold State.nextCell
  repeat' first
    | with_reducible assumption
    | (extract_lets +onlyGivenNames x; first
      | (refine Kept.cut (x := x) (fun hx => ?_) ?_; (on_goal 1 => clear_value x); (on_goal 2 => subst x))
      | clear_value x)
    | dsimp only
    | with_reducible apply State.bump_kept
    | with_reducible apply State.setCasPort_kept
    | split
    | with_reducible apply Kept.upd
    | with_reducible refine Kept.snd (by assumption) ?_
    | with_reducible refine Kept.snd2 (by assumption) ?_
    | with_reducible refine Kept.snd3 (by assumption) ?_
    | with_reducible refine Kept.fst (by assumption) ?_
    | intro _
    | dsimp only

theorem State.startEnum_kept {r : State} : ∀ s, Kept r s → Kept r (State.startEnum s) := by
  intro s h0
  unfold State.startEnum
  repeat' first
    | with_reducible assumption
    | (extract_lets +onlyGivenNames x; first
      | (refine Kept.cut (x := x) (fun hx => ?_) ?_; (on_goal 1 => clear_value x); (on_goal 2 => subst x))
      | clear_value x)
    | with_reducible apply State.casSend_kept
    | split
    | with_reducible apply Kept.upd
    | intro _
    | dsimp only

theorem State.setIntact_kept {r : State} : ∀ s b, Kept r s → Kept r (State.setIntact s b) := by
  intro s b h0
  unfold State.setIntact
  repeat' first
    | with_reducible assumption
    | (extract_lets +onlyGivenNames x; first
      | (refine Kept.cut (x := x) (fun hx => ?_) ?_; (on_goal 1 => clear_value x); (on_goal 2 => subst x))
      | clear_value x)
    | with_reducible apply State.fsetB_kept
    | with_reducible apply State.startEnum_kept
    | split
    | with_reducible apply Kept.upd
    | intro _
    | dsimp only

theorem State.activateEpoch_kept {r : State} : ∀ s e, Kept r s → Kept r (State.activateEpoch s e) := by
  intro s e h0
  unfold State.activateEpoch
  repeat' first
    | with_reducible assumption
    | (extract_lets +onlyGivenNames x; first
      | (refine Kept.cut (x := x) (fun hx => ?_) ?_; (on_goal 1 => clear_value x); (on_goal 2 => subst x))
      | clear_value x)
    | with_reducible apply State.bump_kept
    | with_reducible apply State.fset_kept
    | with_reducible apply State.onlyIf_kept
    | with_reducible apply State.commitDigest_kept
    | with_reducible apply State.forEach_kept
    | with_reducible apply State.complete_kept
    | with_reducible apply State.fsetB_kept
    | split
    | with_reducible apply Kept.upd
    | intro _
    | dsimp only

/-! ## Reads of held grains -/

theorem State.voidTrib_kept {r : State} : ∀ s t row, Kept r s → Kept r (State.voidTrib s t row) := by
  intro s t row h0
  unfold State.voidTrib
  repeat' first
    | with_reducible assumption
    | (extract_lets +onlyGivenNames x; first
      | (refine Kept.cut (x := x) (fun hx => ?_) ?_; (on_goal 1 => clear_value x); (on_goal 2 => subst x))
      | clear_value x)
    | with_reducible apply State.raise_kept
    | with_reducible apply State.fsetB_kept
    | with_reducible apply State.setTrib_kept
    | split
    | with_reducible apply Kept.upd
    | intro _
    | dsimp only

theorem State.setGrid_kept {r : State} : ∀ s t x, Kept r s → Kept r (State.setGrid s t x) := by
  intro s t x h0
  unfold State.setGrid
  repeat' first
    | with_reducible assumption
    | (extract_lets +onlyGivenNames x; first
      | (refine Kept.cut (x := x) (fun hx => ?_) ?_; (on_goal 1 => clear_value x); (on_goal 2 => subst x))
      | clear_value x)
    | with_reducible apply State.forEach_kept
    | with_reducible apply State.setTrib_kept
    | split
    | with_reducible apply Kept.upd
    | with_reducible refine Kept.snd (by assumption) ?_
    | with_reducible refine Kept.fst (by assumption) ?_
    | intro _
    | dsimp only

theorem State.fixGrid_kept {r : State} : ∀ s t lo hi, Kept r s → Kept r (State.fixGrid s t lo hi) := by
  intro s t lo hi h0
  unfold State.fixGrid
  repeat' first
    | with_reducible assumption
    | (extract_lets +onlyGivenNames x; first
      | (refine Kept.cut (x := x) (fun hx => ?_) ?_; (on_goal 1 => clear_value x); (on_goal 2 => subst x))
      | clear_value x)
    | with_reducible apply State.setGrid_kept
    | split
    | with_reducible apply Kept.upd
    | with_reducible refine Kept.snd (by assumption) ?_
    | with_reducible refine Kept.fst (by assumption) ?_
    | intro _
    | dsimp only

theorem State.voidPending_kept {r : State} : ∀ s t row, Kept r s → Kept r (State.voidPending s t row) := by
  intro s t row h0
  unfold State.voidPending
  repeat' first
    | with_reducible assumption
    | (extract_lets +onlyGivenNames x; first
      | (refine Kept.cut (x := x) (fun hx => ?_) ?_; (on_goal 1 => clear_value x); (on_goal 2 => subst x))
      | clear_value x)
    | with_reducible apply State.setTrib_kept
    | split
    | with_reducible apply Kept.upd
    | intro _
    | dsimp only

theorem State.syncZero_kept {r : State} : ∀ s, Kept r s → Kept r (State.syncZero s) := by
  intro s h0
  unfold State.syncZero
  repeat' first
    | with_reducible assumption
    | (extract_lets +onlyGivenNames x; first
      | (refine Kept.cut (x := x) (fun hx => ?_) ?_; (on_goal 1 => clear_value x); (on_goal 2 => subst x))
      | clear_value x)
    | with_reducible apply State.fset_kept
    | split
    | with_reducible apply Kept.upd
    | intro _
    | dsimp only

theorem State.pushZero_kept {r : State} : ∀ s p pages granules stack staging, Kept r s → Kept r (State.pushZero s p pages granules stack staging) := by
  intro s p pages granules stack staging h0
  unfold State.pushZero
  repeat' first
    | with_reducible assumption
    | (extract_lets +onlyGivenNames x; first
      | (refine Kept.cut (x := x) (fun hx => ?_) ?_; (on_goal 1 => clear_value x); (on_goal 2 => subst x))
      | clear_value x)
    | with_reducible apply State.syncZero_kept
    | split
    | with_reducible apply Kept.foldl
    | with_reducible apply Kept.foldl_snd
    | with_reducible apply Kept.foldl_snd2
    | with_reducible apply Kept.upd
    | intro _
    | dsimp only

theorem State.stackHappening_kept {r : State} : ∀ s st pos happening, Kept r s → Kept r (State.stackHappening s st pos happening) := by
  intro s st pos happening h0
  unfold State.stackHappening
  repeat' first
    | with_reducible assumption
    | (extract_lets +onlyGivenNames x; first
      | (refine Kept.cut (x := x) (fun hx => ?_) ?_; (on_goal 1 => clear_value x); (on_goal 2 => subst x))
      | clear_value x)
    | with_reducible apply State.forEach_kept
    | with_reducible apply State.memHappening_kept
    | split
    | with_reducible apply Kept.upd
    | intro _
    | dsimp only

theorem State.failDie_kept {r : State} : ∀ s st pos, Kept r s → Kept r (State.failDie s st pos) := by
  intro s st pos h0
  unfold State.failDie
  repeat' first
    | with_reducible assumption
    | (extract_lets +onlyGivenNames x; first
      | (refine Kept.cut (x := x) (fun hx => ?_) ?_; (on_goal 1 => clear_value x); (on_goal 2 => subst x))
      | clear_value x)
    | with_reducible apply State.fset_kept
    | with_reducible apply State.alarm_kept
    | with_reducible apply State.duskCause_kept
    | with_reducible apply State.stackHappening_kept
    | with_reducible apply State.bump_kept
    | split
    | with_reducible apply Kept.upd
    | intro _
    | dsimp only

theorem State.loseStack_kept {r : State} : ∀ s st, Kept r s → Kept r (State.loseStack s st) := by
  intro s st h0
  unfold State.loseStack
  split
  · exact h0
  · refine State.alarm_kept _ (State.duskCause_kept _ _ (State.stackHappening_kept _ _ _ _ (State.forEach_kept _ _ ?_ fun t x ht => ?_)))
    · exact (State.fsetB_kept _ _ _ h0).of_eq rfl rfl rfl rfl rfl rfl rfl rfl
    · refine State.onlyIf_kept _ _ (State.onlyIf_kept _ _ ht fun t ht => State.voidPending_kept _ _ _ ht) fun t ht => ?_
      exact State.voidTrib_kept _ _ _ (State.setTrib_kept _ _ _ ht)

theorem State.dieReached_kept {r : State} : ∀ s st pos, Kept r s → Kept r (State.dieReached s st pos) := by
  intro s st pos h0
  unfold State.dieReached
  repeat' first
    | with_reducible assumption
    | (extract_lets +onlyGivenNames x; first
      | (refine Kept.cut (x := x) (fun hx => ?_) ?_; (on_goal 1 => clear_value x); (on_goal 2 => subst x))
      | clear_value x)
    | with_reducible apply State.failDie_kept
    | with_reducible apply State.loseStack_kept
    | split
    | with_reducible apply Kept.upd
    | intro _
    | dsimp only

theorem State.countDie_kept {r : State} : ∀ s st pos, Kept r s → Kept r (State.countDie s st pos) := by
  intro s st pos h0
  unfold State.countDie
  repeat' first
    | with_reducible assumption
    | (extract_lets +onlyGivenNames x; first
      | (refine Kept.cut (x := x) (fun hx => ?_) ?_; (on_goal 1 => clear_value x); (on_goal 2 => subst x))
      | clear_value x)
    | with_reducible apply State.dieReached_kept
    | split
    | with_reducible apply Kept.upd
    | intro _
    | dsimp only

theorem State.releaseOld_kept {r : State} : ∀ s t, Kept r s → Kept r (State.releaseOld s t) := by
  intro s t h0
  unfold State.releaseOld
  repeat' first
    | with_reducible assumption
    | (extract_lets +onlyGivenNames x; first
      | (refine Kept.cut (x := x) (fun hx => ?_) ?_; (on_goal 1 => clear_value x); (on_goal 2 => subst x))
      | clear_value x)
    | with_reducible apply State.pushZero_kept
    | with_reducible apply State.setTrib_kept
    | split
    | with_reducible apply Kept.upd
    | with_reducible apply Kept.getD
    | intro _
    | dsimp only

theorem State.takeRebase_kept {r : State} : ∀ s t hi, Kept r s → Kept r (State.takeRebase s t hi) := by
  intro s t hi h0
  unfold State.takeRebase
  repeat' first
    | with_reducible assumption
    | (extract_lets +onlyGivenNames x; first
      | (refine Kept.cut (x := x) (fun hx => ?_) ?_; (on_goal 1 => clear_value x); (on_goal 2 => subst x))
      | clear_value x)
    | with_reducible apply State.setGrid_kept
    | split
    | with_reducible apply Kept.upd
    | with_reducible refine Kept.snd (by assumption) ?_
    | with_reducible refine Kept.fst (by assumption) ?_
    | intro _
    | dsimp only

theorem State.readGrain_kept {r : State} : ∀ s t g unit kind, Kept r s → Kept r (State.readGrain s t g unit kind).2 := by
  intro s t g unit kind h0
  unfold State.readGrain
  repeat' first
    | with_reducible assumption
    | dsimp only
    | with_reducible apply State.foundUncorrectable_kept
    | with_reducible apply State.bump_kept
    | with_reducible apply State.freeB_kept
    | with_reducible apply State.free_kept
    | with_reducible apply State.poisonConsumed_kept
    | split
    | with_reducible apply Kept.upd
    | with_reducible refine Kept.snd (by assumption) ?_
    | with_reducible refine Kept.snd2 (by assumption) ?_
    | with_reducible refine Kept.snd3 (by assumption) ?_
    | with_reducible refine Kept.fst (by assumption) ?_
    | intro _
    | dsimp only

/-! ## Admission -/

theorem State.syncLoads_kept {r : State} : ∀ s p, Kept r s → Kept r (State.syncLoads s p) := by
  intro s p h0
  unfold State.syncLoads
  repeat' first
    | with_reducible assumption
    | (extract_lets +onlyGivenNames x; first
      | (refine Kept.cut (x := x) (fun hx => ?_) ?_; (on_goal 1 => clear_value x); (on_goal 2 => subst x))
      | clear_value x)
    | with_reducible apply State.fset_kept
    | split
    | with_reducible apply Kept.upd
    | intro _
    | dsimp only

theorem State.syncAdmitted_kept {r : State} : ∀ s t, Kept r s → Kept r (State.syncAdmitted s t) := by
  intro s t h0
  unfold State.syncAdmitted
  repeat' first
    | with_reducible assumption
    | (extract_lets +onlyGivenNames x; first
      | (refine Kept.cut (x := x) (fun hx => ?_) ?_; (on_goal 1 => clear_value x); (on_goal 2 => subst x))
      | clear_value x)
    | with_reducible apply State.fset_kept
    | with_reducible apply State.fsetB_kept
    | split
    | with_reducible apply Kept.upd
    | intro _
    | dsimp only

theorem State.endAdmission_kept {r : State} : ∀ s t, Kept r s → Kept r (State.endAdmission s t) := by
  intro s t h0
  unfold State.endAdmission
  repeat' first
    | with_reducible assumption
    | (extract_lets +onlyGivenNames x; first
      | (refine Kept.cut (x := x) (fun hx => ?_) ?_; (on_goal 1 => clear_value x); (on_goal 2 => subst x))
      | clear_value x)
    | with_reducible apply State.syncAdmitted_kept
    | with_reducible apply State.setTrib_kept
    | with_reducible apply State.syncLoads_kept
    | with_reducible apply State.pushZero_kept
    | split
    | with_reducible apply Kept.upd
    | with_reducible apply Kept.getD
    | intro _
    | dsimp only

theorem State.evalDeep_kept {r : State} : ∀ s p t ds, Kept r s → Kept r (State.evalDeep s p t ds).2 := by
  intro s p t ds h0
  unfold State.evalDeep
  repeat' first
    | with_reducible assumption
    | (extract_lets +onlyGivenNames x; first
      | (refine Kept.cut (x := x) (fun hx => ?_) ?_; (on_goal 1 => clear_value x); (on_goal 2 => subst x))
      | clear_value x)
    | dsimp only
    | with_reducible apply State.freeB_kept
    | split
    | with_reducible apply Kept.upd
    | with_reducible refine Kept.snd (by assumption) ?_
    | with_reducible refine Kept.snd2 (by assumption) ?_
    | with_reducible refine Kept.snd3 (by assumption) ?_
    | with_reducible refine Kept.fst (by assumption) ?_
    | intro _
    | dsimp only

theorem State.evalTrib_kept {r : State} : ∀ s p t ds, Kept r s → Kept r (State.evalTrib s p t ds).2 := by
  intro s p t ds h0
  unfold State.evalTrib
  repeat' first
    | with_reducible assumption
    | (extract_lets +onlyGivenNames x; first
      | (refine Kept.cut (x := x) (fun hx => ?_) ?_; (on_goal 1 => clear_value x); (on_goal 2 => subst x))
      | clear_value x)
    | dsimp only
    | with_reducible apply State.evalDeep_kept
    | split
    | with_reducible apply Kept.upd
    | with_reducible refine Kept.snd (by assumption) ?_
    | with_reducible refine Kept.snd2 (by assumption) ?_
    | with_reducible refine Kept.snd3 (by assumption) ?_
    | with_reducible refine Kept.fst (by assumption) ?_
    | intro _
    | dsimp only

/-! ## Slicers -/

theorem State.syncCluster_kept {r : State} : ∀ s c, Kept r s → Kept r (State.syncCluster s c) := by
  intro s c h0
  unfold State.syncCluster
  repeat' first
    | with_reducible assumption
    | (extract_lets +onlyGivenNames x; first
      | (refine Kept.cut (x := x) (fun hx => ?_) ?_; (on_goal 1 => clear_value x); (on_goal 2 => subst x))
      | clear_value x)
    | with_reducible apply State.fset_kept
    | split
    | with_reducible apply Kept.upd
    | intro _
    | dsimp only

/-! ## Windows and device time -/

theorem State.syncWin_kept {r : State} : ∀ s w n, Kept r s → Kept r (State.syncWin s w n) := by
  intro s w n h0
  unfold State.syncWin
  repeat' first
    | with_reducible assumption
    | (extract_lets +onlyGivenNames x; first
      | (refine Kept.cut (x := x) (fun hx => ?_) ?_; (on_goal 1 => clear_value x); (on_goal 2 => subst x))
      | clear_value x)
    | with_reducible apply State.fset_kept
    | split
    | with_reducible apply Kept.upd
    | intro _
    | dsimp only

theorem doWindowOccurrenceEdge_kept {r : State} : ∀ w s, Kept r s → Kept r (doWindowOccurrenceEdge w s) := by
  intro w s h0
  unfold doWindowOccurrenceEdge
  repeat' first
    | with_reducible assumption
    | (extract_lets +onlyGivenNames x; first
      | (refine Kept.cut (x := x) (fun hx => ?_) ?_; (on_goal 1 => clear_value x); (on_goal 2 => subst x))
      | clear_value x)
    | with_reducible apply State.syncWin_kept
    | split
    | with_reducible apply Kept.upd
    | intro _
    | dsimp only

theorem State.passOcc_kept {r : State} : ∀ s w k, Kept r s → Kept r (State.passOcc s w k) := by
  intro s w k h0
  unfold State.passOcc
  repeat' first
    | with_reducible assumption
    | (extract_lets +onlyGivenNames x; first
      | (refine Kept.cut (x := x) (fun hx => ?_) ?_; (on_goal 1 => clear_value x); (on_goal 2 => subst x))
      | clear_value x)
    | with_reducible apply State.syncWin_kept
    | with_reducible apply State.setWin_kept
    | split
    | with_reducible apply Kept.upd
    | intro _
    | dsimp only

theorem State.actionMissed_kept {r : State} : ∀ s w k, Kept r s → Kept r (State.actionMissed s w k) := by
  intro s w k h0
  unfold State.actionMissed
  repeat' first
    | with_reducible assumption
    | (extract_lets +onlyGivenNames x; first
      | (refine Kept.cut (x := x) (fun hx => ?_) ?_; (on_goal 1 => clear_value x); (on_goal 2 => subst x))
      | clear_value x)
    | with_reducible apply State.raiseAt_kept
    | with_reducible apply State.fset_kept
    | split
    | with_reducible apply Kept.upd
    | intro _
    | dsimp only

theorem State.actionFired_kept {r : State} : ∀ s w k, Kept r s → Kept r (State.actionFired s w k) := by
  intro s w k h0
  unfold State.actionFired
  repeat' first
    | with_reducible assumption
    | (extract_lets +onlyGivenNames x; first
      | (refine Kept.cut (x := x) (fun hx => ?_) ?_; (on_goal 1 => clear_value x); (on_goal 2 => subst x))
      | clear_value x)
    | with_reducible apply State.raiseAt_kept
    | split
    | with_reducible apply Kept.upd
    | with_reducible refine Kept.snd (by assumption) ?_
    | with_reducible refine Kept.fst (by assumption) ?_
    | intro _
    | dsimp only

theorem doCalSwap_kept {r : State} : ∀ w s, Kept r s → Kept r (doCalSwap w s) := by
  intro w s h0
  unfold doCalSwap
  repeat' first
    | with_reducible assumption
    | (extract_lets +onlyGivenNames x; first
      | (refine Kept.cut (x := x) (fun hx => ?_) ?_; (on_goal 1 => clear_value x); (on_goal 2 => subst x))
      | clear_value x)
    | with_reducible apply State.passOcc_kept
    | with_reducible apply State.actionMissed_kept
    | with_reducible apply State.actionFired_kept
    | split
    | with_reducible apply Kept.upd
    | intro _
    | dsimp only

theorem State.misalign_kept {r : State} : ∀ s delta, Kept r s → Kept r (State.misalign s delta) := by
  intro s delta h0
  unfold State.misalign
  repeat' first
    | with_reducible assumption
    | with_reducible apply State.forEach_kept
    | with_reducible apply State.round_kept
    | with_reducible apply State.fsetB_kept
    | with_reducible apply State.fset_kept
    | with_reducible apply State.setOutp_kept
    | split
    | with_reducible apply Kept.upd
    | with_reducible refine Kept.snd (by assumption) ?_
    | with_reducible refine Kept.snd2 (by assumption) ?_
    | with_reducible refine Kept.snd3 (by assumption) ?_
    | with_reducible refine Kept.fst (by assumption) ?_
    | intro _
    | dsimp only

theorem State.timeOp_kept {r : State} : ∀ s op force bad at', Kept r s → Kept r (State.timeOp s op force bad at') := by
  intro s op force bad at' h0
  unfold State.timeOp
  repeat' first
    | with_reducible assumption
    | (extract_lets +onlyGivenNames x; first
      | (refine Kept.cut (x := x) (fun hx => ?_) ?_; (on_goal 1 => clear_value x); (on_goal 2 => subst x))
      | clear_value x)
    | with_reducible apply State.fsetB_kept
    | with_reducible apply State.fset_kept
    | split
    | with_reducible apply Kept.upd
    | intro _
    | dsimp only

theorem doTimeSet_kept {r : State} : ∀ force s, Kept r s → Kept r (doTimeSet force s) := by
  intro force s h0
  unfold doTimeSet
  repeat' first
    | with_reducible assumption
    | (extract_lets +onlyGivenNames x; first
      | (refine Kept.cut (x := x) (fun hx => ?_) ?_; (on_goal 1 => clear_value x); (on_goal 2 => subst x))
      | clear_value x)
    | with_reducible apply State.timeOp_kept
    | split
    | with_reducible apply Kept.upd
    | intro _
    | dsimp only

theorem doEvent_kept {r : State} : ∀ w s, Kept r s → Kept r (doEvent w s) := by
  intro w s h0
  unfold doEvent
  repeat' first
    | with_reducible assumption
    | (extract_lets +onlyGivenNames x; first
      | (refine Kept.cut (x := x) (fun hx => ?_) ?_; (on_goal 1 => clear_value x); (on_goal 2 => subst x))
      | clear_value x)
    | with_reducible apply State.raiseAt_kept
    | with_reducible apply State.passOcc_kept
    | with_reducible apply State.actionMissed_kept
    | split
    | with_reducible apply Kept.upd
    | with_reducible refine Kept.snd (by assumption) ?_
    | with_reducible refine Kept.fst (by assumption) ?_
    | intro _
    | dsimp only

theorem doCalSwapPlace_kept {r : State} : ∀ w s, Kept r s → Kept r (doCalSwapPlace w s) := by
  intro w s h0
  unfold doCalSwapPlace
  repeat' first
    | with_reducible assumption
    | (extract_lets +onlyGivenNames x; first
      | (refine Kept.cut (x := x) (fun hx => ?_) ?_; (on_goal 1 => clear_value x); (on_goal 2 => subst x))
      | clear_value x)
    | with_reducible apply State.setWin_kept
    | with_reducible apply State.actionMissed_kept
    | with_reducible apply State.fsetB_kept
    | with_reducible apply State.setLane_kept
    | with_reducible apply State.forEach_kept
    | with_reducible apply State.fset_kept
    | split
    | with_reducible apply Kept.upd
    | intro _
    | dsimp only

theorem State.fireAction_kept {r : State} : ∀ s w code able act, Kept r s → (∀ y0 y1, Kept r y0 → Kept r (act y0 y1)) → Kept r (State.fireAction s w code able act) := by
  intro s w code able act h0 h1
  unfold State.fireAction
  repeat' first
    | with_reducible assumption
    | (extract_lets +onlyGivenNames x; first
      | (refine Kept.cut (x := x) (fun hx => ?_) ?_; (on_goal 1 => clear_value x); (on_goal 2 => subst x))
      | clear_value x)
    | with_reducible apply h1
    | with_reducible apply State.passOcc_kept
    | with_reducible apply State.actionFired_kept
    | with_reducible apply State.actionMissed_kept
    | split
    | with_reducible apply Kept.upd
    | intro _
    | dsimp only

theorem doWindowEnable_kept {r : State} : ∀ m w s, Kept r s → Kept r (doWindowEnable m w s) := by
  intro m w s h0
  unfold doWindowEnable
  repeat' first
    | with_reducible assumption
    | (extract_lets +onlyGivenNames x; first
      | (refine Kept.cut (x := x) (fun hx => ?_) ?_; (on_goal 1 => clear_value x); (on_goal 2 => subst x))
      | clear_value x)
    | with_reducible apply State.access_kept
    | with_reducible apply State.busErr_kept
    | with_reducible apply State.syncWin_kept
    | with_reducible apply State.setWin_kept
    | with_reducible apply State.fsetB_kept
    | split
    | with_reducible apply Kept.upd
    | intro _
    | dsimp only

theorem doTimeStep_kept {r : State} : ∀ force s, Kept r s → Kept r (doTimeStep force s) := by
  intro force s h0
  unfold doTimeStep
  repeat' first
    | with_reducible assumption
    | (extract_lets +onlyGivenNames x; first
      | (refine Kept.cut (x := x) (fun hx => ?_) ?_; (on_goal 1 => clear_value x); (on_goal 2 => subst x))
      | clear_value x)
    | with_reducible apply State.timeOp_kept
    | split
    | with_reducible apply Kept.upd
    | intro _
    | dsimp only

/-! ## Semaphores and cores -/

theorem State.setCoreState_kept {r : State} : ∀ s c v, Kept r s → Kept r (State.setCoreState s c v) := by
  intro s c v h0
  unfold State.setCoreState
  repeat' first
    | with_reducible assumption
    | (extract_lets +onlyGivenNames x; first
      | (refine Kept.cut (x := x) (fun hx => ?_) ?_; (on_goal 1 => clear_value x); (on_goal 2 => subst x))
      | clear_value x)
    | with_reducible apply State.fset_kept
    | split
    | with_reducible apply Kept.upd
    | intro _
    | dsimp only

theorem State.semGrant_kept {r : State} : ∀ s i, Kept r s → Kept r (State.semGrant s i) := by
  intro s i h0
  unfold State.semGrant
  repeat' first
    | with_reducible assumption
    | (extract_lets +onlyGivenNames x; first
      | (refine Kept.cut (x := x) (fun hx => ?_) ?_; (on_goal 1 => clear_value x); (on_goal 2 => subst x))
      | clear_value x)
    | with_reducible apply State.setSem_kept
    | with_reducible apply State.setCoreState_kept
    | with_reducible apply State.setCore_kept
    | split
    | with_reducible apply Kept.upd
    | intro _
    | dsimp only

theorem State.semFree_kept {r : State} : ∀ s h i, Kept r s → Kept r (State.semFree s h i).2 := by
  intro s h i h0
  unfold State.semFree
  repeat' first
    | with_reducible assumption
    | (extract_lets +onlyGivenNames x; first
      | (refine Kept.cut (x := x) (fun hx => ?_) ?_; (on_goal 1 => clear_value x); (on_goal 2 => subst x))
      | clear_value x)
    | dsimp only
    | with_reducible apply State.semGrant_kept
    | with_reducible apply State.setSem_kept
    | split
    | with_reducible apply Kept.upd
    | with_reducible refine Kept.snd (by assumption) ?_
    | with_reducible refine Kept.snd2 (by assumption) ?_
    | with_reducible refine Kept.snd3 (by assumption) ?_
    | with_reducible refine Kept.fst (by assumption) ?_
    | intro _
    | dsimp only

theorem State.fifoReread_kept {r : State} : ∀ s g, Kept r s → Kept r (State.fifoReread s g) := by
  intro s g h0
  unfold State.fifoReread
  repeat' first
    | with_reducible assumption
    | (extract_lets +onlyGivenNames x; first
      | (refine Kept.cut (x := x) (fun hx => ?_) ?_; (on_goal 1 => clear_value x); (on_goal 2 => subst x))
      | clear_value x)
    | with_reducible apply State.setGroup_kept
    | split
    | with_reducible apply Kept.upd
    | intro _
    | dsimp only

theorem State.coreMemLost_kept {r : State} : ∀ s c, Kept r s → Kept r (State.coreMemLost s c) := by
  intro s c h0
  unfold State.coreMemLost
  repeat' first
    | with_reducible assumption
    | (extract_lets +onlyGivenNames x; first
      | (refine Kept.cut (x := x) (fun hx => ?_) ?_; (on_goal 1 => clear_value x); (on_goal 2 => subst x))
      | clear_value x)
    | with_reducible apply State.tfill_kept
    | split
    | with_reducible apply Kept.upd
    | intro _
    | dsimp only

theorem State.semTry_kept {r : State} : ∀ s h i, Kept r s → Kept r (State.semTry s h i).2 := by
  intro s h i h0
  unfold State.semTry
  repeat' first
    | with_reducible assumption
    | (extract_lets +onlyGivenNames x; first
      | (refine Kept.cut (x := x) (fun hx => ?_) ?_; (on_goal 1 => clear_value x); (on_goal 2 => subst x))
      | clear_value x)
    | dsimp only
    | with_reducible apply State.setSem_kept
    | split
    | with_reducible apply Kept.upd
    | with_reducible refine Kept.snd (by assumption) ?_
    | with_reducible refine Kept.snd2 (by assumption) ?_
    | with_reducible refine Kept.snd3 (by assumption) ?_
    | with_reducible refine Kept.fst (by assumption) ?_
    | intro _
    | dsimp only

theorem doSemAcquireRead_kept {r : State} : ∀ p i s, Kept r s → Kept r (doSemAcquireRead p i s) := by
  intro p i s h0
  unfold doSemAcquireRead
  repeat' first
    | with_reducible assumption
    | (extract_lets +onlyGivenNames x; first
      | (refine Kept.cut (x := x) (fun hx => ?_) ?_; (on_goal 1 => clear_value x); (on_goal 2 => subst x))
      | clear_value x)
    | with_reducible apply State.emit_kept
    | with_reducible apply State.semTry_kept
    | split
    | with_reducible apply Kept.upd
    | with_reducible refine Kept.snd (by assumption) ?_
    | with_reducible refine Kept.snd2 (by assumption) ?_
    | with_reducible refine Kept.snd3 (by assumption) ?_
    | with_reducible refine Kept.fst (by assumption) ?_
    | intro _
    | dsimp only

theorem State.countsRestart_kept {r : State} : ∀ s g, Kept r s → Kept r (State.countsRestart s g) := by
  intro s g h0
  unfold State.countsRestart
  repeat' first
    | with_reducible assumption
    | (extract_lets +onlyGivenNames x; first
      | (refine Kept.cut (x := x) (fun hx => ?_) ?_; (on_goal 1 => clear_value x); (on_goal 2 => subst x))
      | clear_value x)
    | with_reducible apply State.forEach_kept
    | with_reducible apply State.setLane_kept
    | with_reducible apply State.setGroup_kept
    | split
    | with_reducible apply Kept.upd
    | with_reducible refine Kept.snd (by assumption) ?_
    | with_reducible refine Kept.fst (by assumption) ?_
    | intro _
    | dsimp only

theorem State.coreRun_kept {r : State} : ∀ s c, Kept r s → Kept r (State.coreRun s c) := by
  intro s c h0
  unfold State.coreRun
  repeat' first
    | with_reducible assumption
    | (extract_lets +onlyGivenNames x; first
      | (refine Kept.cut (x := x) (fun hx => ?_) ?_; (on_goal 1 => clear_value x); (on_goal 2 => subst x))
      | clear_value x)
    | with_reducible apply State.onlyIf_kept
    | with_reducible apply State.setCoreState_kept
    | with_reducible apply State.countsRestart_kept
    | split
    | with_reducible apply Kept.upd
    | with_reducible refine Kept.snd (by assumption) ?_
    | with_reducible refine Kept.fst (by assumption) ?_
    | intro _
    | dsimp only

theorem State.coreStart_kept {r : State} : ∀ s c, Kept r s → Kept r (State.coreStart s c) := by
  intro s c h0
  unfold State.coreStart
  repeat' first
    | with_reducible assumption
    | (extract_lets +onlyGivenNames x; first
      | (refine Kept.cut (x := x) (fun hx => ?_) ?_; (on_goal 1 => clear_value x); (on_goal 2 => subst x))
      | clear_value x)
    | with_reducible apply State.fset_kept
    | with_reducible apply State.fset_kept
    | with_reducible apply State.setCore_kept
    | with_reducible apply State.setCoreState_kept
    | with_reducible apply State.coreRun_kept
    | split
    | with_reducible apply Kept.upd
    | with_reducible refine Kept.snd (by assumption) ?_
    | with_reducible refine Kept.fst (by assumption) ?_
    | intro _
    | dsimp only

theorem doCoreEnable_kept {r : State} : ∀ c s, Kept r s → Kept r (doCoreEnable c s) := by
  intro c s h0
  unfold doCoreEnable
  repeat' first
    | with_reducible assumption
    | (extract_lets +onlyGivenNames x; first
      | (refine Kept.cut (x := x) (fun hx => ?_) ?_; (on_goal 1 => clear_value x); (on_goal 2 => subst x))
      | clear_value x)
    | with_reducible apply State.fsetB_kept
    | with_reducible apply State.coreStart_kept
    | split
    | with_reducible apply Kept.upd
    | intro _
    | dsimp only

theorem State.coreOn_kept {r : State} : ∀ s c, Kept r s → Kept r (State.coreOn s c) := by
  intro s c h0
  unfold State.coreOn
  repeat' first
    | with_reducible assumption
    | (extract_lets +onlyGivenNames x; first
      | (refine Kept.cut (x := x) (fun hx => ?_) ?_; (on_goal 1 => clear_value x); (on_goal 2 => subst x))
      | clear_value x)
    | with_reducible apply State.onlyIf_kept
    | with_reducible apply State.setDom_kept
    | with_reducible apply State.setCoreState_kept
    | with_reducible apply State.coreMemLost_kept
    | with_reducible apply State.coreStart_kept
    | split
    | with_reducible apply Kept.upd
    | with_reducible refine Kept.snd (by assumption) ?_
    | with_reducible refine Kept.fst (by assumption) ?_
    | intro _
    | dsimp only

theorem State.semAbandon_kept {r : State} : ∀ s h, Kept r s → Kept r (State.semAbandon s h) := by
  intro s h h0
  unfold State.semAbandon
  repeat' first
    | with_reducible assumption
    | (extract_lets +onlyGivenNames x; first
      | (refine Kept.cut (x := x) (fun hx => ?_) ?_; (on_goal 1 => clear_value x); (on_goal 2 => subst x))
      | clear_value x)
    | with_reducible apply State.forEach_kept
    | with_reducible apply State.semGrant_kept
    | with_reducible apply State.setSem_kept
    | split
    | with_reducible apply Kept.upd
    | intro _
    | dsimp only

theorem doSemReleaseWrite_kept {r : State} : ∀ p i s, Kept r s → Kept r (doSemReleaseWrite p i s) := by
  intro p i s h0
  unfold doSemReleaseWrite
  repeat' first
    | with_reducible assumption
    | (extract_lets +onlyGivenNames x; first
      | (refine Kept.cut (x := x) (fun hx => ?_) ?_; (on_goal 1 => clear_value x); (on_goal 2 => subst x))
      | clear_value x)
    | with_reducible apply State.semFree_kept
    | with_reducible apply State.fset_kept
    | split
    | with_reducible apply Kept.upd
    | with_reducible refine Kept.snd (by assumption) ?_
    | with_reducible refine Kept.snd2 (by assumption) ?_
    | with_reducible refine Kept.snd3 (by assumption) ?_
    | with_reducible refine Kept.fst (by assumption) ?_
    | intro _
    | dsimp only

/-! ## Tags, stops, capture and playback -/

theorem State.stopRing_kept {r : State} : ∀ s p x2 err, Kept r s → Kept r (State.stopRing s p x2 err) := by
  intro s p x2 err h0
  unfold State.stopRing
  repeat' first
    | with_reducible assumption
    | (extract_lets +onlyGivenNames x; first
      | (refine Kept.cut (x := x) (fun hx => ?_) ?_; (on_goal 1 => clear_value x); (on_goal 2 => subst x))
      | clear_value x)
    | with_reducible apply State.raise_kept
    | with_reducible apply State.fsetB_kept
    | with_reducible apply State.fset_kept
    | with_reducible apply State.setRing_kept
    | split
    | with_reducible apply Kept.upd
    | intro _
    | dsimp only

theorem State.noteLag_kept {r : State} : ∀ s t instant arrival, Kept r s → Kept r (State.noteLag s t instant arrival) := by
  intro s t instant arrival h0
  unfold State.noteLag
  repeat' first
    | with_reducible assumption
    | (extract_lets +onlyGivenNames x; first
      | (refine Kept.cut (x := x) (fun hx => ?_) ?_; (on_goal 1 => clear_value x); (on_goal 2 => subst x))
      | clear_value x)
    | with_reducible apply State.setTrib_kept
    | split
    | with_reducible apply Kept.upd
    | with_reducible refine Kept.snd (by assumption) ?_
    | with_reducible refine Kept.fst (by assumption) ?_
    | intro _
    | dsimp only

theorem State.playData_kept {r : State} : ∀ s p x2 x data poison, Kept r s → Kept r (State.playData s p x2 x data poison) := by
  intro s p x2 x data poison h0
  unfold State.playData
  repeat' first
    | with_reducible assumption
    | (extract_lets +onlyGivenNames x; first
      | (refine Kept.cut (x := x) (fun hx => ?_) ?_; (on_goal 1 => clear_value x); (on_goal 2 => subst x))
      | clear_value x)
    | with_reducible apply State.forEach_kept
    | with_reducible apply State.setTrib_kept
    | with_reducible apply State.bump_kept
    | with_reducible apply State.setRing_kept
    | with_reducible apply State.noteLag_kept
    | split
    | with_reducible apply Kept.upd
    | with_reducible refine Kept.snd (by assumption) ?_
    | with_reducible refine Kept.fst (by assumption) ?_
    | intro _
    | dsimp only

theorem State.dropHost_kept {r : State} : ∀ s p, Kept r s → Kept r (State.dropHost s p) := by
  intro s p h0
  unfold State.dropHost
  repeat' first
    | with_reducible assumption
    | (extract_lets +onlyGivenNames x; first
      | (refine Kept.cut (x := x) (fun hx => ?_) ?_; (on_goal 1 => clear_value x); (on_goal 2 => subst x))
      | clear_value x)
    | with_reducible apply State.forEach_kept
    | with_reducible apply State.setTrib_kept
    | split
    | with_reducible apply Kept.upd
    | intro _
    | dsimp only

theorem State.closeCap_kept {r : State} : ∀ s p x2 status b halted, Kept r s → Kept r (State.closeCap s p x2 status b halted) := by
  intro s p x2 status b halted h0
  unfold State.closeCap
  repeat' first
    | with_reducible assumption
    | (extract_lets +onlyGivenNames x; first
      | (refine Kept.cut (x := x) (fun hx => ?_) ?_; (on_goal 1 => clear_value x); (on_goal 2 => subst x))
      | clear_value x)
    | with_reducible apply State.syncRing_kept
    | with_reducible apply State.setRing_kept
    | with_reducible apply State.pushRecords_kept
    | split
    | with_reducible apply Kept.upd
    | intro _
    | dsimp only

theorem State.openPlay_kept {r : State} : ∀ s p x2 index d, Kept r s → Kept r (State.openPlay s p x2 index d) := by
  intro s p x2 index d h0
  unfold State.openPlay
  repeat' first
    | with_reducible assumption
    | dsimp only
    | with_reducible apply State.syncRing_kept
    | with_reducible apply State.setRing_kept
    | with_reducible apply State.setTrib_kept
    | split
    | with_reducible apply Kept.upd
    | with_reducible apply Kept.getD
    | with_reducible refine Kept.snd (by assumption) ?_
    | with_reducible refine Kept.snd2 (by assumption) ?_
    | with_reducible refine Kept.snd3 (by assumption) ?_
    | with_reducible refine Kept.fst (by assumption) ?_
    | intro _
    | dsimp only

theorem State.holdDesc_kept {r : State} : ∀ s p x2 index d, Kept r s → Kept r (State.holdDesc s p x2 index d) := by
  intro s p x2 index d h0
  unfold State.holdDesc
  repeat' first
    | with_reducible assumption
    | dsimp only
    | with_reducible apply State.openPlay_kept
    | with_reducible apply State.syncRing_kept
    | with_reducible apply State.setRing_kept
    | split
    | with_reducible apply Kept.upd
    | with_reducible refine Kept.snd (by assumption) ?_
    | with_reducible refine Kept.snd2 (by assumption) ?_
    | with_reducible refine Kept.snd3 (by assumption) ?_
    | with_reducible refine Kept.fst (by assumption) ?_
    | intro _
    | dsimp only

theorem State.dropRead_kept {r : State} : ∀ s tag, Kept r s → Kept r (State.dropRead s tag) := by
  intro s tag h0
  unfold State.dropRead
  repeat' first
    | with_reducible assumption
    | (extract_lets +onlyGivenNames x; first
      | (refine Kept.cut (x := x) (fun hx => ?_) ?_; (on_goal 1 => clear_value x); (on_goal 2 => subst x))
      | clear_value x)
    | split
    | with_reducible apply Kept.upd
    | intro _
    | dsimp only

theorem State.msixMsg_kept {r : State} : ∀ s p v, Kept r s → Kept r (State.msixMsg s p v) := by
  intro s p v h0
  unfold State.msixMsg
  repeat' first
    | with_reducible assumption
    | (extract_lets +onlyGivenNames x; first
      | (refine Kept.cut (x := x) (fun hx => ?_) ?_; (on_goal 1 => clear_value x); (on_goal 2 => subst x))
      | clear_value x)
    | with_reducible apply State.setPart_kept
    | with_reducible apply State.perfHit_kept
    | with_reducible apply State.emit_kept
    | split
    | with_reducible apply Kept.upd
    | intro _
    | dsimp only

theorem State.signal_kept {r : State} : ∀ s p v, Kept r s → Kept r (State.signal s p v) := by
  intro s p v h0
  unfold State.signal
  repeat' first
    | with_reducible assumption
    | (extract_lets +onlyGivenNames x; first
      | (refine Kept.cut (x := x) (fun hx => ?_) ?_; (on_goal 1 => clear_value x); (on_goal 2 => subst x))
      | clear_value x)
    | with_reducible apply State.msixMsg_kept
    | with_reducible apply State.forEach_kept
    | with_reducible apply State.setRing_kept
    | split
    | with_reducible apply Kept.upd
    | intro _
    | dsimp only

theorem State.playLost_kept {r : State} : ∀ s p x2 x, Kept r s → Kept r (State.playLost s p x2 x) := by
  intro s p x2 x h0
  unfold State.playLost
  repeat' first
    | with_reducible assumption
    | (extract_lets +onlyGivenNames x; first
      | (refine Kept.cut (x := x) (fun hx => ?_) ?_; (on_goal 1 => clear_value x); (on_goal 2 => subst x))
      | clear_value x)
    | with_reducible apply State.setRing_kept
    | split
    | with_reducible apply Kept.upd
    | intro _
    | dsimp only

theorem State.abandonPlays_kept {r : State} : ∀ s p x2, Kept r s → Kept r (State.abandonPlays s p x2) := by
  intro s p x2 h0
  unfold State.abandonPlays
  repeat' first
    | with_reducible assumption
    | (extract_lets +onlyGivenNames x; first
      | (refine Kept.cut (x := x) (fun hx => ?_) ?_; (on_goal 1 => clear_value x); (on_goal 2 => subst x))
      | clear_value x)
    | with_reducible apply State.setRing_kept
    | with_reducible apply State.forEach_kept
    | with_reducible apply State.setTrib_kept
    | split
    | with_reducible apply Kept.upd
    | intro _
    | dsimp only

/-! ## Accesses of masters -/

theorem State.tblPeek_kept {r : State} : ∀ s x1, Kept r s → Kept r (State.tblPeek s x1).2.2 := by
  intro s x1 h0
  unfold State.tblPeek
  repeat' first
    | with_reducible assumption
    | dsimp only
    | with_reducible apply State.free_kept
    | split
    | with_reducible apply Kept.upd
    | with_reducible refine Kept.snd (by assumption) ?_
    | with_reducible refine Kept.snd2 (by assumption) ?_
    | with_reducible refine Kept.snd3 (by assumption) ?_
    | with_reducible refine Kept.fst (by assumption) ?_
    | intro _
    | dsimp only

theorem State.askHalt_kept {r : State} : ∀ s c, Kept r s → Kept r (State.askHalt s c) := by
  intro s c h0
  unfold State.askHalt
  repeat' first
    | with_reducible assumption
    | (extract_lets +onlyGivenNames x; first
      | (refine Kept.cut (x := x) (fun hx => ?_) ?_; (on_goal 1 => clear_value x); (on_goal 2 => subst x))
      | clear_value x)
    | with_reducible apply State.fsetB_kept
    | with_reducible apply State.setCore_kept
    | split
    | with_reducible apply Kept.upd
    | intro _
    | dsimp only

theorem State.dbgRead_kept {r : State} : ∀ s c csr i, Kept r s → Kept r (State.dbgRead s c csr i).2 := by
  intro s c csr i h0
  unfold State.dbgRead
  repeat' first
    | with_reducible assumption
    | (extract_lets +onlyGivenNames x; first
      | (refine Kept.cut (x := x) (fun hx => ?_) ?_; (on_goal 1 => clear_value x); (on_goal 2 => subst x))
      | clear_value x)
    | dsimp only
    | with_reducible apply State.free_kept
    | split
    | with_reducible apply Kept.upd
    | with_reducible refine Kept.snd (by assumption) ?_
    | with_reducible refine Kept.snd2 (by assumption) ?_
    | with_reducible refine Kept.snd3 (by assumption) ?_
    | with_reducible refine Kept.fst (by assumption) ?_
    | intro _
    | dsimp only

theorem State.askStep_kept {r : State} : ∀ s c, Kept r s → Kept r (State.askStep s c) := by
  intro s c h0
  unfold State.askStep
  repeat' first
    | with_reducible assumption
    | (extract_lets +onlyGivenNames x; first
      | (refine Kept.cut (x := x) (fun hx => ?_) ?_; (on_goal 1 => clear_value x); (on_goal 2 => subst x))
      | clear_value x)
    | with_reducible apply State.setCore_kept
    | split
    | with_reducible apply Kept.upd
    | intro _
    | dsimp only

theorem State.inputChanged_kept {r : State} : ∀ s n, Kept r s → Kept r (State.inputChanged s n) := by
  intro s n h0
  unfold State.inputChanged
  repeat' first
    | with_reducible assumption
    | (extract_lets +onlyGivenNames x; first
      | (refine Kept.cut (x := x) (fun hx => ?_) ?_; (on_goal 1 => clear_value x); (on_goal 2 => subst x))
      | clear_value x)
    | with_reducible apply State.onlyIf_kept
    | with_reducible apply State.stopSoak_kept
    | with_reducible apply State.syncCand_kept
    | with_reducible apply State.lossOfSelected_kept
    | with_reducible apply State.disqualify_kept
    | with_reducible apply State.judgeB_kept
    | with_reducible apply State.followClock_kept
    | split
    | with_reducible apply Kept.upd
    | with_reducible refine Kept.snd (by assumption) ?_
    | with_reducible refine Kept.fst (by assumption) ?_
    | intro _
    | dsimp only

theorem State.dbgWrite_kept {r : State} : ∀ s c csr i v, Kept r s → Kept r (State.dbgWrite s c csr i v) := by
  intro s c csr i v h0
  unfold State.dbgWrite
  repeat' first
    | with_reducible assumption
    | (extract_lets +onlyGivenNames x; first
      | (refine Kept.cut (x := x) (fun hx => ?_) ?_; (on_goal 1 => clear_value x); (on_goal 2 => subst x))
      | clear_value x)
    | with_reducible apply State.setCore_kept
    | split
    | with_reducible apply Kept.upd
    | intro _
    | dsimp only

theorem State.fifoAvail_kept {r : State} : ∀ s g, Kept r s → Kept r (State.fifoAvail s g).2 := by
  intro s g h0
  unfold State.fifoAvail
  repeat' first
    | with_reducible assumption
    | (extract_lets +onlyGivenNames x; first
      | (refine Kept.cut (x := x) (fun hx => ?_) ?_; (on_goal 1 => clear_value x); (on_goal 2 => subst x))
      | clear_value x)
    | dsimp only
    | with_reducible apply State.free_kept
    | split
    | with_reducible apply Kept.upd
    | with_reducible refine Kept.snd (by assumption) ?_
    | with_reducible refine Kept.snd2 (by assumption) ?_
    | with_reducible refine Kept.snd3 (by assumption) ?_
    | with_reducible refine Kept.fst (by assumption) ?_
    | intro _
    | dsimp only

theorem State.coreResume_kept {r : State} : ∀ s c, Kept r s → Kept r (State.coreResume s c) := by
  intro s c h0
  unfold State.coreResume
  repeat' first
    | with_reducible assumption
    | (extract_lets +onlyGivenNames x; first
      | (refine Kept.cut (x := x) (fun hx => ?_) ?_; (on_goal 1 => clear_value x); (on_goal 2 => subst x))
      | clear_value x)
    | with_reducible apply State.fsetB_kept
    | with_reducible apply State.fsetB_kept
    | with_reducible apply State.setCore_kept
    | with_reducible apply State.coreRun_kept
    | split
    | with_reducible apply Kept.upd
    | with_reducible refine Kept.snd (by assumption) ?_
    | with_reducible refine Kept.fst (by assumption) ?_
    | intro _
    | dsimp only

theorem State.dbgCtl_kept {r : State} : ∀ s c v, Kept r s → Kept r (State.dbgCtl s c v) := by
  intro s c v h0
  unfold State.dbgCtl
  repeat' first
    | with_reducible assumption
    | (extract_lets +onlyGivenNames x; first
      | (refine Kept.cut (x := x) (fun hx => ?_) ?_; (on_goal 1 => clear_value x); (on_goal 2 => subst x))
      | clear_value x)
    | with_reducible apply State.fsetB_kept
    | with_reducible apply State.coreResume_kept
    | with_reducible apply State.onlyIf_kept
    | with_reducible apply State.askStep_kept
    | with_reducible apply State.askHalt_kept
    | split
    | with_reducible apply Kept.upd
    | intro _
    | dsimp only

end Sys2Proof.Machine
end

