-- ==== Sys2Proof/Tests/Slice0.lean ====
section
/-! SUPPORT. The tests: for every statement with hypotheses a theorem that shows a state and operands that meet them, clause by clause; an
ill-formed command for every check of wellFormed; instruction words, check sequences and mapping patterns from the spec's tables and worked by hand;
and small checks of single instructions. -/

namespace Sys2Proof.Tests

set_option maxRecDepth 20000
set_option Elab.async false

open Sys2Proof Sys2Proof.Machine

/-- The state after reset with register fields set. -/
def aft (l : List (FRef × Nat)) : State := l.foldl (fun s e => s.fset e.1 e.2) State.reset
/-- The same state with the domains of PWR_DOM_ON given. -/
def on (s : State) (ds : List Nat) : State := ds.foldl (fun s d => s.setDom d true) s
/-- The state at another instant of device time. -/
def at' (s : State) (t : Nat) : State := { s with clock := 5 * t }
/-- The state after elapsed ticks. -/
def late (s : State) (n : Nat) : State := { s with ticks := n }

/-- Group g granted to partition p by the map in force. -/
def owned (s : State) (g p : Nat) : State :=
  let k := BootMapGrp.reg g
  { s with sys := { s.sys with mapInForce := SMap.ins s.sys.mapInForce k ((BootMapGrp.owner g).put (s.mword k) p) } }
/-- An admission of one unit to an Ethernet port. -/
def admOne : Adm := { part := 0, l := 0, dMin := 0, dMax := 0, deep := none, pages := 1, granules := 0, tMin := 1, rate := 1, writes := 1, actTime := 0, waits := [], fromZero := 0, fromZeroG := 0, dests := [{ dest := .eth 2 }], bundleBlank := false, basePage := 0, baseCw := 0 }
/-- A grain held in HBM. -/
def heldOne : BufGrain := { rel := 0, instant := 0, idx := 0, copy := 0, mf := 0, payload := 3, inHbm := true, left := [.eth 2] }

/-- Partition 0 runs and masters the bus; its ring 0 is a command ring of 16 entries with descriptor d at its head, ring 1 its completion
ring. -/
def cmdRing (d : List Byte) : State :=
  (aft [(HostStat.running 0, 1), (HostStat.bme 0, 1), (HostFeatAccept.accept 0 0, 0xFF), (HostRingCfg.en 0 0, 1), (HostRingCfg.sizeExp 0 0, 4),
    (HostRingCfg.cpl 0 0, 1), (HostRingCfg.en 0 1, 1), (HostRingCfg.typ 0 1, 1), (HostRingCfg.sizeExp 0 1, 4)]).setRing 0 0 { descs := [(0, d)] }
/-- A descriptor of 32 bytes. -/
def desc (bs : List Byte) : List Byte := padEntry bs
/-- A state with register fields set. -/
def sets (s : State) (l : List (FRef × Nat)) : State := l.foldl (fun s e => s.fset e.1 e.2) s
/-- A frame with its check sequence. -/
def framed (bs : List Byte) : List Byte := bs ++ leBytes 4 (fcs bs)


/-- A grain that waits for a packet of port 0. -/
def egOne : EgGrain := { dest := .eth 0, rel := 0, instant := 0, idx := 0, payload := 5, cause := 0, ovr := 0, flagged := false, gated := 0, pass := false }
/-- A template of 62 bytes: Ethernet, IPv4, UDP and a VRT prologue with TSI 3, TSF 2. -/
def tmplOne : List Byte :=
  List.replicate 12 0 ++ [0x08, 0x00] ++ [0x45, 0, 0, 0, 0, 0, 0, 0, 64, 17, 0, 0, 10, 0, 0, 1, 10, 0, 0, 2] ++ [0, 1, 0, 2, 0, 0, 0, 0]
    ++ [0x10, 0xE0, 0, 0] ++ [0, 0, 0, 9] ++ List.replicate 12 0


/-- The same state with the domains of the lanes, the slicers and the cascade ports on. -/
def lit (s : State) : State := sets s [(PwrDomOn.on 0, 0xFFFFFFFF), (PwrDomOn.on 1, 0xFFFFFFFF), (PwrDomOn.on 2, 0xFFFFFFFF), (PwrDomOn.on 3, 0xFFFFFFFF)]
/-- An enabled and powered lane n, with these register fields. -/
def laneOf (n : Nat) (l : List (FRef × Nat)) : State := lit (sets (aft [(GrpCfg.en (n / 4), 1), (LaneCfg.en n, 1), (CasCfg.en, 1)]) l)
/-- The symbols of a block of four levels. -/
def syms (h : Hdr) (p : Nat) : List (Fin 4) := (blockSymbols false h (BitVec.ofNat 64 p)).map fun x => Fin.ofNat 4 x
/-- Lane 4g as an enabled Ethernet port of one lane. -/
def ethPort (g : Nat) : State := laneOf (4 * g) [(GrpCfg.mode g, 1), (GrpStat.modeAct g, 1), (LaneEthCfg.maxFrame (4 * g), 1518)]

/-- What CoreReady asks, as a test. -/
def readyB (s : State) (c : Nat) (w : Word) : Bool :=
  decide (s.coreState c = 1 ∧ s.quiet ∧ (s.core c).haltPend = none ∧ (s.core c).stepping = false ∧ (s.core c).trapPend = none ∧
    s.bpHit c (s.core c).pc = false ∧ (s.core c).pc.toNat % 4 = 0 ∧ regionOf c (s.core c).pc = some .instr ∧
    s.tpeekN (memOffset c .instr (s.core c).pc) 4 = some w.toNat ∧ (s.core c).atomRule w = true ∧ s.tflip = [] ∧
    s.fbit (PerfCtl.run 0) = false ∧ s.fbit (PerfVtCfg.en 0) = false ∧ (s.part 0).vtTags = [] ∧ s.feature 0 1 = false)

theorem ready_of {s : State} {c : Nat} {w : Word} (h : readyB s c w = true) : CoreReady s c w := by
  obtain ⟨h1, h2, h3, h4, h5, h6, h7, h8, h9, h10, h11, h12, h13, h14, h15⟩ := of_decide_eq_true h
  exact ⟨h1, h2, h3, h4, h5, h6, h7, h8, h9, h10, h11, h12, h13, h14, h15⟩

/-- Core c runs with word w at its pc, which is p, and the given registers. -/
def coreAt (c p : Nat) (w : Word) (q : CoreSt) : State :=
  ((State.reset.twriteN (memOffset c .instr (BitVec.ofNat 32 p)) (leBytes 4 w.toNat)).setCoreState c 1).setCore c { q with pc := BitVec.ofNat 32 p }

/-- Partition p has an event ring r of 16 entries that takes every kind. -/
def evRing (s : State) (p r : Nat) : State := sets s [(HostRingCfg.en p r, 1), (HostRingCfg.typ p r, 4), (HostRingCfg.sizeExp p r, 4)]

theorem witness_SignalAndClock :
    (∃ (n : Lane) (s : State), s.laneEnabled n = true ∧ s.rawDef n dLos = false) ∧
    (∃ (n : Lane) (s : State), s.laneEnabled n = true ∧ s.rawDef n dLos = true) ∧
    (∃ (g : Group) (s : State), s.laneEnabled (s.clockLane g) = true ∧ s.rawDef (s.clockLane g) dLos = false) ∧
    (∃ (g : Group) (s : State), s.laneEnabled (s.clockLane g) = true ∧ s.rawDef (s.clockLane g) dLos = false) ∧
    (∃ (g : Group) (j : Nat) (s : State), s.fbit (GrpCfg.en g) = true ∧ s.fbit (GrpCfg.clkAuto g) = true ∧ s.rawDef (s.clockLane g) dLos = true ∧ (List.range 4).find? (fun i => s.laneEnabled (4 * g + i) && !s.rawDef (4 * g + i) dLos) = some j) ∧
    (∃ (g : Group) (s : State), s.fbit (GrpCfg.en g) = true ∧ s.fbit (GrpCfg.clkAuto g) = true ∧ (List.range 4).find? (fun i => s.laneEnabled (4 * g + i) && !s.rawDef (4 * g + i) dLos) = none) :=
  ⟨⟨95, laneOf 95 [], by decide +kernel⟩,
   ⟨0, laneOf 0 [(LaneDef.defs 0, 3)], by decide +kernel⟩,
   ⟨5, laneOf 20 [(GrpStat.clkHold 5, 1)], by decide +kernel⟩,
   ⟨0, laneOf 0 [(GrpStat.clkLocked 0, 1)], by decide +kernel⟩,
   ⟨23, 3, laneOf 95 [(GrpCfg.clkAuto 23, 1), (LaneCfg.en 92, 1), (LaneDef.defs 92, 1)], by decide +kernel⟩,
   ⟨23, laneOf 95 [(GrpCfg.clkAuto 23, 1), (LaneDef.defs 95, 1)], by decide +kernel⟩⟩

theorem witness_LaneReceive :
    (∃ (n : Lane) (x : Int) (y : Int) (fill : BitVec 9) (s : State), s.laneEnabled n = true ∧ s.rawDef n dLos = false ∧ s.isClock n = false ∧ (s.fget (LaneRxCfg.lolPpm n) : Int) * 1000 < x.natAbs) ∧
    (∃ (n : Lane) (x : Int) (y : Int) (fill : BitVec 9) (s : State), s.laneEnabled n = true ∧ s.rawDef n dLos = false ∧ s.rawDef n dLol = true ∧ s.isClock n = false ∧ s.acq n < 2 ∧ 2 * (x.natAbs : Int) ≤ (s.fget (LaneRxCfg.lolPpm n) : Int) * 1000 ∧ (s.lane n).slipped = false ∧ 1 ≤ (s.lane n).hunt.freqGood ∧ (n.val < 96 → s.fbit (GrpStat.clkLocked (n.val / 4)) = true)) ∧
    (∃ (n : Lane) (x : Int) (y : Int) (lost : Bool) (fill : BitVec 9) (s : State), s.laneEnabled n = true ∧ s.rawDef n dLos = false ∧ s.isClock n = true) ∧
    (∃ (n : Lane) (fill : Int) (s : State), s.laneEnabled n = true ∧ s.rawDef n dLos = false ∧ s.rawDef n dLol = false ∧ s.fillStill n = false ∧ (fill < 0 ∨ 2 * (s.fget (LaneDskCfg.centre n) : Int) < fill)) ∧
    (∃ (n : Lane) (fill : BitVec 9) (s : State), s.laneEnabled n = true ∧ s.rawDef n dLos = false ∧ s.rawDef n dLol = false ∧ s.fillStill n = false ∧ fill.toNat ≤ 2 * s.fget (LaneDskCfg.centre n)) ∧
    (∃ (n : Lane) (err : Nat) (unc : Nat) (s : State), s.winOver n = some (err, unc)) ∧
    (∃ (n : Lane) (symbols : List (Fin 4)) (arrival : Nat) (s : State), s.laneEnabled n = true ∧ s.rawDef n dLos = false ∧ s.rawDef n dLol = false ∧ s.acq n = 2 ∧ (lineBlock (s.rxNrz n) (symbols.map Fin.val)).1 = .invalid) ∧
    (∃ (n : Lane) (symbols : List (Fin 4)) (arrival : Nat) (s : State), s.laneEnabled n = true ∧ s.rawDef n dLos = false ∧ s.rawDef n dLol = false ∧ s.acq n = 2 ∧ (lineBlock (s.rxNrz n) (symbols.map Fin.val)).1 ≠ .invalid ∧ (s.lane n).hunt.good = 255) ∧
    (∃ (n : Lane) (symbols : List (Fin 4)) (arrival : Nat) (s : State), s.laneEnabled n = true ∧ s.rawDef n dLos = false ∧ s.rawDef n dLol = false ∧ 3 ≤ s.acq n ∧ s.acq n ≤ 6 ∧ (lineBlock (s.rxNrz n) (symbols.map Fin.val)).1 = .invalid ∧ (s.lane n).hunt.winBad = 31) ∧
    (∃ (n : Lane) (eth : Option (Fin 16)) (cw : Nat) (bs : List (Hdr × BitVec 64 × Nat)) (tag : Option (Nat × Nat)) (s : State), s.laneEth n = false ∧ (s.lane n).rx.ready = some (cw, bs, tag) ∧ bs.length = 82) ∧
    (∃ (n : Lane) (f : Nat) (k : Fin 16) (s : State), s.laneEth n = true ∧ s.portOf n = some f ∧ s.portCarries f = true ∧ s.fbit (LaneEthStat.amLockAll f) = true ∧ k ≠ 0) ∧
    (∃ (n : Lane) (arrival : Nat) (oh : List Byte) (s : State), (s.lane n).hunt.ohDone = some oh ∧ s.acq n = 4 ∧ (s.lane n).rx.ready = none ∧ (s.lane n).hunt.blk ≠ 81 ∧ byteAt oh 0 = 0xE4 ∧ byteAt oh 1 = 0x1B ∧ crc16 (oh.take 62) = byteAt oh 62 * 256 + byteAt oh 63 ∧ (s.lane n).hunt.mfGood = 3 ∧ ofBe ((oh.drop 3).take 4) = (s.lane n).hunt.expect) ∧
    (∃ (n : Lane) (b : SlotBlock) (bs : List SlotBlock) (s : State), (s.lane n).rx.slots = b :: bs ∧ (s.tribs.map fun e => (e.2.fab.filter fun x => x.lane == some n.val).length).sum ≤ 20) ∧
    (∃ (n : Lane) (rate : SymRate) (r : Nat) (s : State), n.val < 96 ∧ s.laneEnabled n = true ∧ s.fget (GrpCfg.mode (n.val / 4)) = 2 ∧ s.rawDef n dLos = false ∧ s.isClock n = true ∧ symRateKlf rate = some r) ∧
    (∃ (n : Lane) (s : State), n.val < 96 ∧ s.laneEnabled n = true ∧ s.fget (GrpCfg.mode (n.val / 4)) = 2 ∧ s.rawDef n dLos = false ∧ s.isClock n = true) ∧
    (∃ (n : Lane) (s : State), n.val < 96 ∧ s.laneEnabled n = true ∧ s.fget (GrpCfg.mode (n.val / 4)) = 2 ∧ s.rawDef n dLos = false ∧ s.isClock n = true) ∧
    (∃ (g : Group) (d : Nat) (s : State), (s.group g).retryAt = some d ∧ d ≤ s.ticks ∧ s.fget (GrpCfg.mode g) = 2) :=
  ⟨⟨1, -200001, 5, 5, laneOf 1 [(LaneRxCfg.lolPpm 1, 200)], by decide +kernel⟩,
   ⟨1, -100000, 5, 5, (laneOf 1 [(LaneRxCfg.lolPpm 1, 200), (LaneDef.defs 1, 2), (GrpStat.clkLocked 0, 1)]).setLane 1 { hunt := { freqGood := 1 } }, by decide +kernel⟩,
   ⟨0, 3, -7, true, 5, laneOf 0 [], by decide +kernel⟩,
   ⟨95, -1, laneOf 95 [], by decide +kernel⟩,
   ⟨99, 2, laneOf 99 [(LaneDskCfg.centre 99, 1), (LaneDef.defs 99, 0), (LaneDskStat.fillMin 99, 1), (LaneDskStat.fillMax 99, 1)], by decide +kernel⟩,
   ⟨99, 7, 2, State.reset.setLane 99 { rx := { winDone := some (7, 2) } }, by decide +kernel⟩,
   ⟨0, syms .invalid 0, 0, laneOf 0 [(LaneAcq.state 0, 2)], by decide +kernel⟩,
   ⟨95, syms .data 1, 9, (laneOf 95 [(LaneAcq.state 95, 2), (LaneDef.defs 95, 4)]).setLane 95 { hunt := { good := 255 } }, by decide +kernel⟩,
   ⟨95, syms .invalid 1, 9, (laneOf 95 [(LaneAcq.state 95, 6)]).setLane 95 { hunt := { winBad := 31 } }, by decide +kernel⟩,
   ⟨3, none, 0, List.replicate 82 (Hdr.data, 0, 5), some (0, 7), State.reset.setLane 3 { rx := { ready := some (0, List.replicate 82 (Hdr.data, 0, 5), some (0, 7)) } }, by decide +kernel, by decide +kernel, (by decide +kernel)⟩,
   ⟨4, 4, 15, laneOf 4 [(GrpStat.modeAct 1, 1), (GrpCfg.mode 1, 1), (LaneEthStat.amLockAll 4, 1)], by decide +kernel⟩,
   ⟨3, 9, let b : List Byte := [0xE4, 0x1B, 0, 0, 0, 0, 9] ++ List.replicate 55 0; b ++ [BitVec.ofNat 8 (crc16 b / 256), BitVec.ofNat 8 (crc16 b % 256)], (laneOf 3 [(LaneAcq.state 3, 4), (LaneDef.defs 3, 16)]).setLane 3 { hunt := { ohDone := some ((let b : List Byte := [0xE4, 0x1B, 0, 0, 0, 0, 9] ++ List.replicate 55 0; b ++ [BitVec.ofNat 8 (crc16 b / 256), BitVec.ofNat 8 (crc16 b % 256)])), mfGood := 3, expect := 9 } }, by decide +kernel⟩,
   ⟨3, ⟨0, 0, 0, true, 0, false, 0⟩, [], State.reset.setLane 3 { rx := { slots := [⟨0, 0, 0, true, 0, false, 0⟩] } }, by decide +kernel⟩,
   ⟨0, .b26 false, 3, laneOf 0 [(GrpCfg.mode 0, 2), (GrpStat.modeAct 0, 2)], by decide +kernel⟩,
   ⟨0, laneOf 0 [(GrpCfg.mode 0, 2), (GrpStat.modeAct 0, 2)], by decide +kernel⟩,
   ⟨92, laneOf 92 [(GrpCfg.mode 23, 2), (GrpStat.modeAct 23, 2)], by decide +kernel⟩,
   ⟨23, 10, late (sets (State.reset.setGroup 23 { retryAt := some 10 }) [(GrpCfg.mode 23, 2)]) 10, by decide +kernel⟩⟩

theorem witness_LaneLife :
    (∃ (n : Lane) (s : State), n.val < 96 ∧ s.fbit (LaneCfg.en n) = false ∧ s.fbit (GrpCfg.en (n.val / 4)) = true ∧ s.laneEth n = false) ∧
    (∃ (n : Lane) (s : State), n.val < 96 ∧ s.fbit (LaneCfg.en n) = true ∧ s.fbit (GrpCfg.en (n.val / 4)) = true) ∧
    (∃ (n : Lane) (d : Nat) (s : State), (s.lane n).tx.startAt = some d ∧ d ≤ s.now ∧ s.laneEnabled n = true) ∧
    (∃ (g : SampleG) (n : Nat) (s : State), s.coreRuns (g + 1) = true ∧ (s.group g).sampledAt < s.sampleNo ∧ n ∈ sampledLanes g ∧ s.laneOn n = true) ∧
    (∃ (m : Master) (g : Group) (value : Word) (s : State) (s1 : State), PlainWrite s m (GrpCfg.reg g) value.toNat s1 ∧ s.fbit (GrpCfg.en g) = false ∧ s1.fbit (GrpCfg.en g) = true) ∧
    (∃ (m : Master) (g : Group) (value : Word) (s : State) (s1 : State), PlainWrite s m (GrpCfg.reg g) value.toNat s1 ∧ s.fbit (GrpCfg.en g) = true ∧ s1.fbit (GrpCfg.en g) = false) ∧
    (∃ (g : Group) (s : State), s.domOn (77 + g) = true ∧ s.fbit (GrpCfg.en g) = true) ∧
    (∃ (g : Group) (s : State), s.domOn (77 + g) = false) :=
  ⟨⟨95, aft [(GrpCfg.en 23, 1)], by decide +kernel⟩,
   ⟨0, aft [(GrpCfg.en 0, 1), (LaneCfg.en 0, 1), (LaneDef.defs 0, 31)], by decide +kernel⟩,
   ⟨4, 0, (laneOf 4 []).setLane 4 { tx := { startAt := some 0 } }, by decide +kernel⟩,
   ⟨0, 3, at' (laneOf 3 [(SepStat.state 1, 1), (LaneDef.defs 3, 5)]) (100 * tUs), by decide +kernel⟩,
   ⟨0, 23, 1, aft [(LaneCfg.en 93, 1), (LaneCfg.en 95, 1)], ((aft [(LaneCfg.en 93, 1), (LaneCfg.en 95, 1)]).writeReg 0 (GrpCfg.reg 23) ((aft [(LaneCfg.en 93, 1), (LaneCfg.en 95, 1)]).viewOff 0 (GrpCfg.reg 23)) .plain 1).getD (aft [(LaneCfg.en 93, 1), (LaneCfg.en 95, 1)]), by decide +kernel⟩,
   ⟨0, 23, 0, aft [(LaneCfg.en 93, 1), (GrpCfg.en 23, 1)], ((aft [(LaneCfg.en 93, 1), (GrpCfg.en 23, 1)]).writeReg 0 (GrpCfg.reg 23) ((aft [(LaneCfg.en 93, 1), (GrpCfg.en 23, 1)]).viewOff 0 (GrpCfg.reg 23)) .plain 0).getD (aft [(LaneCfg.en 93, 1), (GrpCfg.en 23, 1)]), by decide +kernel⟩,
   ⟨0, on (aft [(GrpCfg.en 0, 1), (LaneCfg.en 1, 1)]) [77], by decide +kernel⟩,
   ⟨23, State.reset, by decide +kernel⟩⟩

theorem witness_TransmitAndRelease :
    (∃ (n : Lane) (s : State), (s.lane n).tx.running = true ∧ 5120 ≤ (s.lane n).tx.slot ∧ (s.lane n).tx.mfEnd ≤ s.now ∧ s.laneEnabled n = true ∧ (n.val < 96 → s.fget GlbStrap.mode ≠ 1)) ∧
    (∃ (n : Lane) (oh : List Byte) (bs : List SlotBlock) (q : List (List Byte × List SlotBlock)) (s : State), (s.lane n).tx.running = true ∧ 5120 ≤ (s.lane n).tx.slot ∧ (s.lane n).tx.mfEnd ≤ s.now ∧ s.laneEnabled n = true ∧ n.val < 96 ∧ s.fget GlbStrap.mode = 1 ∧ (s.lane n).tx.regenQ = (oh, bs) :: q) ∧
    (∃ (n : Lane) (s : State), (s.lane n).tx.running = true ∧ (s.lane n).tx.slot < 5120 ∧ s.laneEnabled n = true) ∧
    (∃ (x : TribN) (g : InGrain) (gs : List InGrain) (s : State), (s.trib x).fab = g :: gs) ∧
    (∃ (x : TribN) (g : InGrain) (gs : List InGrain) (s : State), (s.trib x).wq = g :: gs ∧ (∀ a, (s.trib x).adm = some a → a.deep = none →
          s.bankBusy (if s.fget (TribCfg.src x) = 2 then 4 else 2) (s.placeLoc x a g.copy (g.instant + s.budgetOf x a g.instant) g.idx) = false)) ∧
    (∃ (x : TribN) (d : Dest) (a : Adm) (e : DestSt) (r0 : Nat) (rel : Nat) (readAt : Nat) (s : State) (s0 : State), (s.trib x).adm = some a ∧ a.dests.find? (fun e => e.dest = d) = some e ∧ s.nextRead x e = some (r0, rel, some readAt, s0) ∧ readAt ≤ s.now ∧ s0.inGap x rel = false ∧ (s0.egressFull d).1 = false ∧ (match d with | .cascade n => s.casQueueFull (n / 2) | .capture r => s.stagingFull x r rel e.nextGrain | _ => false) = false) ∧
    (∃ (x : TribN) (st : Nat) (rel : Nat) (s : State), s.prefetchDue x = some (st, rel) ∧ (s.stagingLocs x rel).any (s.bankBusy 3) = false) :=
  ⟨⟨0, (laneOf 0 []).setLane 0 { tx := { running := true, slot := 5120, seq := 4294967295 } }, by decide +kernel⟩,
   ⟨0, List.replicate 64 0, [⟨0, 0, 0, true, 0, false, 0⟩], [], (laneOf 0 [(GlbStrap.mode, 1)]).setLane 0 { tx := { running := true, slot := 5120, regenQ := [(List.replicate 64 0, [⟨0, 0, 0, true, 0, false, 0⟩])] } }, by decide +kernel⟩,
   ⟨95, (laneOf 95 []).setLane 95 { tx := { running := true, slot := 5119 } }, by decide +kernel⟩,
   ⟨4095, { instant := 5, idx := 0, payload := 7 }, [], State.reset.setTrib 4095 { fab := [{ instant := 5, idx := 0, payload := 7 }], adm := some admOne }, by decide +kernel⟩,
   ⟨0, { instant := 5, idx := 0, payload := 7 }, [], State.reset.setTrib 0 { wq := [{ instant := 5, idx := 0, payload := 7 }] }, by decide +kernel, (by intro a h; cases h)⟩,
   ⟨3, .eth 2, admOne, { dest := .eth 2 }, 100, 100, 100, at' ((aft [(TribPeriodLo.periodLo 3, 65536)]).setTrib 3 { adm := some admOne, grid := some 100 }) 100, (at' ((aft [(TribPeriodLo.periodLo 3, 65536)]).setTrib 3 { adm := some admOne, grid := some 100 }) 100), by decide +kernel⟩,
   ⟨3, 0, 1000, (aft [(TribPeriodLo.periodLo 3, 65536)]).setTrib 3 { adm := some { admOne with deep := some 0 }, held := [{ heldOne with rel := 1000, instant := 1000 }] }, by decide +kernel⟩⟩

theorem witness_TributariesAndCalendars :
    (∃ (x : TribN) (s : State), s.fbit (TribCfg.en x) = false ∧ s.fget (TribCfg.src x) ≠ 1 ∧ s.fget (TribEthCfg.hdrLen x) = 0) ∧
    (∃ (x : TribN) (v : Option Nat) (s : State) (s1 : State), s.fbit (TribCfg.en x) = false ∧ (s.fget (TribCfg.src x) = 1 ∨ s.fget (TribEthCfg.hdrLen x) ≠ 0) ∧ s.treadN (s.tribOwner x) (tmplBase x) (s.fget (TribEthCfg.hdrLen x)) (s.tribLocal x) 7 = (v, s1)) ∧
    (∃ (x : TribN) (s : State), s.fbit (TribCfg.en x) = true) ∧
    (∃ (x : TribN) (st : Nat) (bits : Nat) (k : Nat) (s : State), (s.trib x).defWin = some (st, bits, k) ∧ st + tMs ≤ s.now) ∧
    (∃ (m : Master) (n : Lane) (d : Bool) (b : Bool) (crc : Word) (s : State) (s1 : State), PlainWrite s m (LaneCalCrc.reg n (2 * d.toNat + b.toNat)) crc.toNat s1 ∧ s1.calBusy n d.toNat b.toNat = false) ∧
    (∃ (m : Master) (n : Lane) (d : Bool) (b : Bool) (crc : Word) (s : State) (s1 : State), PlainWrite s m (LaneCalCrc.reg n (2 * d.toNat + b.toNat)) crc.toNat s1 ∧ s1.calBusy n d.toNat b.toNat = true) ∧
    (∃ (n : Lane) (d : Bool) (b : Bool) (res : Nat) (slot : Nat) (s : State) (s1 : State), (s.fget (LaneCalStat.checking n)).testBit (2 * d.toNat + b.toNat) = true ∧ s.checkBank n d.toNat b.toNat = ((res, slot), s1)) ∧
    (∃ (m : Master) (n : Lane) (b : Bool) (s : State) (s1 : State), PlainWrite s m (LaneCalRxCtl.reg n) ((s.rget (LaneCalRxCtl.reg n)).toNat % 2 + 2 * b.toNat) s1) :=
  ⟨⟨4095, State.reset, by decide +kernel⟩,
   ⟨0, some 0, aft [(TribCfg.src 0, 1)], ((aft [(TribCfg.src 0, 1)]).treadN 0 (tmplBase 0) 0 0 7).2, by decide +kernel, by decide +kernel, (by rfl)⟩,
   ⟨0, (aft [(TribCfg.en 0, 1), (TribDef.defs 0, 3)]).setTrib 0 { adm := some admOne, held := [heldOne] }, by decide +kernel⟩,
   ⟨7, 0, 1, 70000, at' (evRing (State.reset.setTrib 7 { defWin := some (0, 1, 70000) }) 0 63) tMs, by decide +kernel⟩,
   ⟨0, 95, true, true, 5, State.reset, ((State.reset).writeReg 0 (LaneCalCrc.reg 95 3) ((State.reset).viewOff 0 (LaneCalCrc.reg 95 3)) .plain 5).getD State.reset, by decide +kernel⟩,
   ⟨0, 99, true, false, 5, State.reset, ((State.reset).writeReg 0 (LaneCalCrc.reg 99 2) ((State.reset).viewOff 0 (LaneCalCrc.reg 99 2)) .plain 5).getD State.reset, by decide +kernel⟩,
   ⟨0, true, false, 2, 8191, aft [(LaneCalStat.checking 0, 4)], (aft [(LaneCalStat.checking 0, 4)]), by decide +kernel⟩,
   ⟨33, 8, true, owned (aft [(LaneCalRxCtl.follow 8, 0)]) 2 1, ((owned (aft [(LaneCalRxCtl.follow 8, 0)]) 2 1).writeReg 33 (LaneCalRxCtl.reg 8) ((owned (aft [(LaneCalRxCtl.follow 8, 0)]) 2 1).viewOff 33 (LaneCalRxCtl.reg 8)) .plain 2).getD State.reset, by decide +kernel⟩⟩

theorem witness_Admission :
    (∃ (p : Part) (r : RingN) (d : List Byte) (ts : List Nat) (res : Nat) (fd : Nat) (small : Nat) (s : State) (s1 : State), s.headCmd p r (· == 1) = some d ∧ badAdmit d = false ∧ s.admTarget p d = some ts ∧ s.evalRequest p (timeOf (leAt d 8 12)) ((leAt d 4 2).testBit 15) ((destList d).map Prod.snd) ts = (res, fd, small, s1)) ∧
    (∃ (p : Part) (r : RingN) (d : List Byte) (ts : List Nat) (s : State), s.headCmd p r (· == 2) = some d ∧ badFlags d = false ∧ badTarget d = false ∧ leAt d 6 2 = 0 ∧ malformed (leAt d 8 12) = false ∧ usedFrom d 20 = false ∧ s.admTarget p d = some ts) ∧
    (∃ (x : TribN) (a : Adm) (s : State), (s.trib x).pend = some a ∧ a.actTime ≤ s.now ∧ (a.waits.any fun q => s.mem.zero.any fun j => j.seq == q) = false ∧ a.voidRow = 0) ∧
    (∃ (x : TribN) (d : Nat) (s : State), (s.trib x).withdrawAt = some d ∧ d ≤ s.now) ∧
    (∃ (seq : Nat) (j : ZeroJob) (s : State), s.mem.zero.find? (fun j => j.seq == seq) = some j ∧ j.endAt ≤ s.now) :=
  ⟨⟨0, 0, desc [1, 0, 0, 0, 0, 0, 0, 0, 0, 0, 0, 0, 0, 0, 0, 0, 0, 0, 0, 0, 0x02, 0x06], [0], 0, (State.evalRequest (sets (cmdRing (desc [1, 0, 0, 0, 0, 0, 0, 0, 0, 0, 0, 0, 0, 0, 0, 0, 0, 0, 0, 0, 0x02, 0x06])) [(PwrDomOn.on 0, 0xFFFFFFFF), (TribCfg.en 0, 1), (TribCfg.src 0, 3), (TribPeriodLo.periodLo 0, 4294967295), (TribLatLo.latLo 0, 65536000), (HostRingCfg.en 0 2, 1), (HostRingCfg.typ 0 2, 2), (HostLink.rate, 5), (HostLink.width, 16)]) 0 0 false [.capture 2] [0]).2.1, (State.evalRequest (sets (cmdRing (desc [1, 0, 0, 0, 0, 0, 0, 0, 0, 0, 0, 0, 0, 0, 0, 0, 0, 0, 0, 0, 0x02, 0x06])) [(PwrDomOn.on 0, 0xFFFFFFFF), (TribCfg.en 0, 1), (TribCfg.src 0, 3), (TribPeriodLo.periodLo 0, 4294967295), (TribLatLo.latLo 0, 65536000), (HostRingCfg.en 0 2, 1), (HostRingCfg.typ 0 2, 2), (HostLink.rate, 5), (HostLink.width, 16)]) 0 0 false [.capture 2] [0]).2.2.1, sets (cmdRing (desc [1, 0, 0, 0, 0, 0, 0, 0, 0, 0, 0, 0, 0, 0, 0, 0, 0, 0, 0, 0, 0x02, 0x06])) [(PwrDomOn.on 0, 0xFFFFFFFF), (TribCfg.en 0, 1), (TribCfg.src 0, 3), (TribPeriodLo.periodLo 0, 4294967295), (TribLatLo.latLo 0, 65536000), (HostRingCfg.en 0 2, 1), (HostRingCfg.typ 0 2, 2), (HostLink.rate, 5), (HostLink.width, 16)], (State.evalRequest (sets (cmdRing (desc [1, 0, 0, 0, 0, 0, 0, 0, 0, 0, 0, 0, 0, 0, 0, 0, 0, 0, 0, 0, 0x02, 0x06])) [(PwrDomOn.on 0, 0xFFFFFFFF), (TribCfg.en 0, 1), (TribCfg.src 0, 3), (TribPeriodLo.periodLo 0, 4294967295), (TribLatLo.latLo 0, 65536000), (HostRingCfg.en 0 2, 1), (HostRingCfg.typ 0 2, 2), (HostLink.rate, 5), (HostLink.width, 16)]) 0 0 false [.capture 2] [0]).2.2.2, by decide +kernel, by decide +kernel, by decide +kernel, Prod.ext (by decide +kernel) rfl⟩,
   ⟨0, 0, desc [2, 1, 0, 0, 0], [0], (cmdRing (desc [2, 1, 0, 0, 0])).setTrib 0 { adm := some admOne }, by decide +kernel⟩,
   ⟨4095, { admOne with actTime := 100, l := 20 }, at' (State.reset.setTrib 4095 { pend := some { admOne with actTime := 100, l := 20 } }) 100, by decide +kernel⟩,
   ⟨0, 100, at' (State.reset.setTrib 0 { adm := some admOne, withdrawAt := some 100, held := [heldOne] }) 100, by decide +kernel⟩,
   ⟨7, { seq := 7, part := 0, pages := 3, endAt := 5 }, at' { State.reset with mem := { zero := [{ seq := 7, part := 0, pages := 3, endAt := 5 }] } } 5, by decide +kernel⟩⟩

theorem witness_EthernetPort :
    (∃ (port : Lane) (f : List Byte) (arrival : Nat) (s : State), s.portCarries port = true ∧ 64 ≤ f.length ∧ f.length ≤ s.fget (LaneEthCfg.maxFrame port) ∧ fcs (f.take (f.length - 4)) = ofLe (f.drop (f.length - 4)) ∧ beAt (f.take (f.length - 4)) 12 2 ≠ 0x8808) ∧
    (∃ (port : Lane) (f : List Byte) (arrival : Nat) (fecBad : Bool) (s : State), s.portCarries port = true ∧ (fecBad = true ∨ fcs (f.take (f.length - 4)) ≠ ofLe (f.drop (f.length - 4)))) ∧
    (∃ (port : Lane) (f : List Byte) (arrival : Nat) (s : State), s.portCarries port = true ∧ 4 ≤ f.length ∧ fcs (f.take (f.length - 4)) = ofLe (f.drop (f.length - 4)) ∧ (f.length < 64 ∨ s.fget (LaneEthCfg.maxFrame port) < f.length)) ∧
    (∃ (port : Lane) (f : List Byte) (arrival : Nat) (s : State), s.portCarries port = true ∧ 64 ≤ f.length ∧ f.length ≤ s.fget (LaneEthCfg.maxFrame port) ∧ fcs (f.take (f.length - 4)) = ofLe (f.drop (f.length - 4)) ∧ beAt (f.take (f.length - 4)) 12 2 = 0x8808) ∧
    (∃ (port : Lane) (n : Nat) (s : State), SMap.find s.tim.esmc port = none ∧ s.esmcMonitors port = [n] ∧ n < 16) ∧
    (∃ (x : TribN) (port : Lane) (gs : List EgGrain) (k : Nat) (v : Nat) (h : VrtHead) (s : State) (s1 : State) (s2 : State), s.duePacket x port = some (gs, k) ∧ s.packetBefore x port gs = false ∧ s.portEnabled port = true ∧ s1 = s.setTrib x { s.trib x with egress := ((s.trib x).egress.filter fun e => e.dest != .eth port) ++
            (((s.trib x).egress.filter fun e => e.dest = .eth port).drop gs.length) } ∧ s1.treadN (s1.tribOwner x) (tmplBase x) (s.fget (TribEthCfg.hdrLen x)) x 7 = (some v, s2) ∧ parseTemplate (leBytes (s.fget (TribEthCfg.hdrLen x)) v) = some h) ∧
    (∃ (port : Lane) (am : Bool) (aligned : Bool) (lf : Bool) (rf : Bool) (s : State), s.portEnabled port = true) :=
  ⟨⟨0, framed (List.replicate 60 0), 0, ethPort 0, by decide +kernel⟩,
   ⟨92, [1, 2, 3, 4], 5, false, ethPort 23, by decide +kernel⟩,
   ⟨92, framed [1], 5, ethPort 23, by decide +kernel⟩,
   ⟨92, framed (List.replicate 12 0 ++ [0x88, 0x08] ++ List.replicate 46 0), 5, ethPort 23, by decide +kernel⟩,
   ⟨0, 6, sets (ethPort 0) [(RefselInCfg.group 7, 1), (RefselInCfg.group 8, 1), (RefselInCfg.group 9, 1), (RefselInCfg.group 10, 1), (RefselInCfg.group 11, 1), (RefselInCfg.group 12, 1), (RefselInCfg.group 13, 1)], by decide +kernel⟩,
   ⟨0, 0, [egOne], 1, ofLe tmplOne, (parseTemplate tmplOne).getD ⟨0, false, 0, 0, false, false, 0, 0, 0⟩, ((sets (ethPort 0) [(TribEthCfg.gpp 0, 1), (TribEthCfg.hdrLen 0, 62)]).setTrib 0 { egress := [egOne] }).twriteN (tmplBase 0) tmplOne, (((sets (ethPort 0) [(TribEthCfg.gpp 0, 1), (TribEthCfg.hdrLen 0, 62)]).setTrib 0 { egress := [egOne] }).twriteN (tmplBase 0) tmplOne).setTrib 0 { egress := [] }, ((((sets (ethPort 0) [(TribEthCfg.gpp 0, 1), (TribEthCfg.hdrLen 0, 62)]).setTrib 0 { egress := [egOne] }).twriteN (tmplBase 0) tmplOne).setTrib 0 { egress := [] }), by decide +kernel⟩,
   ⟨95, true, true, true, true, laneOf 95 [(GrpCfg.mode 23, 1), (GrpStat.modeAct 23, 1), (LaneDef.defs 95, 31)], by decide +kernel⟩⟩

theorem witness_RingCommands :
    (∃ (p : Part) (r : RingN) (d : List Byte) (s : State), s.headCmd p r (· == 0) = some d ∧ badFlags d = false ∧ usedFrom d 4 = false) ∧
    (∃ (p : Part) (r : RingN) (d : List Byte) (lost : Nat) (s : State) (s1 : State), s.headCmd p r (· == 4) = some d ∧ s.feature p 5 = true ∧ badFlags d = false ∧ leAt d 4 4 = 0 ∧ usedFrom d 19 = false ∧ 60 ≤ leAt d 16 2 ∧ leAt d 16 2 ≤ 1514 ∧ leAt d 18 1 < 96 ∧ s.laneOwner (leAt d 18 1) = p ∧ (s.portLanes (leAt d 18 1)).isSome = true ∧ s.frameLimit (leAt d 18 1) 1 = (true, lost, s1) ∧ s.reads.length < 56 ∧ s.freeTags false ≠ []) ∧
    (∃ (p : Part) (r : RingN) (bs : List Byte) (d : List Byte) (i : Nat) (ds : List (Nat × List Byte)) (s : State), (s.ring p r).frame = some bs ∧ (s.ring p r).descs = (i, d) :: ds ∧ (s.ring p r).headBusy = true) ∧
    (∃ (p : Part) (r : RingN) (d : List Byte) (s : State), s.headCmd p r (· == 5) = some d ∧ s.feature p 4 = true ∧ badFlags d = false ∧ usedFrom d 8 = false) ∧
    (∃ (p : Part) (r : RingN) (d : List Byte) (x : Nat) (s : State), s.headCmd p r (· == 6) = some d ∧ badFlags d = false ∧ usedFrom d 6 = false ∧ leAt d 4 2 < 4096 ∧ s.tribDevice p (leAt d 4 2) = some x ∧ s.fbit (TribCfg.en x) = true) ∧
    (∃ (p : Part) (r : RingN) (d : List Byte) (s : State), s.headCmd p r (· == 7) = some d ∧ badFlags d = false ∧ usedFrom d 6 = false ∧ leAt d 4 2 < 96 ∧ s.laneOwner (leAt d 4 2) = p) ∧
    (∃ (p : Part) (r : RingN) (d : List Byte) (s : State), s.headCmd p r (· == 8) = some d ∧ badFlags d = false ∧ usedFrom d 6 = false ∧ leAt d 4 2 < 64 ∧ s.ringIs p (leAt d 4 2) 2 = true) ∧
    (∃ (p : Part) (r : RingN) (d : List Byte) (s : State), s.headCmd p r (fun op => decide (8 < op)) = some d) :=
  ⟨⟨0, 0, desc [0, 1, 5, 0], cmdRing (desc [0, 1, 5, 0]), by decide +kernel⟩,
   ⟨0, 0, desc [4, 0, 0, 0, 0, 0, 0, 0, 0, 0x10, 0, 0, 0, 0, 0, 0, 0xEA, 5, 0], 0, sets (cmdRing (desc [4, 0, 0, 0, 0, 0, 0, 0, 0, 0x10, 0, 0, 0, 0, 0, 0, 0xEA, 5, 0])) [(GrpStat.modeAct 0, 1)], { (sets (cmdRing (desc [4, 0, 0, 0, 0, 0, 0, 0, 0, 0x10, 0, 0, 0, 0, 0, 0, 0xEA, 5, 0])) [(GrpStat.modeAct 0, 1)]) with tim := { frames := [(1, (0, 1, 0))] } }, by decide +kernel⟩,
   ⟨0, 0, [7], desc [4], 0, [], (cmdRing (desc [4])).setRing 0 0 { descs := [(0, (desc [4]))], headBusy := true, frame := some [7] }, by decide +kernel⟩,
   ⟨0, 0, desc [5, 0, 0, 0, 1], cmdRing (desc [5, 0, 0, 0, 1]), by decide +kernel⟩,
   ⟨0, 0, desc [6, 0, 0, 0, 0xFF, 0x0F], 4095, sets (cmdRing (desc [6, 0, 0, 0, 0xFF, 0x0F])) [(TribCfg.en 4095, 1)], by decide +kernel⟩,
   ⟨0, 0, desc [7, 0, 0, 0, 95], cmdRing (desc [7, 0, 0, 0, 95]), by decide +kernel⟩,
   ⟨0, 0, desc [8, 0, 0, 0, 63], sets (cmdRing (desc [8, 0, 0, 0, 63])) [(HostRingCfg.en 0 63, 1), (HostRingCfg.typ 0 63, 2)], by decide +kernel⟩,
   ⟨0, 0, desc [9], cmdRing (desc [9]), by decide +kernel⟩⟩

theorem witness_UrgentAndProtection :
    (∃ (p : Part) (tg : BitVec 12) (x : Nat) (s : State), s.feature p 3 = true ∧ s.tribDevice p tg.toNat = some x ∧ s.fbit (TribCfg.en x) = true) ∧
    (∃ (p : Part) (tg : BitVec 12) (s : State), s.feature p 3 = true ∧ tg.toNat < 96 ∧ s.laneOwner tg.toNat = p) ∧
    (∃ (p : Part) (tg : BitVec 12) (s : State), s.feature p 3 = true ∧ tg.toNat < 64 ∧ s.ringIs p tg.toNat 2 = true) ∧
    (∃ (p : Part) (w : BitVec 64) (whole : Bool) (s : State), s.urgentResult p w.toNat whole ≠ 0) ∧
    (∃ (p : Part) (r : RingN) (d : List Byte) (s : State), s.headCmd p r (· == 3) = some d ∧ badProt d = false ∧ s.feature p 7 = true ∧ (s.protTargets p d).isSome = true) ∧
    (∃ (p : Part) (r : RingN) (d : List Byte) (s : State), s.headCmd p r (· == 3) = some d ∧ (badProt d = true ∨ s.feature p 7 = false ∨ (s.protTargets p d).isSome = false)) ∧
    (∃ (p : Part) (r : RingN) (d : List Byte) (x : Nat) (res : Nat) (s : State) (s1 : State), s.protUnderWay p r = some d ∧ s.coreRuns 28 = true ∧ s.now < (s.ring p r).headSince + 10 * tMs ∧ s.protTargets p d = some [x] ∧ x < 4096 ∧ s.protOne (leAt d 4 1) x = (res, s1)) ∧
    (∃ (p : Part) (r : RingN) (d : List Byte) (s : State), s.protUnderWay p r = some d ∧ (s.ring p r).headSince + 10 * tMs ≤ s.now) :=
  ⟨⟨0, 4095, 4095, sets (cmdRing []) [(TribCfg.en 4095, 1)], by decide +kernel⟩,
   ⟨0, 95, cmdRing [], by decide +kernel⟩,
   ⟨0, 63, sets (cmdRing []) [(HostRingCfg.en 0 63, 1), (HostRingCfg.typ 0 63, 2)], by decide +kernel⟩,
   ⟨15, 1, true, State.reset, by decide +kernel⟩,
   ⟨0, 0, desc [3, 0, 0, 0, 1, 0, 0, 0], cmdRing (desc [3, 0, 0, 0, 1, 0, 0, 0]), by decide +kernel⟩,
   ⟨0, 0, desc [3, 0, 0, 0, 1, 0, 255, 255], cmdRing (desc [3, 0, 0, 0, 1, 0, 255, 255]), by decide +kernel⟩,
   ⟨0, 0, desc [3, 0, 0, 0, 1, 0, 7, 0], 7, 0, (sets (cmdRing (desc [3, 0, 0, 0, 1, 0, 7, 0])) [(SepStat.state 28, 1), (TribCfg.merge 7, 1)]).setRing 0 0 { descs := [(0, (desc [3, 0, 0, 0, 1, 0, 7, 0]))], headBusy := true }, ((sets (cmdRing (desc [3, 0, 0, 0, 1, 0, 7, 0])) [(SepStat.state 28, 1), (TribCfg.merge 7, 1)]).setRing 0 0 { descs := [(0, (desc [3, 0, 0, 0, 1, 0, 7, 0]))], headBusy := true }).fset (ProtMrgCfg.cmd 7) 1, by decide +kernel, by decide +kernel, by decide +kernel, by decide +kernel, by decide +kernel, (by rfl)⟩,
   ⟨0, 0, desc [3, 0, 0, 0, 1, 0, 7, 0], at' ((cmdRing (desc [3, 0, 0, 0, 1, 0, 7, 0])).setRing 0 0 { descs := [(0, (desc [3, 0, 0, 0, 1, 0, 7, 0]))], headBusy := true }) (10 * tMs), by decide +kernel⟩⟩

theorem witness_DescriptorReads :
    (∃ (p : Part) (r : RingN) (len : Nat) (v : Nat) (value : BitVec 64) (s : State), s.fbit (HostRingCfg.en p r) = true ∧ (len = 4 ∨ len = 8) ∧ v = value.toNat % 65536 ∧ (if deviceProducer (s.fget (HostRingCfg.typ p r)) then (s.fget (HostRingStat.devIdx p r) + 65536 - v) % 65536
          else (v + 65536 - s.fget (HostRingStat.devIdx p r)) % 65536) ≤ s.ringSize p r) ∧
    (∃ (p : Part) (r : RingN) (s : State), s.fbit (HostRingCfg.en p r) = true ∧ deviceProducer (s.fget (HostRingCfg.typ p r)) = false ∧ s.fbit (HostRingStat.stopped p r) = false ∧ s.dmaOn p = true ∧ s.fetching p r = 0 ∧ (s.ring p r).early = [] ∧ s.fget (HostRingHidx.hostIdx p r) ≠ s.fget (HostRingStat.devIdx p r) ∧ (s.ring p r).heldCount < 16 ∧ s.opFree p = true ∧ s.reads.length < (if s.fget (HostRingCfg.typ p r) = 0 then 64 else 56) ∧ s.freeTags (s.fget (HostRingCfg.typ p r) == 0) ≠ []) ∧
    (∃ (tag : BitVec 14) (data : List Byte) (x : HostRd) (p : Part) (r : RingN) (s : State), s.reads.find? (fun x => x.tag == tag.toNat) = some x ∧ x.orphan = false ∧ x.part = p ∧ x.ring = r ∧ x.kind = 0 ∧ s.fbit (HostRingCfg.en p r) = true ∧ s.fbit (HostRingStat.stopped p r) = false ∧ s.fget (HostRingCfg.typ p r) ≠ 3 ∧ (s.ring p r).early = [] ∧ x.first = s.fget (HostRingStat.devIdx p r)) ∧
    (∃ (tag : BitVec 14) (x : HostRd) (p : Part) (s : State), s.reads.find? (fun x => x.tag == tag.toNat) = some x ∧ x.part = p ∧ x.issuedAt + ticksOfNs (x.cto * 1000) ≤ s.ticks) ∧
    (∃ (tag : BitVec 14) (e : Nat × Nat × Nat) (s : State), s.quarantine.find? (fun e => e.1 == tag.toNat) = some e ∧ e.2.2 ≤ s.ticks) :=
  ⟨⟨0, 63, 4, 65535, 65535, aft [(HostRingCfg.en 0 63, 1), (HostRingCfg.sizeExp 0 63, 4), (HostRingStat.devIdx 0 63, 65530)], by decide +kernel⟩,
   ⟨0, 0, sets ((cmdRing []).setRing 0 0 {}) [(HostRingHidx.hostIdx 0 0, 1)], by decide +kernel⟩,
   ⟨5, [1], { tag := 5, part := 0, ring := 0, kind := 0, addr := 0, len := 32, issuedAt := 0 }, 0, 0, { cmdRing [] with reads := [({ tag := 5, part := 0, ring := 0, kind := 0, addr := 0, len := 32, issuedAt := 0 })] }, by decide +kernel⟩,
   ⟨0x3FFF, { tag := 0x3FFF, part := 15, ring := 63, kind := 0, addr := 0, len := 32, issuedAt := 0 }, 15, late { State.reset with reads := [({ tag := 0x3FFF, part := 15, ring := 63, kind := 0, addr := 0, len := 32, issuedAt := 0 })] } 156250, by decide +kernel⟩,
   ⟨9, (9, 0, 3), late { State.reset with quarantine := [(9, 0, 3)] } 3, by decide +kernel⟩⟩

theorem witness_EntriesAndInterrupts :
    (∃ (p : Part) (r : RingN) (bs : List Byte) (now : Bool) (es : List (List Byte × Bool)) (s : State), (s.ring p r).waiting = (bs, now) :: es ∧ s.fbit (HostRingCfg.en p r) = true ∧ deviceProducer (s.fget (HostRingCfg.typ p r)) = true ∧ s.fbit (HostRingStat.stopped p r) = false ∧ s.masters p = true ∧ s.fbit PwrStat.lgDone = false ∧ (s.fget (HostRingStat.devIdx p r) + 65536 - s.fget (HostRingHidx.hostIdx p r)) % 65536 < s.ringSize p r) ∧
    (∃ (p : Part) (r : RingN) (s : State), (s.ring p r).unsig ≠ 0 ∧ s.fget (HostRingIrq.count p r) ≠ 0 ∧ (s.ring p r).oldest + ticksOfNs (s.fget (HostRingIrq.holdoffUs p r) * 1000) ≤ s.ticks ∧ s.masters p = true ∧ (s.msixWord p (4 * s.fget (HostRingCfg.vector p r) + 3)).testBit 0 = false) ∧
    (∃ (p : Part) (s : State), (s.part p).d3hot = false) ∧
    (∃ (p : Part) (s : State), (s.part p).d3hot = true) :=
  ⟨⟨0, 63, [0x11, 0], true, [], (sets (cmdRing []) [(HostRingCfg.en 0 63, 1), (HostRingCfg.typ 0 63, 4)]).setRing 0 63 { waiting := [([0x11, 0], true)] }, by decide +kernel⟩,
   ⟨0, 0, ((sets (cmdRing []) [(HostRingIrq.count 0 0, 4)]).setPart 0 { msix := [(3, 0)] }).setRing 0 0 { unsig := 1 }, by decide +kernel⟩,
   ⟨15, State.reset.setPart 15 { msixPending := [2047], msix := [(8191, 0)] }, by decide +kernel⟩,
   ⟨15, (aft [(PwrDomOn.on 0, 8)]).setPart 15 { d3hot := true }, by decide +kernel⟩⟩

theorem witness_PartitionStart :
    (∃ (m : Master) (s : State) (s1 : State), PlainWrite s m (HostCtl.reg (viewPart m)) 1 s1 ∧ (s1.rget (HostFeatAccept.reg (viewPart m) 0)).toNat.testBit 0 = true ∧ (∀ i < 4, s1.rget (HostFeatAccept.reg (viewPart m) i) &&& ~~~(s1.rget (HostFeatOffer.reg (viewPart m) i)) = 0)) ∧
    (∃ (m : Master) (s : State) (s1 : State), PlainWrite s m (HostCtl.reg (viewPart m)) 1 s1 ∧ (s1.rget (HostFeatAccept.reg (viewPart m) 0)).toNat.testBit 0 = false) ∧
    (∃ (m : Master) (s : State) (s1 : State), PlainWrite s m (HostCtl.reg (viewPart m)) 0 s1 ∧ (∀ r < 64, s.fbit (HostRingCfg.en (viewPart m) r) = false ∧ s.fbit (HostRingStat.busy (viewPart m) r) = false)) ∧
    (∃ (m : Master) (r : RingN) (value : Word) (s : State) (s1 : State), PlainWrite s m (HostRingCfg.reg (viewPart m) r) (value.toNat ||| 1) s1 ∧ s.fbit (HostRingCfg.en (viewPart m) r) = false ∧ s1.ringRefused (viewPart m) r = false ∧ s1.fbit (HostRingCfg.en (viewPart m) r) = true) ∧
    (∃ (m : Master) (r : RingN) (value : Word) (s : State) (s1 : State), PlainWrite s m (HostRingCfg.reg (viewPart m) r) (value.toNat / 2 * 2) s1 ∧ s.fbit (HostRingCfg.en (viewPart m) r) = true ∧ (s.fget (HostRingCfg.typ (viewPart m) r) = 4 ∨ s.fget (HostRingCfg.typ (viewPart m) r) = 5)) ∧
    (∃ (m : Master) (r : RingN) (value : Word) (s : State) (s1 : State), PlainWrite s m (HostRingCfg.reg (viewPart m) r) (value.toNat / 2 * 2) s1 ∧ s.fbit (HostRingCfg.en (viewPart m) r) = true ∧ s.fget (HostRingCfg.typ (viewPart m) r) = 0 ∧ (s1.ring (viewPart m) r).headBusy = false) ∧
    (∃ (m : Master) (r : RingN) (value : Word) (s : State) (s1 : State), PlainWrite s m (HostRingCfg.reg (viewPart m) r) (value.toNat / 2 * 2) s1 ∧ s.fbit (HostRingCfg.en (viewPart m) r) = true ∧ s.fget (HostRingCfg.typ (viewPart m) r) = 2) ∧
    (∃ (m : Master) (r : RingN) (value : Word) (s : State) (s1 : State), PlainWrite s m (HostRingCfg.reg (viewPart m) r) (value.toNat / 2 * 2) s1 ∧ s.fbit (HostRingCfg.en (viewPart m) r) = true ∧ s.fget (HostRingCfg.typ (viewPart m) r) = 3) :=
  ⟨⟨32, aft [(HostFeatAccept.accept 0 0, 1)], ((aft [(HostFeatAccept.accept 0 0, 1)]).writeReg 32 (HostCtl.reg 0) ((aft [(HostFeatAccept.accept 0 0, 1)]).viewOff 32 (HostCtl.reg 0)) .plain 1).getD (aft [(HostFeatAccept.accept 0 0, 1)]), by decide +kernel⟩,
   ⟨32, aft [(HostFeatAccept.accept 0 0, 2)], ((aft [(HostFeatAccept.accept 0 0, 2)]).writeReg 32 (HostCtl.reg 0) ((aft [(HostFeatAccept.accept 0 0, 2)]).viewOff 32 (HostCtl.reg 0)) .plain 1).getD (aft [(HostFeatAccept.accept 0 0, 2)]), by decide +kernel⟩,
   ⟨32, aft [(HostStat.running 0, 1), (HostCtl.go 0, 1)], ((aft [(HostStat.running 0, 1), (HostCtl.go 0, 1)]).writeReg 32 (HostCtl.reg 0) ((aft [(HostStat.running 0, 1), (HostCtl.go 0, 1)]).viewOff 32 (HostCtl.reg 0)) .plain 0).getD (aft [(HostStat.running 0, 1), (HostCtl.go 0, 1)]), by decide +kernel⟩,
   ⟨47, 63, 0x6200, aft [(HostStat.running 15, 1)], ((aft [(HostStat.running 15, 1)]).writeReg 47 (HostRingCfg.reg 15 63) ((aft [(HostStat.running 15, 1)]).viewOff 47 (HostRingCfg.reg 15 63)) .plain 0x6201).getD (aft [(HostStat.running 15, 1)]), by decide +kernel⟩,
   ⟨32, 0, 33579521, (aft [(HostStat.running 0, 1), (HostRingCfg.en 0 0, 1), (HostRingCfg.typ 0 0, 4), (HostRingCfg.cpl 0 0, 1)]).setRing 0 0 { waiting := [([1], true)] }, (((aft [(HostStat.running 0, 1), (HostRingCfg.en 0 0, 1), (HostRingCfg.typ 0 0, 4), (HostRingCfg.cpl 0 0, 1)]).setRing 0 0 { waiting := [([1], true)] }).writeReg 32 (HostRingCfg.reg 0 0) (((aft [(HostStat.running 0, 1), (HostRingCfg.en 0 0, 1), (HostRingCfg.typ 0 0, 4), (HostRingCfg.cpl 0 0, 1)]).setRing 0 0 { waiting := [([1], true)] }).viewOff 32 (HostRingCfg.reg 0 0)) .plain 33579520).getD ((aft [(HostStat.running 0, 1), (HostRingCfg.en 0 0, 1), (HostRingCfg.typ 0 0, 4), (HostRingCfg.cpl 0 0, 1)]).setRing 0 0 { waiting := [([1], true)] }), by decide +kernel⟩,
   ⟨32, 0, 33579009, (aft [(HostStat.running 0, 1), (HostRingCfg.en 0 0, 1), (HostRingCfg.typ 0 0, 0), (HostRingCfg.cpl 0 0, 1)]).setRing 0 0 { descs := [(1, [2])], early := [(3, [])] }, (((aft [(HostStat.running 0, 1), (HostRingCfg.en 0 0, 1), (HostRingCfg.typ 0 0, 0), (HostRingCfg.cpl 0 0, 1)]).setRing 0 0 { descs := [(1, [2])], early := [(3, [])] }).writeReg 32 (HostRingCfg.reg 0 0) (((aft [(HostStat.running 0, 1), (HostRingCfg.en 0 0, 1), (HostRingCfg.typ 0 0, 0), (HostRingCfg.cpl 0 0, 1)]).setRing 0 0 { descs := [(1, [2])], early := [(3, [])] }).viewOff 32 (HostRingCfg.reg 0 0)) .plain 33579008).getD ((aft [(HostStat.running 0, 1), (HostRingCfg.en 0 0, 1), (HostRingCfg.typ 0 0, 0), (HostRingCfg.cpl 0 0, 1)]).setRing 0 0 { descs := [(1, [2])], early := [(3, [])] }), by decide +kernel⟩,
   ⟨32, 0, 33579265, (aft [(HostStat.running 0, 1), (HostRingCfg.en 0 0, 1), (HostRingCfg.typ 0 0, 2), (HostRingCfg.cpl 0 0, 1)]).setRing 0 0 { descs := [(1, desc [2])], caps := [{ index := 9, addr := 0, len := 4096, trib := 0, openedAt := 0 }] }, (((aft [(HostStat.running 0, 1), (HostRingCfg.en 0 0, 1), (HostRingCfg.typ 0 0, 2), (HostRingCfg.cpl 0 0, 1)]).setRing 0 0 { descs := [(1, desc [2])], caps := [{ index := 9, addr := 0, len := 4096, trib := 0, openedAt := 0 }] }).writeReg 32 (HostRingCfg.reg 0 0) (((aft [(HostStat.running 0, 1), (HostRingCfg.en 0 0, 1), (HostRingCfg.typ 0 0, 2), (HostRingCfg.cpl 0 0, 1)]).setRing 0 0 { descs := [(1, desc [2])], caps := [{ index := 9, addr := 0, len := 4096, trib := 0, openedAt := 0 }] }).viewOff 32 (HostRingCfg.reg 0 0)) .plain 33579264).getD ((aft [(HostStat.running 0, 1), (HostRingCfg.en 0 0, 1), (HostRingCfg.typ 0 0, 2), (HostRingCfg.cpl 0 0, 1)]).setRing 0 0 { descs := [(1, desc [2])], caps := [{ index := 9, addr := 0, len := 4096, trib := 0, openedAt := 0 }] }), by decide +kernel⟩,
   ⟨32, 0, 33579393, (aft [(HostStat.running 0, 1), (HostRingCfg.en 0 0, 1), (HostRingCfg.typ 0 0, 3), (HostRingCfg.cpl 0 0, 1)]).setRing 0 0 { plays := [{ index := 9, addr := 0, len := 64, trib := 0, instant := 0 }] }, (((aft [(HostStat.running 0, 1), (HostRingCfg.en 0 0, 1), (HostRingCfg.typ 0 0, 3), (HostRingCfg.cpl 0 0, 1)]).setRing 0 0 { plays := [{ index := 9, addr := 0, len := 64, trib := 0, instant := 0 }] }).writeReg 32 (HostRingCfg.reg 0 0) (((aft [(HostStat.running 0, 1), (HostRingCfg.en 0 0, 1), (HostRingCfg.typ 0 0, 3), (HostRingCfg.cpl 0 0, 1)]).setRing 0 0 { plays := [{ index := 9, addr := 0, len := 64, trib := 0, instant := 0 }] }).viewOff 32 (HostRingCfg.reg 0 0)) .plain 33579392).getD ((aft [(HostStat.running 0, 1), (HostRingCfg.en 0 0, 1), (HostRingCfg.typ 0 0, 3), (HostRingCfg.cpl 0 0, 1)]).setRing 0 0 { plays := [{ index := 9, addr := 0, len := 64, trib := 0, instant := 0 }] }), by decide +kernel⟩⟩

theorem witness_CaptureAndPlayback :
    (∃ (x : TribN) (r : RingN) (p : Part) (e0 : EgGrain) (es : List EgGrain) (b : CapBuf) (s : State), s.tribOwner x = p ∧ s.captureUnit x r = e0 :: es ∧ s.ringIs p r 2 = true ∧ s.fbit (HostRingStat.stopped p r) = false ∧ (s.fbit (HostRingCfg.follow p r) = false ∨ s.roleWrites e0.rel = true) ∧ (s.fbit (HostRingCfg.gate p r) = false ∨ (e0 :: es).any EgGrain.pass = true) ∧ s.dmaOn p = true ∧ s.feature p 1 = false ∧ (s.ring p r).caps.find? (fun b => b.trib == s.tribLocal x) = some b ∧ s.takesPoint x (b.rFirst + to16 (b.units * s.unitDur x)) e0.rel = true) ∧
    (∃ (p : Part) (r : RingN) (index : BitVec 16) (b : CapBuf) (s : State), (s.ring p r).caps.find? (fun b => b.index == index.toNat) = some b ∧ b.openedAt + ticksOfNs ((if s.fget (HostRingArg.arg p r) % 65536 = 0 then 1000 else s.fget (HostRingArg.arg p r) % 65536) * 1000) ≤ s.ticks) ∧
    (∃ (p : Part) (r : RingN) (b : PlayBuf) (x : Nat) (s : State), (s.ring p r).plays.find? (fun b => b.status == 0 && decide (b.nextGrain < s.playUnits b)) = some b ∧ s.ringIs p r 3 = true ∧ s.fbit (HostRingStat.stopped p r) = false ∧ s.dmaOn p = true ∧ s.playReadAt p r b b.nextGrain = some x ∧ x ≤ s.now ∧ s.reads.length < 56 ∧ s.freeTags false ≠ []) ∧
    (∃ (p : Part) (r : RingN) (b : PlayBuf) (bs : List PlayBuf) (s : State), (s.ring p r).plays = b :: bs ∧ (b.status ≠ 0 ∨ s.playUnits b ≤ b.nextGrain) ∧ s.reads.any (fun x => x.part == p && x.ring == r && x.kind == 1 && x.buf == b.index && !x.orphan) = false ∧ s.dmaOn p = true) :=
  ⟨⟨4095, 63, 0, { egOne with dest := .capture 63, rel := 500, instant := 100 }, [], { index := 9, addr := 4096, len := 8192, trib := 4095, openedAt := 0, rFirst := 500 }, ((sets (cmdRing []) [(HostRingCfg.en 0 63, 1), (HostRingCfg.typ 0 63, 2), (TribPeriodLo.periodLo 4095, 65536), (HostFeatAccept.accept 0 0, 0xFD)]).setRing 0 63 { caps := [{ index := 9, addr := 4096, len := 8192, trib := 4095, openedAt := 0, rFirst := 500 }] }).setTrib 4095 { egress := [{ egOne with dest := .capture 63, rel := 500, instant := 100 }] }, by decide +kernel⟩,
   ⟨0, 63, 9, { index := 9, addr := 4096, len := 8192, trib := 4095, openedAt := 0 }, late ((sets (cmdRing []) [(HostRingCfg.en 0 63, 1), (HostRingCfg.typ 0 63, 2)]).setRing 0 63 { caps := [{ index := 9, addr := 4096, len := 8192, trib := 4095, openedAt := 0 }], dropped := 3 }) 156250, by decide +kernel⟩,
   ⟨0, 63, { index := 9, addr := 4096, len := 64, trib := 7, instant := 65536 }, 0, ((sets (cmdRing []) [(HostRingCfg.en 0 63, 1), (HostRingCfg.typ 0 63, 3), (TribPeriodLo.periodLo 7, 65536)]).setRing 0 63 { plays := [{ index := 9, addr := 4096, len := 64, trib := 7, instant := 65536 }] }).setTrib 7 { adm := some admOne }, by decide +kernel⟩,
   ⟨0, 63, { index := 9, addr := 4096, len := 64, trib := 7, instant := 65536, nextGrain := 8, done := 8 }, [], (sets (cmdRing []) [(HostRingCfg.en 0 63, 1), (HostRingCfg.typ 0 63, 3), (HostRingCfg.cpl 0 63, 1)]).setRing 0 63 { plays := [{ index := 9, addr := 4096, len := 64, trib := 7, instant := 65536, nextGrain := 8, done := 8 }] }, by decide +kernel⟩⟩

theorem witness_Scrubbing :
    (∃ (up : BitVec 72) (raced : Bool) (a : Nat) (b : Byte) (s : State), s.domOn 5 = true ∧ s.scrubByte s.mem.scrubT.next = some a ∧ s.tstored a = some b ∧ SMap.getD s.tflip a 0 = 0 ∧ popcount (up.toNat % 2 ^ 13) = 1) ∧
    (∃ (cls : Fin 3) (up : BitVec 72) (raced : Bool) (s : State), s.domOn 5 = true ∧ cls ≠ 0 ∧ (cls = 2 ∨ 12288 * 2048 ≤ (s.scrub cls).next ∨ s.bankBusy 6 (blockOfUnit (s.scrub cls).next) = false) ∧ (s.scrub cls).next + 1 < scrubUnits cls) ∧
    (∃ (up : BitVec 72) (s : State), s.domOn 5 = true ∧ 12288 * 2048 ≤ (s.scrub 1).next ∧ s.grainAt (blockOfUnit (s.scrub 1).next) = none ∧ onesIn 72 up.toNat = 1) ∧
    (∃ (die : Die) (s : State), s.domOn 5 = true ∧ s.domOn (45 + (s.scrub 2).next / 2 ^ 26) = true ∧ s.codewordTrib ((s.scrub 2).next / 2 ^ 26) ((s.scrub 2).next % 2 ^ 26) = none ∧ s.deadDies ((s.scrub 2).next / 2 ^ 26) = 0) ∧
    (∃ (cls : Fin 3) (up : BitVec 72) (raced : Bool) (s : State), s.domOn 5 = true ∧ cls ≠ 0 ∧ (s.scrub cls).next + 1 = scrubUnits cls) ∧
    (∃ (cls : Fin 3) (s : State), (s.scrub cls).late = false ∧ (s.scrub cls).targetUs < usOfTicks (s.ticks - (s.scrub cls).startedAt)) ∧
    (∃ (p : Part) (cls : Fin 3) (h : Fin 16) (w : MemWin) (s : State), SMap.find s.mem.wins (memWinKey p cls h) = some w ∧ w.start + tMs ≤ s.now) :=
  ⟨⟨8, true, 0x700000, 0x5A, on ({ State.reset.twriteN 0x700000 [0x5A] with mem := { scrubT := { next := 0x700000, targetUs := 1 } } }) [5, 1], by decide +kernel⟩,
   ⟨1, 0, false, on State.reset [5], by decide +kernel⟩,
   ⟨4, on { State.reset with mem := { scrubB := { next := 25165824, targetUs := 1 } } } [5], by decide +kernel⟩,
   ⟨11, on { State.reset with mem := { scrubD := { next := 67108864, targetUs := 1 } } } [5, 46], by decide +kernel⟩,
   ⟨1, 0, false, late (on { State.reset with mem := { scrubB := { next := 26214399, targetUs := 1 } } } [5]) 100, by decide +kernel⟩,
   ⟨2, late { State.reset with mem := { scrubD := { targetUs := 1 } } } 1000, by decide +kernel⟩,
   ⟨15, 2, 6, { start := 0, count := 1, loc1 := 0, loc0 := 0, unit := 0, kind := 0 }, at' { State.reset with mem := { wins := [(memWinKey 15 2 6, { start := 0, count := 1, loc1 := 0, loc0 := 0, unit := 0, kind := 0 })] } } tMs, by decide +kernel⟩⟩

theorem witness_DiesAndStacks :
    (∃ (st : Stack) (die : Die) (s : State), s.deadDies st = 0) ∧
    (∃ (st : Stack) (die : Die) (s : State), s.deadDies st ≠ 0) ∧
    (∃ (st : Stack) (die : Die) (s : State), s.stackLost st = true) ∧
    (∃ (s : State), s.now / tSec ≠ s.mem.dieInterval) ∧
    (∃ (st : Stack) (die : Die) (n : Nat) (s : State), s.now / tSec ≠ s.mem.dieInterval ∧ s.mem.dieCnt = [(st.val * 12 + die.val, n)] ∧ s.fget MemHbmCfg.dieThr ≤ n ∧ s.deadDies st = 0) :=
  ⟨⟨1, 11, State.reset, by decide +kernel⟩,
   ⟨0, 3, aft [(MemHbmStat.dies0, 8)], by decide +kernel⟩,
   ⟨1, 0, aft [(MemHbmStat.lost1, 1)], by decide +kernel⟩,
   ⟨at' { State.reset with mem := { dieCnt := [(3, 5)] } } tSec, by decide +kernel⟩,
   ⟨1, 11, 2000000, at' { State.reset with mem := { dieCnt := [(23, 2000000)] } } tSec, by decide +kernel⟩⟩

theorem witness_WindowsAndTime :
    (∃ (m : Master) (w : WinN) (s : State), Reached s m (WinCfg.reg w) ∧ s.fbit (WinCfg.en w) = false ∧ s.winBad w = false) ∧
    (∃ (m : Master) (w : WinN) (s : State), Reached s m (WinCfg.reg w) ∧ s.fbit (WinCfg.en w) = false ∧ s.winBad w = true) ∧
    (∃ (w : WinN) (s : State), s.fbit (WinCfg.en w) = true ∧ s.fget (WinCfg.kind w) ≠ 2 ∧ s.winTotal w = none) ∧
    (∃ (w : WinN) (n : Nat) (s : State), s.fbit (WinCfg.en w) = true ∧ s.fget (WinCfg.kind w) ≠ 2 ∧ s.winTotal w = some n) ∧
    (∃ (w : WinN) (k : Nat) (s : State), s.actionDue w 6 = some k ∧ s.dueActions.filter (fun e => firesBefore e (s.occStart w k, w)) = [(s.occStart w k, w.val)] ∧ s.epochFirst (s.occStart w k) = s ∧ s.domOn 3 = true) ∧
    (∃ (w : WinN) (k : Nat) (s : State), s.actionDue w 6 = some k ∧ s.dueActions.filter (fun e => firesBefore e (s.occStart w k, w)) = [(s.occStart w k, w.val)] ∧ s.epochFirst (s.occStart w k) = s ∧ s.domOn 3 = false) ∧
    (∃ (w : WinN) (k : Nat) (s : State), s.actionDue w 1 = some k ∧ s.dueActions.filter (fun e => firesBefore e (s.occStart w k, w)) = [(s.occStart w k, w.val)] ∧ s.epochFirst (s.occStart w k) = s ∧ s.domOn 3 = true ∧ (s.swapLane w).isSome = true ∧ k < (s.winSt w).placed ∧ (s.winSt w).missedOcc ≠ some k) ∧
    (∃ (w : WinN) (k : Nat) (s : State), s.actionDue w 1 = some k ∧ s.dueActions.filter (fun e => firesBefore e (s.occStart w k, w)) = [(s.occStart w k, w.val)] ∧ s.epochFirst (s.occStart w k) = s ∧ (s.winSt w).placed ≤ k ∧ (s.winSt w).missedOcc ≠ some k) ∧
    (∃ (w : WinN) (n : Nat) (s : State), s.fbit (WinCfg.en w) = true ∧ s.fget (WinCfg.kind w) = 2 ∧ s.fget (WinCfg.action w) = 1 ∧ (s.winTotal w = none ∨ (∃ c, s.winTotal w = some c ∧ (s.winSt w).placed < c)) ∧ s.swapLane w = some n ∧ gridTime (s.fget (LaneKlfCfg.txRate n)) (s.firstMfAt n (s.occStart w (s.winSt w).placed) - 16) ≤ s.now ∧ (s.lane n).tx.running = true ∧ (s.lane n).tx.grid + 9 ≤ s.firstMfAt n (s.occStart w (s.winSt w).placed) + 1 ∧ s.domOn 3 = true) ∧
    (∃ (w : WinN) (n : Nat) (s : State), s.fbit (WinCfg.en w) = true ∧ s.fget (WinCfg.kind w) = 2 ∧ s.fget (WinCfg.action w) = 1 ∧ s.winTotal w = none ∧ s.swapLane w = some n ∧ gridTime (s.fget (LaneKlfCfg.txRate n)) (s.firstMfAt n (s.occStart w (s.winSt w).placed) - 16) ≤ s.now ∧ s.firstMfAt n (s.occStart w (s.winSt w).placed) + 1 < (s.lane n).tx.grid + 9) ∧
    (∃ (s : State), s.cas.autoSet = none ∧ s.fbit TimeWrStat.busy = true ∧ s.sys.timeOpSet = false ∧ s.sys.timeOpAt ≤ s.ticks ∧ (s.sys.timeForce = true ∨ s.anyAdmitted = false) ∧ ((∀ w < 256, s.fbit (WinCfg.en w) = false ∨ s.fget (WinCfg.kind w) ≠ 2))) ∧
    (∃ (s : State), s.cas.autoSet = none ∧ s.fbit TimeWrStat.busy = true ∧ s.sys.timeOpSet = true ∧ s.sys.timeOpAt ≤ s.now ∧ (s.sys.timeForce = true ∨ s.anyAdmitted = false) ∧ ((∀ w < 256, s.fbit (WinCfg.en w) = false ∨ s.fget (WinCfg.kind w) ≠ 2))) ∧
    (∃ (s : State), s.cas.autoSet = none ∧ s.fbit TimeWrStat.busy = true ∧ s.sys.timeOpAt ≤ (if s.sys.timeOpSet then s.now else s.ticks) ∧ s.sys.timeForce = false ∧ s.anyAdmitted = true) :=
  ⟨⟨0, 255, on (aft [(WinEnd.endT 255 0, 100), (WinStart.start 255 0, 1)]) [3], by decide +kernel⟩,
   ⟨0, 255, on (aft [(WinEnd.endT 255 0, 1), (WinStart.start 255 0, 1)]) [3], by decide +kernel⟩,
   ⟨255, at' (aft [(WinCfg.en 255, 1), (WinPerLo.perLo 255, 1000), (WinStart.start 255 0, 1), (WinEnd.endT 255 0, 100)]) 50, by decide +kernel⟩,
   ⟨255, 2, at' (aft [(WinCfg.en 255, 1), (WinPerLo.perLo 255, 1000), (WinCount.count 255, 2), (WinStart.start 255 0, 1), (WinEnd.endT 255 0, 100)]) 500, by decide +kernel⟩,
   ⟨0, 0, on (aft [(WinCfg.en 0, 1), (WinCfg.kind 0, 2), (WinCfg.action 0, 6), (WinCfg.target 0, 77)]) [3], by decide +kernel⟩,
   ⟨0, 0, aft [(WinCfg.en 0, 1), (WinCfg.kind 0, 2), (WinCfg.action 0, 6)], by decide +kernel⟩,
   ⟨1, 0, (on (aft [(WinCfg.en 1, 1), (WinCfg.kind 1, 2), (WinCfg.action 1, 1)]) [3]).setWin 1 { placed := 1 }, by decide +kernel⟩,
   ⟨1, 0, aft [(WinCfg.en 1, 1), (WinCfg.kind 1, 2), (WinCfg.action 1, 1)], by decide +kernel⟩,
   ⟨2, 5, at' ((on (aft [(WinCfg.en 2, 1), (WinCfg.kind 2, 2), (WinCfg.action 2, 1), (WinCfg.target 2, 5), (WinPerLo.perLo 2, 5), (WinStart.start 2 0, 4294967295)]) [3]).setLane 5 { tx := { running := true, grid := 0 } }) 4294967295, by decide +kernel, by decide +kernel, by decide +kernel, .inl (by decide +kernel), by decide +kernel⟩,
   ⟨2, 5, at' ((on (aft [(WinCfg.en 2, 1), (WinCfg.kind 2, 2), (WinCfg.action 2, 1), (WinCfg.target 2, 5), (WinPerLo.perLo 2, 5), (WinStart.start 2 0, 4294967295)]) [3]).setLane 5 { tx := { running := true, grid := 100 } }) 4294967295, by decide +kernel⟩,
   ⟨late { aft [(TimeWrStat.busy, 1), (TimeWrCtl.op, 1)] with clock := 500, sys := { timeOpAt := 5, timeOpVal := 18446744073709551615 } } 5, by decide +kernel⟩,
   ⟨at' { aft [(TimeWrStat.busy, 1), (TimeWrCtl.op, 2)] with sys := { timeOpAt := tSec, timeOpSet := true, timeOpVal := 7 * 2 ^ 48 } } (tSec + 3), by decide +kernel⟩,
   ⟨({ aft [(TimeWrStat.busy, 1)] with sys := { timeOpAt := 0 } }).setTrib 9 { adm := some admOne }, by decide +kernel⟩⟩

theorem witness_Slicers :
    (∃ (m : Master) (e : SlcN) (value : Word) (s : State) (s1 : State), PlainWrite s m (SlcCfg.reg e) (value.toNat ||| 1) s1 ∧ s.fbit (SlcCfg.en e) = false ∧ malformed (s.slcAnchorWord e) = false ∧ (s1.fsetB (SlcCfg.en e) false).slcCfgErr e = 0 ∧ s1.fbit (SlcCfg.en e) = true) ∧
    (∃ (m : Master) (e : SlcN) (value : Word) (s : State) (s1 : State), PlainWrite s m (SlcCfg.reg e) (value.toNat ||| 1) s1 ∧ s.fbit (SlcCfg.en e) = false ∧ malformed (s.slcAnchorWord e) = false ∧ (s1.fsetB (SlcCfg.en e) false).slcCfgErr e ≠ 0) ∧
    (∃ (m : Master) (e : SlcN) (value : Word) (s : State) (s1 : State), PlainWrite s m (SlcCfg.reg e) (value.toNat / 2 * 2) s1 ∧ s.fbit (SlcCfg.en e) = true) ∧
    (∃ (m : Master) (e : SlcN) (value : Word) (s : State) (s1 : State), PlainWrite s m (SlcNcoHi.reg e) value.toNat s1) ∧
    (∃ (w : WinN) (k : Nat) (e : Nat) (s : State), s.actionDue w 4 = some k ∧ s.dueActions.filter (fun e => firesBefore e (s.occStart w k, w)) = [(s.occStart w k, w.val)] ∧ s.epochFirst (s.occStart w k) = s ∧ s.domOn 3 = true ∧ s.ncoTarget w = some e ∧ s.fbit (SlcCfg.en e) = true) ∧
    (∃ (w : WinN) (k : Nat) (e : Nat) (s : State), s.actionDue w 4 = some k ∧ s.dueActions.filter (fun e => firesBefore e (s.occStart w k, w)) = [(s.occStart w k, w.val)] ∧ s.epochFirst (s.occStart w k) = s ∧ s.ncoTarget w = some e ∧ s.fbit (SlcCfg.en e) = false) ∧
    (∃ (e : SlcN) (x : SlcIn) (xs : List SlcIn) (s : State), (s.slc e).inq = x :: xs ∧ s.fbit (SlcCfg.en e) = true) ∧
    (∃ (e : SlcN) (x : SlcIn) (xs : List SlcIn) (s : State), (s.slc e).inq = x :: xs ∧ s.fbit (SlcCfg.en e) = true ∧ SMap.getD (s.slc e).part x.tribNo [] = [] ∧ x.idx + 1 ≠ unitGrains (s.tfmt x.tribNo) ∧ (s.slc e).avail = []) ∧
    (∃ (e : SlcN) (u : Nat) (s : State), s.slcOutTrib e = some u ∧ unitInstants (s.tfmt u) ≠ 0 ∧ unitInstants (s.tfmt u) ≤ (s.slc e).outq.length) ∧
    (∃ (m : Master) (e : SlcN) (b : Bool) (crc : Word) (s : State) (s1 : State), PlainWrite s m (SlcCoefCrc.reg e b.toNat) crc.toNat s1) ∧
    (∃ (e : SlcN) (b : Bool) (s : State), (s.fget (SlcStat.checking e)).testBit b.toNat = true ∧ s.coefActive e b.toNat = true) ∧
    (∃ (e : SlcN) (b : Bool) (x : Nat) (s : State) (s1 : State), (s.fget (SlcStat.checking e)).testBit b.toNat = true ∧ s.coefActive e b.toNat = false ∧ s.treadN (s.clusterOwner (e / 16)) (0x600000 + e * 0x200 + b.toNat * 0x100) 256 (s.slcLocal e) 6 = (some x, s1)) ∧
    (∃ (e : SlcN) (b : Bool) (s : State) (s1 : State), (s.fget (SlcStat.checking e)).testBit b.toNat = true ∧ s.coefActive e b.toNat = false ∧ s.treadN (s.clusterOwner (e / 16)) (0x600000 + e * 0x200 + b.toNat * 0x100) 256 (s.slcLocal e) 6 = (none, s1)) ∧
    (∃ (m : Master) (e : SlcN) (b : Bool) (s : State) (s1 : State), (s.fget (SlcStat.committed e)).testBit b.toNat = true ∧ PlainWrite s m (SlcCtl.reg e) b.toNat s1) ∧
    (∃ (m : Master) (e : SlcN) (b : Bool) (s : State), (s.fget (SlcStat.committed e)).testBit b.toNat = false ∧ Reached s m (SlcCtl.reg e)) :=
  ⟨⟨0, 255, 0x11, aft [(TribCfg.en 0, 1), (TribPeriodLo.periodLo 0, 0x40000000), (TribCfg.src 1, 3), (TribCfg.fmt 1, 8), (TribPeriodLo.periodLo 1, 0x80000000), (SlcOut.outTrib 255, 1), (SlcCfg.k 255, 1), (SlcQth0.t0 255, 1), (SlcQth1.t1 255, 1), (SlcQth1.t2 255, 2), (SlcQth2.t3 255, 3), (SlcQth2.t4 255, 4), (SlcQth3.t5 255, 5), (SlcQth3.t6 255, 6), (SlcQth4.t7 255, 8191), (SlcStat.committed 255, 1)], ((aft [(TribCfg.en 0, 1), (TribPeriodLo.periodLo 0, 0x40000000), (TribCfg.src 1, 3), (TribCfg.fmt 1, 8), (TribPeriodLo.periodLo 1, 0x80000000), (SlcOut.outTrib 255, 1), (SlcCfg.k 255, 1), (SlcQth0.t0 255, 1), (SlcQth1.t1 255, 1), (SlcQth1.t2 255, 2), (SlcQth2.t3 255, 3), (SlcQth2.t4 255, 4), (SlcQth3.t5 255, 5), (SlcQth3.t6 255, 6), (SlcQth4.t7 255, 8191), (SlcStat.committed 255, 1)]).writeReg 0 (SlcCfg.reg 255) ((aft [(TribCfg.en 0, 1), (TribPeriodLo.periodLo 0, 0x40000000), (TribCfg.src 1, 3), (TribCfg.fmt 1, 8), (TribPeriodLo.periodLo 1, 0x80000000), (SlcOut.outTrib 255, 1), (SlcCfg.k 255, 1), (SlcQth0.t0 255, 1), (SlcQth1.t1 255, 1), (SlcQth1.t2 255, 2), (SlcQth2.t3 255, 3), (SlcQth2.t4 255, 4), (SlcQth3.t5 255, 5), (SlcQth3.t6 255, 6), (SlcQth4.t7 255, 8191), (SlcStat.committed 255, 1)]).viewOff 0 (SlcCfg.reg 255)) .plain 0x11).getD (aft [(TribCfg.en 0, 1), (TribPeriodLo.periodLo 0, 0x40000000), (TribCfg.src 1, 3), (TribCfg.fmt 1, 8), (TribPeriodLo.periodLo 1, 0x80000000), (SlcOut.outTrib 255, 1), (SlcCfg.k 255, 1), (SlcQth0.t0 255, 1), (SlcQth1.t1 255, 1), (SlcQth1.t2 255, 2), (SlcQth2.t3 255, 3), (SlcQth2.t4 255, 4), (SlcQth3.t5 255, 5), (SlcQth3.t6 255, 6), (SlcQth4.t7 255, 8191), (SlcStat.committed 255, 1)]), by decide +kernel⟩,
   ⟨0, 255, 0x11, State.reset, ((State.reset).writeReg 0 (SlcCfg.reg 255) ((State.reset).viewOff 0 (SlcCfg.reg 255)) .plain 0x11).getD (State.reset), by decide +kernel⟩,
   ⟨0, 255, 1, (aft [(SlcCfg.en 255, 1)]), (((aft [(SlcCfg.en 255, 1)])).writeReg 0 (SlcCfg.reg 255) (((aft [(SlcCfg.en 255, 1)])).viewOff 0 (SlcCfg.reg 255)) .plain 0).getD ((aft [(SlcCfg.en 255, 1)])), by decide +kernel⟩,
   ⟨0, 0, 0x80000005, aft [(SlcNcoLo.wordLo 0, 7)], ((aft [(SlcNcoLo.wordLo 0, 7)]).writeReg 0 (SlcNcoHi.reg 0) ((aft [(SlcNcoLo.wordLo 0, 7)]).viewOff 0 (SlcNcoHi.reg 0)) .plain 0x80000005).getD (aft [(SlcNcoLo.wordLo 0, 7)]), by decide +kernel⟩,
   ⟨3, 0, 0, on (aft [(SlcCfg.en 0, 1), (WinCfg.en 3, 1), (WinCfg.kind 3, 2), (WinCfg.action 3, 4)]) [3], by decide +kernel⟩,
   ⟨3, 0, 0, on (aft [(WinCfg.en 3, 1), (WinCfg.kind 3, 2), (WinCfg.action 3, 4)]) [3], by decide +kernel⟩,
   ⟨255, { tribNo := 3, instant := 5, idx := 0, payload := 7 }, [], (aft [(SlcCfg.en 255, 1)]).setSlc 255 { inq := [{ tribNo := 3, instant := 5, idx := 0, payload := 7 }] }, by decide +kernel⟩,
   ⟨255, { tribNo := 3, instant := 5, idx := 0, payload := 7 }, [], (aft [(SlcCfg.en 255, 1), (TribCfg.fmt 3, 1)]).setSlc 255 { inq := [{ tribNo := 3, instant := 5, idx := 0, payload := 7 }] }, by decide +kernel⟩,
   ⟨0, 0, (aft [(TribCfg.en 0, 1)]).setSlc 0 { outq := [⟨0, 0, 0, true, false, false, false, false⟩, ⟨1, 0, 0, true, false, false, false, false⟩, ⟨2, 0, 0, true, false, false, false, false⟩, ⟨3, 0, 0, true, false, false, false, false⟩, ⟨4, 0, 0, true, false, false, false, false⟩] }, by decide +kernel⟩,
   ⟨0, 0, true, 5, State.reset, ((State.reset).writeReg 0 (SlcCoefCrc.reg 0 1) ((State.reset).viewOff 0 (SlcCoefCrc.reg 0 1)) .plain 5).getD (State.reset), by decide +kernel⟩,
   ⟨0, true, aft [(SlcStat.checking 0, 2), (SlcCfg.en 0, 1), (SlcStat.bankAct 0, 1)], by decide +kernel⟩,
   ⟨0, true, 0, (aft [(SlcStat.checking 0, 2)]).twriteN 0x600100 (List.replicate 256 0), (((aft [(SlcStat.checking 0, 2)]).twriteN 0x600100 (List.replicate 256 0)).treadN (((aft [(SlcStat.checking 0, 2)]).twriteN 0x600100 (List.replicate 256 0)).clusterOwner 0) 0x600100 256 (((aft [(SlcStat.checking 0, 2)]).twriteN 0x600100 (List.replicate 256 0)).slcLocal 0) 6).2, by decide +kernel⟩,
   ⟨0, true, aft [(SlcStat.checking 0, 2)], ((aft [(SlcStat.checking 0, 2)]).treadN ((aft [(SlcStat.checking 0, 2)]).clusterOwner 0) 0x600100 256 ((aft [(SlcStat.checking 0, 2)]).slcLocal 0) 6).2, by decide +kernel⟩,
   ⟨0, 0, true, aft [(SlcStat.committed 0, 2)], ((aft [(SlcStat.committed 0, 2)]).writeReg 0 (SlcCtl.reg 0) ((aft [(SlcStat.committed 0, 2)]).viewOff 0 (SlcCtl.reg 0)) .plain 1).getD (aft [(SlcStat.committed 0, 2)]), by decide +kernel⟩,
   ⟨0, 0, true, State.reset, by decide +kernel⟩⟩

theorem witness_CoresAndSemaphores :
    (∃ (c : CoreN) (s : State), s.fbit (SepCtl.en c) = false ∧ s.coreState c ≠ 6 ∧ s.fbit (SepDbgCtl.haltReq c) = false) ∧
    (∃ (c : CoreN) (s : State), s.fbit (SepCtl.en c) = false ∧ s.coreState c ≠ 6 ∧ s.fbit (SepDbgCtl.haltReq c) = true) ∧
    (∃ (c : CoreN) (s : State), s.fbit (SepCtl.en c) = false ∧ s.coreState c = 6) ∧
    (∃ (c : CoreN) (s : State), s.coreState c ≠ 6) ∧
    (∃ (c : CoreN) (s : State), s.coreState c = 6) ∧
    (∃ (p : Part) (i : SemN) (s : State), s.peeks (32 + p) = true) ∧
    (∃ (p : Part) (i : SemN) (s : State), s.peeks (32 + p) = false) ∧
    (∃ (p : Part) (i : SemN) (value : Word) (s : State), (s.sem i).holder = some (32 + p.val) ∧ s.semPermitted (32 + p) i = true ∧ (s.sem i).waiters = []) ∧
    (∃ (p : Part) (i : SemN) (value : Word) (s : State), ((s.sem i).holder ≠ some (32 + p.val) ∨ s.semPermitted (32 + p) i = false)) ∧
    (∃ (i : SemN) (h : Nat) (hs : List Nat) (rd : Nat) (s : State), (s.sem i).holder = none ∧ (s.sem i).waiters = h :: hs ∧ (s.core h).wait = .lock i rd ∧ rd ≠ 0) :=
  ⟨⟨31, aft [(SepStat.state 31, 0)], by decide +kernel⟩,
   ⟨31, aft [(SepStat.state 31, 0), (SepDbgCtl.haltReq 31, 1)], by decide +kernel⟩,
   ⟨31, aft [(SepStat.state 31, 6)], by decide +kernel⟩,
   ⟨5, aft [(SepCtl.en 5, 1), (SepStat.state 5, 1)], by decide +kernel⟩,
   ⟨5, aft [(SepCtl.en 5, 1), (SepStat.state 5, 6)], by decide +kernel⟩,
   ⟨0, 5, aft [(GlbDebug.peekHost 0, 1)], by decide +kernel⟩,
   ⟨0, 5, ({ State.reset with sys := { mapInForce := [(BootMapSemEn.reg 0, 32)] }, sems := [(5, { abandoned := true })] }), by decide +kernel⟩,
   ⟨0, 5, 0, ({ State.reset with sys := { mapInForce := [(BootMapSemEn.reg 0, 32)] }, sems := [(5, { holder := some 32 })] }), by decide +kernel⟩,
   ⟨0, 5, 0, ({ State.reset with sys := { mapInForce := [(BootMapSemEn.reg 0, 32)] }, sems := [(5, { holder := some 3 })] }), by decide +kernel⟩,
   ⟨5, 3, [4], 2, (({ aft [(SepStat.state 3, 2)] with sems := [(5, { waiters := [3, 4], abandoned := true })] }).setCore 3 { wait := .lock 5 2, pc := 8 }), by decide +kernel⟩⟩

theorem witness_PowerUnits :
    (∃ (u : Byte) (s : State), unitDomains u.toNat ≠ [] ∧ SMap.find s.sys.unitReadyAt u.toNat = none ∧ s.allOff (unitDomains u.toNat) = false ∧ s.offRefusal u.toNat = 0 ∧ s.quiet) ∧
    (∃ (u : Byte) (r : Nat) (s : State), r ≠ 0 ∧ r = (if unitDomains u.toNat = [] then 5 else if (SMap.find s.sys.unitReadyAt u.toNat).isSome = true then 4
          else if s.allOff (unitDomains u.toNat) = true then 0 else s.offRefusal u.toNat)) ∧
    (∃ (u : Byte) (s : State), (u = 48 ∨ u = 49) ∧ SMap.find s.sys.unitReadyAt u.toNat = none ∧ s.allOff (offDomains u.toNat true) = false ∧ s.stackUsed (u.toNat - 48) = false) ∧
    (∃ (u : Byte) (s : State), u ≠ 48 ∧ u ≠ 49) ∧
    (∃ (u : Byte) (s : State), unitDomains u.toNat ≠ [] ∧ SMap.find s.sys.unitReadyAt u.toNat = none ∧ (unitDomains u.toNat).all s.domOn = false ∧ ((u = 48 ∨ u = 49 → s.domOn (41 + (u.toNat - 48)) = true))) ∧
    (∃ (u : Byte) (s : State), (u = 48 ∨ u = 49) ∧ SMap.find s.sys.unitReadyAt u.toNat = none ∧ s.domOn (41 + (u.toNat - 48)) = false) ∧
    (∃ (u : Byte) (s : State), (unitDomains u.toNat = [] ∨ (SMap.find s.sys.unitReadyAt u.toNat).isSome = true)) ∧
    (∃ (u : Byte) (x : Nat) (s : State), SMap.find s.sys.unitReadyAt u.toNat = some x ∧ x ≤ s.ticks) ∧
    (∃ (tj : BitVec 16) (x : TribN) (s : State), (tj.toInt < 0 ∨ 10500 < tj.toInt) ∧ (s.trib x).adm.isSome = true) :=
  ⟨⟨0, on State.reset [53, 118], by decide +kernel⟩,
   ⟨24, 5, State.reset, by decide +kernel⟩,
   ⟨49, on State.reset [44, 46], by decide +kernel⟩,
   ⟨0, State.reset, by decide +kernel⟩,
   ⟨102, State.reset, by decide +kernel⟩,
   ⟨48, State.reset, by decide +kernel⟩,
   ⟨24, State.reset, by decide +kernel⟩,
   ⟨97, 5, late { State.reset with sys := { unitReadyAt := [(97, 5)] } } 5, by decide +kernel⟩,
   ⟨10501, 4095, State.reset.setTrib 4095 { adm := some admOne }, by decide +kernel⟩⟩

theorem witness_PaceAndSupply :
    (∃ (eff : Bool) (force : Bool) (s : State), s.fbit GlbPace.pending = true) ∧
    (∃ (eff : Bool) (force : Bool) (s : State), s.fbit GlbPace.pending = false ∧ s.fget GlbPace.mode = eff.toNat) ∧
    (∃ (force : Bool) (s : State), s.fbit GlbPace.pending = false ∧ s.fget GlbPace.mode = 1) ∧
    (∃ (force : Bool) (s : State), s.fbit GlbPace.pending = false ∧ s.fget GlbPace.mode = 0 ∧ (force = true ∨ (s.fitsEfficient = true ∧ s.mem.zero = []))) ∧
    (∃ (s : State), s.fbit GlbPace.pending = false ∧ s.fget GlbPace.mode = 0 ∧ s.fitsEfficient = false) ∧
    (∃ (w : WinN) (k : Nat) (s : State), s.actionDue w 5 = some k ∧ s.dueActions.filter (fun e => firesBefore e (s.occStart w k, w)) = [(s.occStart w k, w.val)] ∧ s.epochFirst (s.occStart w k) = s ∧ s.domOn 3 = true ∧ s.fbit GlbPace.pending = false ∧ s.fget GlbPace.mode = 1 ∧ s.fget (WinCfg.target w) % 2 = 0) ∧
    (∃ (w : WinN) (k : Nat) (s : State), s.actionDue w 5 = some k ∧ s.dueActions.filter (fun e => firesBefore e (s.occStart w k, w)) = [(s.occStart w k, w.val)] ∧ s.epochFirst (s.occStart w k) = s ∧ s.domOn 3 = false) ∧
    (∃ (mode : Nat) (x : Nat) (s : State), mode ≤ 1 ∧ s.sys.paceTarget = some mode ∧ s.sys.rampEnd = some x ∧ x ≤ s.ticks) ∧
    (∃ (ps : List (BitVec 16)) (seen : List (Nat × Nat)) (s : State), seen = (((ps.map BitVec.toNat).take 24).zipIdx.filter fun e => s.domOn (17 + e.2)) ∧ seen = []) ∧
    (∃ (ps : List (BitVec 16)) (seen : List (Nat × Nat)) (s : State), seen = (((ps.map BitVec.toNat).take 24).zipIdx.filter fun e => s.domOn (17 + e.2)) ∧ seen ≠ []) ∧
    (∃ (ok : Bool) (s : State), s.sys.avsPending.isSome = true) ∧
    (∃ (mv : Nat) (x : Nat) (n : Nat) (s : State), s.sys.avsPending = some (mv, x, n) ∧ x + ticksOfNs 100000 ≤ s.ticks) :=
  ⟨⟨true, true, aft [(GlbPace.pending, 1)], by decide +kernel⟩,
   ⟨true, true, aft [(GlbPace.mode, 1)], by decide +kernel⟩,
   ⟨true, aft [(GlbPace.mode, 1)], by decide +kernel⟩,
   ⟨true, State.reset, by decide +kernel, by decide +kernel, .inl rfl⟩,
   ⟨State.reset.setTrib 9 { adm := some { admOne with rate := 2 ^ 60, dests := [{ dest := .klf 3 }] } }, by decide +kernel⟩,
   ⟨3, 0, on (aft [(WinCfg.en 3, 1), (WinCfg.kind 3, 2), (WinCfg.action 3, 5), (GlbPace.mode, 1)]) [3], by decide +kernel⟩,
   ⟨3, 0, aft [(WinCfg.en 3, 1), (WinCfg.kind 3, 2), (WinCfg.action 3, 5)], by decide +kernel⟩,
   ⟨0, 4, late { aft [(GlbPace.mode, 1), (GlbPace.pending, 1)] with sys := { paceTarget := some 0, rampEnd := some 4 } } 4, by decide +kernel⟩,
   ⟨[1100], [], State.reset, by decide +kernel⟩,
   ⟨[1100, 1921, 7, 1921], [(1100, 0), (1921, 1), (1921, 3)], on State.reset [17, 18, 20], by decide +kernel⟩,
   ⟨false, { State.reset with sys := { avsPending := some (700, 0, 0) } }, by decide +kernel⟩,
   ⟨700, 0, 3, late { State.reset with sys := { avsPending := some (700, 0, 3) } } 15625, by decide +kernel⟩⟩

theorem witness_InputQualification :
    (∃ (n : InputN) (s : State), n.val ≤ 3 ∧ s.fbit (RefselInCfg.en n) = true ∧ s.fbit (RefselInStat.actFault n) = false) ∧
    (∃ (n : InputN) (s : State), n.val ≤ 3 ∧ s.fbit (RefselInStat.actFault n) = true) ∧
    (∃ (n : InputN) (x : Int) (s : State), n.val ≠ 4 ∧ n.val ≠ 5 ∧ n.val ≠ 15 ∧ s.fbit (RefselInCfg.en n) = true) ∧
    (∃ (n : InputN) (x : Int) (s : State), n.val ≠ 4 ∧ n.val ≠ 5 ∧ n.val ≠ 15 ∧ s.fbit (RefselInCfg.en n) = true ∧ s.modeB n = false ∧ s.fbit (RefselInStat.actFault n) = false ∧ s.fbit (RefselInStat.qualified n) = true ∧ 10 * s.fget (RefselInLim.reject n) < x.natAbs) ∧
    (∃ (n : InputN) (x : Int) (s : State), n.val ≠ 4 ∧ n.val ≠ 5 ∧ n.val ≠ 15 ∧ s.fbit (RefselInCfg.en n) = true ∧ s.modeB n = false ∧ s.fbit (RefselInStat.actFault n) = false ∧ x.natAbs ≤ 10 * s.fget (RefselInLim.reject n) ∧ x.natAbs ≤ 10 * s.fget (RefselInLim.accept n)) ∧
    (∃ (n : InputN) (x : Int) (e : Nat) (s : State), (n.val = 4 ∨ n.val = 5) ∧ s.fbit (RefselInCfg.en n) = true ∧ (s.inp n).lastEdge = some e ∧ e + tSec ≤ s.now + tUs ∧ s.sys.stampAt < s.now ∧ s.now + 419430 ≤ e + tSec + tUs) ∧
    (∃ (n : InputN) (x : Int) (s : State), (n.val = 4 ∨ n.val = 5) ∧ s.fbit (RefselInCfg.en n) = true ∧ (s.inp n).lastEdge = none) ∧
    (∃ (n : InputN) (x : Int) (e : Nat) (s : State), (n.val = 4 ∨ n.val = 5) ∧ s.fbit (RefselInCfg.en n) = true ∧ (s.inp n).lastEdge = some e ∧ (s.now + 419430 + tUs ≤ e + tSec ∨ e + tSec + tUs < s.now)) ∧
    (∃ (n : InputN) (s : State), (n.val = 4 ∨ n.val = 5) ∧ s.fbit (RefselInCfg.en n) = true ∧ s.fbit (RefselInStat.actFault n) = false ∧ (∀ e, (s.inp n).lastEdge = some e → e + tSec + tUs < s.now)) ∧
    (∃ (s : State), s.tim.wdogAt + s.fget RefselHost.wdogMs * 156250 ≤ s.ticks ∧ s.fbit (RefselInStat.actFault 15) = false) ∧
    (∃ (n : InputN) (f : Nat) (s : State), (s.inp n).soakFrom = some f ∧ tenthTicks (10 * s.fget (RefselInSoak.qSoak n)) ≤ s.since f ∧ s.fbit (RefselInStat.actFault n) = false ∧ (s.modeB n = true → s.qlOk n = true) ∧ (n.val = 14 → s.casRole = 2)) :=
  ⟨⟨3, aft [(RefselInCfg.en 3, 1), (RefselInStat.actFault 3, 0)], by decide +kernel⟩,
   ⟨0, aft [(RefselInStat.actFault 0, 1)], by decide +kernel⟩,
   ⟨14, -7, aft [(RefselInCfg.en 14, 1)], by decide +kernel⟩,
   ⟨0, -700000, aft [(RefselInCfg.en 0, 1), (RefselInStat.actFault 0, 0), (RefselInStat.qualified 0, 1), (RefselInLim.reject 0, 5), (RefselInSoak.dqSoak 0, 2)], by decide +kernel⟩,
   ⟨0, 3, aft [(RefselInCfg.en 0, 1), (RefselInStat.actFault 0, 0), (RefselInLim.reject 0, 5), (RefselInLim.accept 0, 1)], by decide +kernel⟩,
   ⟨5, 3, 5, at' ({ aft [(RefselInCfg.en 5, 1)] with tim := { ins := [(5, { lastEdge := some 5 })] } }) (5 + tSec), by decide +kernel⟩,
   ⟨5, 3, aft [(RefselInCfg.en 5, 1)], by decide +kernel⟩,
   ⟨5, 3, 5, at' ({ aft [(RefselInCfg.en 5, 1)] with tim := { ins := [(5, { lastEdge := some 5 })] } }) (6 + tSec + tUs), by decide +kernel⟩,
   ⟨4, at' ({ aft [(RefselInCfg.en 4, 1), (RefselInStat.actFault 4, 0)] with tim := { ins := [(4, { lastEdge := some 5 })] } }) (6 + tSec + tUs), by decide +kernel, by decide +kernel, by decide +kernel, (by intro e h; injection h with h; subst h; decide +kernel)⟩,
   ⟨late (aft [(RefselInStat.actFault 15, 0)]) (156250 * 1000), by decide +kernel⟩,
   ⟨2, 0, late ({ aft [(RefselInCfg.en 2, 1), (RefselInStat.actFault 2, 0), (RefselInSoak.qSoak 2, 1)] with tim := { ins := [(2, { soakFrom := some 0 })] } }) 156250000, by decide +kernel⟩⟩

theorem witness_TimingSelection :
    (∃ (s : State), s.coreRuns 27 = true ∧ tenthTicks 1 ≤ s.since s.tim.nextAt) ∧
    (∃ (n : InputN) (s : State), s.coreRuns 27 = true ∧ tenthTicks 1 ≤ s.since s.tim.nextAt ∧ s.forEach (List.range 16) State.syncCand = s ∧ s.fbit RefselCfg.forceFr = false ∧ s.fbit RefselCfg.forceEn = false ∧ s.fbit RefselStat.selValid = false ∧ s.fbit (RefselInStat.candidate n) = true ∧ ((∀ m < 16, m = n.val ∨ s.fbit (RefselInStat.candidate m) = false))) ∧
    (∃ (s : State), s.coreRuns 27 = true ∧ tenthTicks 1 ≤ s.since s.tim.nextAt ∧ s.forEach (List.range 16) State.syncCand = s ∧ s.fbit RefselCfg.forceFr = false ∧ s.fbit RefselCfg.forceEn = false ∧ s.fbit RefselStat.nextValid = false ∧ (∀ m < 16, s.fbit (RefselInStat.candidate m) = false)) ∧
    (∃ (n : Nat) (x : Nat) (s : State), s.coreRuns 27 = true ∧ s.tim.above = some (n, x) ∧ n < 16 ∧ s.fbit RefselCfg.revert = true ∧ s.fbit RefselCfg.forceEn = false ∧ s.fbit RefselCfg.forceFr = false ∧ s.fbit RefselStat.selValid = true ∧ s.fbit (RefselInStat.candidate n) = true ∧ s.ranksAbove n (s.fget RefselStat.sel) = true ∧ tenthTicks (10 * s.fget RefselCfg.wtr) ≤ s.since x) ∧
    (∃ (s : State), s.coreRuns 27 = false) ∧
    (∃ (m : Master) (s : State) (s1 : State), PlainWrite s m RefselCfg.reg ((s.rget RefselCfg.reg).toNat ||| 2 ^ 14) s1) ∧
    (∃ (m : Master) (n : InputN) (s : State) (s1 : State), PlainWrite s m RefselCfg.reg (RefselCfg.forceIn.put (RefselCfg.forceEn.put (s.rget RefselCfg.reg) 1) n).toNat s1 ∧ s1.fbit RefselCfg.forceFr = false ∧ s1.fbit RefselCfg.forceEn = true ∧ s1.fget RefselCfg.forceIn = n.val) ∧
    (∃ (s : State), s.fbit RefselStat.slewing = true ∧ 5000000000 * s.tim.buildOut.natAbs ≤ s.since s.tim.slewFrom * 2097152 * s.fget RefselSlew.slewPpb) ∧
    (∃ (e : Int) (s : State), s.fget RefselStat.state = 1 ∧ s.fget RefselStat.sel ≠ 15 ∧ e.natAbs ≤ 256 * s.fget RefselLock.thrNs ∧ tenthTicks (10 * s.fget RefselLock.lockS) ≤ s.since s.tim.since) ∧
    (∃ (e : Int) (s : State), s.fget RefselStat.state = 2 ∧ s.fget RefselStat.sel ≠ 15 ∧ 1024 * s.fget RefselLock.thrNs < e.natAbs) :=
  ⟨⟨late (aft [(SepStat.state 27, 1)]) 15625000, by decide +kernel⟩,
   ⟨5, late (aft [(SepStat.state 27, 1), (RefselInCfg.en 5, 1), (RefselInCfg.prio 5, 1), (RefselInStat.qualified 5, 1), (RefselInStat.candidate 5, 1)]) 15625000, by decide +kernel⟩,
   ⟨late (aft [(SepStat.state 27, 1), (RefselStat.selValid, 1)]) 15625000, by decide +kernel⟩,
   ⟨0, 0, late ({ aft [(SepStat.state 27, 1), (RefselCfg.revert, 1), (RefselCfg.wtr, 0), (RefselStat.selValid, 1), (RefselStat.sel, 1), (RefselInStat.candidate 0, 1)] with tim := { above := some (0, 0) } }) 156250000, by decide +kernel⟩,
   ⟨State.reset, by decide +kernel⟩,
   ⟨0, State.reset, ((State.reset).writeReg 0 RefselCfg.reg ((State.reset).viewOff 0 RefselCfg.reg) .plain (((State.reset).rget RefselCfg.reg).toNat ||| 2 ^ 14)).getD (State.reset), by decide +kernel⟩,
   ⟨0, 3, aft [(RefselInStat.qualified 3, 1)], ((aft [(RefselInStat.qualified 3, 1)]).writeReg 0 RefselCfg.reg ((aft [(RefselInStat.qualified 3, 1)]).viewOff 0 RefselCfg.reg) .plain (RefselCfg.forceIn.put (RefselCfg.forceEn.put ((aft [(RefselInStat.qualified 3, 1)]).rget RefselCfg.reg) 1) 3).toNat).getD (aft [(RefselInStat.qualified 3, 1)]), by decide +kernel⟩,
   ⟨late ({ aft [(RefselStat.slewing, 1), (RefselSlew.slewPpb, 1000)] with tim := { buildOut := 1 } }) 10000000, by decide +kernel⟩,
   ⟨-5, late (aft [(RefselStat.state, 1), (RefselLock.thrNs, 50)]) (156250000 * 300), by decide +kernel⟩,
   ⟨60000, aft [(RefselStat.state, 2), (RefselLock.thrNs, 50)], by decide +kernel⟩⟩

theorem witness_OscillatorControl :
    (∃ (m : Master) (hi : Byte) (s : State) (s1 : State), PlainWrite s m RefselDcoWrHi.reg hi.toNat s1 ∧ s1.fbit (RefselInStat.actFault 15) = false ∧ s1.fbit RefselStat.selValid = true ∧ s1.fget RefselStat.sel = 15) ∧
    (∃ (m : Master) (hi : Byte) (s : State) (s1 : State), PlainWrite s m RefselDcoWrHi.reg (2 ^ 31 + hi.toNat) s1 ∧ s1.fbit (RefselInStat.actFault 15) = false ∧ s1.fbit RefselStat.selValid = true ∧ s1.fget RefselStat.sel = 15 ∧ s1.tim.dNext = none) ∧
    (∃ (m : Master) (hi : Byte) (s : State) (s1 : State), PlainWrite s m RefselDcoWrHi.reg hi.toNat s1 ∧ s1.fbit (RefselInStat.actFault 15) = false ∧ (s1.fbit RefselStat.selValid = false ∨ s1.fget RefselStat.sel ≠ 15)) ∧
    (∃ (d : Int) (x : Nat) (s : State), s.tim.dNext = some (d, x) ∧ x ≤ s.now) ∧
    (∃ (s : State), s.tim.dNext = none ∧ s.loopDrives = true) ∧
    (∃ (s : State), s.fget RefselStat.state = 2 ∧ tenthTicks 10 ≤ s.since s.tim.sampleAt) ∧
    (∃ (m : Master) (value : Word) (s : State) (s1 : State), PlainWrite s m RefselHist.reg value.toNat s1) ∧
    (∃ (s : State), (s.fget RefselStat.state = 3 ∨ s.fget RefselStat.state = 4) ∧ s.tim.predict = true ∧ tenthTicks 1 ≤ s.since s.tim.hoLast) :=
  ⟨⟨0, 255, aft [(RefselStat.selValid, 1), (RefselStat.sel, 15), (RefselInStat.actFault 15, 0)], ((aft [(RefselStat.selValid, 1), (RefselStat.sel, 15), (RefselInStat.actFault 15, 0)]).writeReg 0 RefselDcoWrHi.reg ((aft [(RefselStat.selValid, 1), (RefselStat.sel, 15), (RefselInStat.actFault 15, 0)]).viewOff 0 RefselDcoWrHi.reg) .plain 255).getD (aft [(RefselStat.selValid, 1), (RefselStat.sel, 15), (RefselInStat.actFault 15, 0)]), by decide +kernel⟩,
   ⟨0, 255, aft [(RefselStat.selValid, 1), (RefselStat.sel, 15), (RefselInStat.actFault 15, 0)], ((aft [(RefselStat.selValid, 1), (RefselStat.sel, 15), (RefselInStat.actFault 15, 0)]).writeReg 0 RefselDcoWrHi.reg ((aft [(RefselStat.selValid, 1), (RefselStat.sel, 15), (RefselInStat.actFault 15, 0)]).viewOff 0 RefselDcoWrHi.reg) .plain (2 ^ 31 + 255)).getD (aft [(RefselStat.selValid, 1), (RefselStat.sel, 15), (RefselInStat.actFault 15, 0)]), by decide +kernel⟩,
   ⟨0, 255, aft [(RefselStat.sel, 15), (RefselInStat.actFault 15, 0)], ((aft [(RefselStat.sel, 15), (RefselInStat.actFault 15, 0)]).writeReg 0 RefselDcoWrHi.reg ((aft [(RefselStat.sel, 15), (RefselInStat.actFault 15, 0)]).viewOff 0 RefselDcoWrHi.reg) .plain 255).getD (aft [(RefselStat.sel, 15), (RefselInStat.actFault 15, 0)]), by decide +kernel⟩,
   ⟨-7, 0, { State.reset with tim := { dNext := some (-7, 0) } }, by decide +kernel⟩,
   ⟨aft [(RefselStat.state, 2), (RefselStat.sel, 1)], by decide +kernel⟩,
   ⟨late (aft [(RefselStat.state, 2)]) 156250000, by decide +kernel⟩,
   ⟨0, 0x650002, State.reset, ((State.reset).writeReg 0 RefselHist.reg ((State.reset).viewOff 0 RefselHist.reg) .plain 0x650002).getD (State.reset), by decide +kernel⟩,
   ⟨late ({ aft [(RefselStat.state, 3)] with tim := { predict := true, hist := [(5, 0, 0)] } }) 15625000, by decide +kernel⟩⟩

theorem witness_TimingOutputs :
    (∃ (m : Master) (o : OutN) (s : State) (s1 : State), o.val ≤ 9 ∧ s.fbit (RefselOutCfg.en o) = false ∧ PlainWrite s m (RefselOutCfg.reg o) 1 s1) ∧
    (∃ (w : WinN) (k : Nat) (o : Nat) (s : State), s.actionDue w 2 = some k ∧ s.dueActions.filter (fun e => firesBefore e (s.occStart w k, w)) = [(s.occStart w k, w.val)] ∧ s.epochFirst (s.occStart w k) = s ∧ s.domOn 3 = true ∧ s.fget (WinCfg.target w) = o ∧ o ≤ 9 ∧ s.fbit (RefselOutCfg.en o) = true ∧ s.timingRole = true ∧ s.winOwner w = 0) ∧
    (∃ (w : WinN) (k : Nat) (s : State), s.actionDue w 2 = some k ∧ s.dueActions.filter (fun e => firesBefore e (s.occStart w k, w)) = [(s.occStart w k, w.val)] ∧ s.epochFirst (s.occStart w k) = s ∧ (s.timingRole = false ∨ s.domOn 3 = false)) ∧
    (∃ (o : OutN) (x : Nat) (s : State), (s.outp o).reachAt = some x ∧ x ≤ s.now) ∧
    (∃ (e : Nat) (s : State), s.ppsEdge (s.now - tMs) = some e ∧ s.fbit MgmtTodCfg.txEn = true ∧ s.tim.todSent ≠ some e) ∧
    (∃ (bs : List Byte) (s : State), s.fbit MgmtTodCfg.rxEn = true ∧ bs.length = 16 ∧ withCrc16 (bs.take 14) = bs ∧ bs.take 2 = [0xC5, 0x01]) ∧
    (∃ (bs : List Byte) (s : State), s.fbit MgmtTodCfg.rxEn = true ∧ bs.length = 16 ∧ withCrc16 (bs.take 14) ≠ bs) ∧
    (∃ (s : State), (∀ x, s.tim.todAt = some x → tenthTicks 20 ≤ s.since x)) :=
  ⟨⟨0, 9, State.reset, ((State.reset).writeReg 0 (RefselOutCfg.reg 9) ((State.reset).viewOff 0 (RefselOutCfg.reg 9)) .plain 1).getD (State.reset), by decide +kernel⟩,
   ⟨1, 0, 8, on (aft [(WinCfg.en 1, 1), (WinCfg.kind 1, 2), (WinCfg.action 1, 2), (WinCfg.target 1, 8), (RefselOutCfg.en 8, 1)]) [3], by decide +kernel⟩,
   ⟨1, 0, on (aft [(WinCfg.en 1, 1), (WinCfg.kind 1, 2), (WinCfg.action 1, 2), (WinCfg.target 1, 8), (RefselOutCfg.en 8, 1), (ProtPairStat.role, 1)]) [3], by decide +kernel⟩,
   ⟨10, 0, { State.reset with tim := { outs := [(10, { reachAt := some 0, nextTa := 7, mis := 4 })] } }, by decide +kernel⟩,
   ⟨0, at' ({ aft [(RefselOutCfg.en 8, 1), (RefselOutStat.aligned 8, 1), (MgmtTodCfg.txEn, 1)] with tim := { outs := [(8, {}), (10, { driven := true })] } }) tMs, by decide +kernel⟩,
   ⟨withCrc16 [0xC5, 1, 0, 0, 0, 0, 0, 9, 0, 0, 0, 0, 0, 0], aft [(MgmtTodCfg.rxEn, 1)], by decide +kernel⟩,
   ⟨[0xC5, 1, 0, 0, 0, 0, 0, 9, 0, 0, 0, 0, 0, 0, 0, 0], aft [(MgmtTodCfg.rxEn, 1)], by decide +kernel⟩,
   ⟨State.reset, (by intro x h; cases h)⟩⟩

theorem witness_Heartbeats :
    (∃ (s : State), s.role ≠ 0 ∧ (∀ x, s.pair.sentAt = some x → 15625 ≤ s.since x) ∧ s.coreRuns 28 = true ∧ s.fbit CasCfg.en = false) ∧
    (∃ (s : State), s.role ≠ 0 ∧ (∀ x, s.pair.sentAt = some x → 15625 ≤ s.since x)) ∧
    (∃ (x : Nat) (s : State), (s.role = 0 ∨ (s.pair.sentAt = some x ∧ s.since x < 15625))) ∧
    (∃ (cas : Bool) (frame : BitVec 96) (s : State), frame.toNat % 256 = 0xB4 ∧ (cas = false → frame.toNat / 2 ^ 80 = hbCrc (frame.toNat % 2 ^ 80)) ∧ (cas = true → s.fbit ProtPairCfg.hbCas = true) ∧ frame.toNat.testBit 8 = !s.fbit ProtPairStat.side) ∧
    (∃ (frame : BitVec 96) (s : State), (frame.toNat % 256 ≠ 0xB4 ∨ frame.toNat / 2 ^ 80 ≠ hbCrc (frame.toNat % 2 ^ 80))) ∧
    (∃ (frame : BitVec 96) (s : State), frame.toNat % 256 = 0xB4 ∧ frame.toNat / 2 ^ 80 = hbCrc (frame.toNat % 2 ^ 80) ∧ frame.toNat.testBit 8 = s.fbit ProtPairStat.side) ∧
    (∃ (s : State), s.recent s.pair.lastPin (15625 * s.fget ProtPairCfg.hbMiss) = false) ∧
    (∃ (s : State), (s.fbit ProtPairCfg.hbCas = false ∨ s.recent s.pair.lastCas (15625 * s.fget ProtPairCfg.hbMiss) = false)) ∧
    (∃ (s : State), s.recent s.pair.ownSide ms10 = false) :=
  ⟨⟨aft [(ProtPairStat.role, 1), (SepStat.state 28, 1)], by decide +kernel, (by intro x h; cases h), by decide +kernel⟩,
   ⟨aft [(ProtPairStat.role, 1)], by decide +kernel, (by intro x h; cases h)⟩,
   ⟨0, late { aft [(ProtPairStat.role, 1)] with pair := { sentAt := some 0 } } 15624, by decide +kernel⟩,
   ⟨false, BitVec.ofNat 96 (0x1B4 + hbCrc 0x1B4 * 2 ^ 80), State.reset, by decide +kernel⟩,
   ⟨0, State.reset, by decide +kernel⟩,
   ⟨BitVec.ofNat 96 (0x2B4 + hbCrc 0x2B4 * 2 ^ 80), aft [(ProtPairStat.role, 4)], by decide +kernel⟩,
   ⟨State.reset, by decide +kernel⟩,
   ⟨aft [(ProtPairCfg.hbCas, 0), (ProtPairStat.hbCasOk, 1)], by decide +kernel⟩,
   ⟨late { State.reset with pair := { ownSide := some 0 } } 1562501, by decide +kernel⟩⟩

theorem witness_Claims :
    (∃ (s : State), s.role = 1 ∧ s.fbit ProtPairCfg.autoClaim = true ∧ s.pair.ownSide = none ∧ s.recent s.pair.releasedAt ms10 = false ∧ (if s.timingOk && s.healthy then ms1 else sec1) ≤ s.since s.pair.lastActive) ∧
    (∃ (s : State), s.role = 2 ∧ s.fbit ProtPairStat.wireIn = true ∧ (if s.pair.claim = 1 then 313 else 15625) ≤ s.since (max s.pair.qualFrom s.pair.wireAt)) ∧
    (∃ (s : State), s.role = 3 ∧ s.fbit ProtPairStat.side = true ∧ s.pair.claim = 0 ∧ s.pair.probeAt = none ∧ 1563 ≤ s.since s.pair.claimAt) ∧
    (∃ (x : Nat) (s : State), s.role = 3 ∧ s.pair.claim = 2 ∧ s.pair.probeAt = some x ∧ 313 ≤ s.since x) ∧
    (∃ (low : Bool) (x : Nat) (s : State), s.pair.probeAt = some x ∧ s.pair.claim = 0 ∧ s.role = 3 ∧ 235 ≤ s.since x) ∧
    (∃ (s : State), s.role = 3 ∧ 3125 ≤ s.since s.pair.claimAt ∧ (s.fbit ProtPairStat.side = false ∨ s.pair.claim = 2)) ∧
    (∃ (s : State), s.role ≠ 0 ∧ s.heldByNone = true) ∧
    (∃ (s : State), s.role ≠ 0 ∧ s.fbit ProtPairStat.wireDrive = true ∧ s.fbit ProtPairStat.wireIn = true ∧ 157 ≤ s.since (max s.pair.driveAt s.pair.wireAt)) :=
  ⟨⟨late (aft [(ProtPairStat.role, 1), (ProtPairCfg.autoClaim, 1)]) 156250000, by decide +kernel⟩,
   ⟨late { aft [(ProtPairStat.role, 2), (ProtPairStat.wireIn, 1)] with pair := { claim := 1 } } 313, by decide +kernel⟩,
   ⟨late (aft [(ProtPairStat.role, 3), (ProtPairStat.side, 1), (ProtPairStat.wireDrive, 1)]) 1563, by decide +kernel⟩,
   ⟨0, late { aft [(ProtPairStat.role, 3)] with pair := { probeAt := some 0, claim := 2 } } 313, by decide +kernel⟩,
   ⟨true, 0, late { aft [(ProtPairStat.role, 3)] with pair := { probeAt := some 0 } } 235, by decide +kernel⟩,
   ⟨late { aft [(ProtPairStat.role, 3), (ProtPairStat.side, 1)] with pair := { claim := 2 } } 3125, by decide +kernel⟩,
   ⟨{ aft [(ProtPairStat.role, 1), (ProtPairStat.wireIn, 0)] with pair := { lastGood := some 0 } }, by decide +kernel⟩,
   ⟨late (aft [(ProtPairStat.role, 4), (ProtPairStat.wireDrive, 1), (ProtPairStat.wireIn, 1)]) 157, by decide +kernel⟩⟩

theorem witness_PairOperations :
    (∃ (h : Nat) (s : State), h = (s.now / tSec / 2 ^ 32 * 2 ^ 32 + s.fget ProtPairT.tSec) * tSec + tSec / 2) ∧
    (∃ (s : State), (s.role = 4 ∨ s.role = 5)) ∧
    (∃ (s : State), s.role ≠ 4 ∧ s.role ≠ 5) ∧
    (∃ (h : Nat) (s : State), s.role = 5 ∧ s.pair.hoAt = some h ∧ h ≤ s.now) ∧
    (∃ (h : Nat) (s : State), s.role = 1 ∧ s.pair.armed = some h ∧ h ≤ s.now ∧ s.pair.ownSide = none) ∧
    (∃ (x : Nat) (s : State), s.pair.failAt = some x ∧ x ≤ s.now ∧ s.role = 1 ∧ s.fbit ProtPairStat.wireIn = true) :=
  ⟨⟨tSec + tSec / 2, { aft [(ProtPairStat.role, 4), (ProtPairT.tSec, 1)] with pair := { lastFit := some 0 } }, by decide +kernel⟩,
   ⟨aft [(ProtPairStat.role, 5), (ProtPairStat.wireDrive, 1)], by decide +kernel⟩,
   ⟨aft [(ProtPairStat.role, 2)], by decide +kernel⟩,
   ⟨0, { aft [(ProtPairStat.role, 5), (ProtPairStat.wireDrive, 1)] with pair := { hoAt := some 0 } }, by decide +kernel⟩,
   ⟨0, { aft [(ProtPairStat.role, 1)] with pair := { armed := some 0 } }, by decide +kernel⟩,
   ⟨0, { aft [(ProtPairStat.role, 1), (ProtPairStat.wireIn, 1)] with pair := { failAt := some 0 } }, by decide +kernel⟩⟩

theorem witness_PhasesAndTelemetry :
    (∃ (s : State), s.fget GlbPhase.phase = 2 ∧ s.sys.duskHeld = false ∧ s.sys.duskSince + ticksOfNs (s.fget GlbPhaseCfg.duskHoldMs * 1000000) ≤ s.ticks) ∧
    (∃ (s : State), s.fbit IntegDigCfg.en = true ∧ s.domOn 5 = true ∧ s.ticks ≠ s.mem.digLapAt) ∧
    (∃ (m : Master) (value : Word) (s : State) (s1 : State), PlainWrite s m (PerfCtl.reg (viewPart m)) value.toNat s1 ∧ s1.fbit (PerfCtl.clear (viewPart m)) = true) ∧
    (∃ (m : Master) (k : BitVec 4) (value : Word) (s : State) (s1 : State), PlainWrite s m (PerfCntCfg.reg (viewPart m) k.toNat) value.toNat s1) ∧
    (∃ (p : Part) (r : RingN) (b : Nat) (n : Nat) (s : State), s.ringIs p r 5 = true ∧ s.domOn 6 = true ∧ b = s.now / (s.telPeriod p r * tMs) * (s.telPeriod p r * tMs) ∧ (s.ring p r).telAt < b ∧ n = (if (s.telContent p r).testBit 0 then 4 else 0) + (if (s.telContent p r).testBit 1 && p.val == 0 then 1 else 0) +
          (if (s.telContent p r).testBit 2 then ((s.lanesOf p).length + 27) / 28 else 0)) :=
  ⟨⟨late (aft [(GlbPhase.phase, 2)]) (156250 * 100000), by decide +kernel⟩,
   ⟨late (on (aft [(IntegDigCfg.en, 1)]) [5]) 1, by decide +kernel⟩,
   ⟨0, 2, State.reset, ((State.reset).writeReg 0 (PerfCtl.reg 0) ((State.reset).viewOff 0 (PerfCtl.reg 0)) .plain 2).getD (State.reset), by decide +kernel⟩,
   ⟨33, 15, 0x80000000, State.reset, ((State.reset).writeReg 33 (PerfCntCfg.reg 1 15) ((State.reset).viewOff 33 (PerfCntCfg.reg 1 15)) .plain 0x80000000).getD (State.reset), by decide +kernel⟩,
   ⟨0, 63, 100 * tMs, 4, at' (on (aft [(HostRingCfg.en 0 63, 1), (HostRingCfg.typ 0 63, 5), (HostRingCfg.sizeExp 0 63, 4), (HostRingArg.arg 0 63, 0x1000A)]) [6]) (100 * tMs), by decide +kernel⟩⟩

theorem witness_Resets :
    (∃ (s : State), s.sys.porHeld = true) ∧
    (∃ (s : State), s.sys.porHeld = true ∧ s.sys.perstN = true ∧ s.sys.thermalHold = false ∧ s.sys.clkLost = false) ∧
    (∃ (s : State), s.sys.perstN = true) ∧
    (∃ (s : State), s.sys.perstN = true ∧ s.sys.porHeld = false ∧ s.sys.thermalHold = false) ∧
    (∃ (s : State), s.sys.perstN = false ∧ s.sys.porHeld = false ∧ s.sys.thermalHold = false) ∧
    (∃ (s : State), s.inReset = false) ∧
    (∃ (s : State), s.inReset = true) ∧
    (∃ (x : Nat) (s : State), s.sys.wdStart = some x ∧ s.fbit GlbPhase.bootDone = false ∧ x + 120 * sec1 ≤ s.ticks ∧ s.inReset = false) :=
  ⟨⟨{ State.reset with sys := { porHeld := true, pinMode := 2 } }, by decide +kernel⟩,
   ⟨{ State.reset with sys := { porHeld := true, pinMode := 2 } }, by decide +kernel⟩,
   ⟨State.reset, by decide +kernel⟩,
   ⟨aft [(GlbStrap.mode, 2)], by decide +kernel⟩,
   ⟨{ State.reset with sys := { perstN := false } }, by decide +kernel⟩,
   ⟨{ aft [(RefselStat.selValid, 1), (RefselStat.state, 2)] with clock := 500, tbl := [⟨1, 2⟩] }, by decide +kernel⟩,
   ⟨{ State.reset with sys := { perstN := false } }, by decide +kernel⟩,
   ⟨0, late { State.reset with sys := { wdStart := some 0 } } (120 * 156250000), by decide +kernel⟩⟩

theorem witness_Boot :
    (∃ (m : Master) (value : Word) (x : Nat) (s : State) (s1 : State), PlainWrite s m BootHostImgGo.reg value.toNat s1 ∧ s1.sys.bootAt = some x ∧ x ≤ s1.ticks ∧ s1.fbit BootHostImgGo.go = true ∧ s1.fget GlbStrap.mode = 0 ∧ s1.fget BootStat.stage = 0 ∧ (s1.fbit GlbPhase.bootDone = false ∨ s1.sys.warm = true)) ∧
    (∃ (s : State), s.fget BootStat.stage = 1 ∧ s.bootStarted = true) ∧
    (∃ (all : List Byte) (s : State), s.fget BootStat.stage = 1 ∧ s.bootStarted = true ∧ imageBody all = none) ∧
    (∃ (all : List Byte) (bs : List Byte) (rs : List (Nat × List Byte)) (ok : Bool) (s : State), s.fget BootStat.stage = 1 ∧ s.bootStarted = true ∧ imageBody all = some bs ∧ bootRecords bs.length ((bs.take (bs.length - 96)).drop 112) = (rs, ok)) ∧
    (∃ (s : State), s.fget GlbPhase.phase = 1 ∧ (s.fget GlbStrap.mode = 0 ∨ s.fget GlbStrap.mode = 2)) ∧
    (∃ (s : State), (s.fget GlbPhase.phase ≠ 1 ∨ (s.fget GlbStrap.mode ≠ 0 ∧ s.fget GlbStrap.mode ≠ 2))) ∧
    (∃ (s : State), s.fbit GlbPhase.bootDone = false ∧ s.sys.warm = false ∧ s.checkMap = none ∧ (s.fget GlbStrap.mode ≠ 3 ∨ s.tribs = [])) ∧
    (∃ (e : Nat) (p : Nat) (s : State), s.fbit GlbPhase.bootDone = false ∧ s.sys.warm = false ∧ s.checkMap = some (e, p)) ∧
    (∃ (s : State), s.inReset = false ∧ s.sys.lastGasp = false) ∧
    (∃ (s : State), (s.inReset = true ∨ s.sys.lastGasp = true)) :=
  ⟨⟨0, 1, 0, State.reset, ((State.reset).writeReg 0 BootHostImgGo.reg ((State.reset).viewOff 0 BootHostImgGo.reg) .plain 1).getD (State.reset), by decide +kernel⟩,
   ⟨aft [(BootStat.stage, 1)], by decide +kernel⟩,
   ⟨[], aft [(BootStat.stage, 1)], by decide +kernel⟩,
   ⟨[0x07, 0xB0, 0, 0x96, 0, 0x10, 0, 0] ++ List.replicate 104 0 ++ [0, 0, 0x40, 0, 0x28, 0x0F, 0, 0] ++ List.replicate 3976 0, ([0x07, 0xB0, 0, 0x96, 0, 0x10, 0, 0] ++ List.replicate 104 0 ++ [0, 0, 0x40, 0, 0x28, 0x0F, 0, 0] ++ List.replicate 3976 0), [(0x400000, List.replicate 3880 0)], true, aft [(BootStat.stage, 1)], by decide +kernel⟩,
   ⟨aft [(GlbPhase.phase, 1)], by decide +kernel⟩,
   ⟨aft [(GlbPhase.phase, 2)], by decide +kernel⟩,
   ⟨aft [(GlbStrap.mode, 3)], by decide +kernel⟩,
   ⟨1, 3, aft [(BootMapTrib.base 3, 4095), (BootMapTrib.count 3, 2)], by decide +kernel⟩,
   ⟨State.reset, by decide +kernel⟩,
   ⟨{ State.reset with sys := { lastGasp := true } }, by decide +kernel⟩⟩

theorem witness_ManagementPorts :
    (∃ (v : BitVec 16) (s : State), s.fbit MgmtSens.en = true) ∧
    (∃ (s : State), s.fbit MgmtSens.en = true) ∧
    (∃ (s : State), s.ledgerRuns = true ∧ s.sys.ledgerOn = false ∧ s.ledgerNewest = none) ∧
    (∃ (bs : List Byte) (s : State), s.ledgerRuns = true ∧ s.sys.ledgerOn = false ∧ s.ledgerNewest = some bs) ∧
    (∃ (s : State), s.ledgerRuns = true ∧ s.sys.ledgerOn = true ∧ (s.sys.ledgerFirst = true ∨ s.sys.ledgerAt + 60 * minuteTicks ≤ s.ticks)) :=
  ⟨⟨0xFFFF, aft [(MgmtSens.en, 1)], by decide +kernel⟩,
   ⟨{ aft [(MgmtSens.en, 1)] with sys := { sensFails := 2 } }, by decide +kernel⟩,
   ⟨aft [(GlbPhase.bootDone, 1), (SepStat.state 0, 1)], by decide +kernel⟩,
   ⟨leBytes 4 7 ++ List.replicate 56 0 ++ leBytes 4 (crc32c (leBytes 4 7 ++ List.replicate 56 0)), { aft [(GlbPhase.bootDone, 1), (SepStat.state 0, 1)] with sys := { ledger := [(7, leBytes 4 7 ++ List.replicate 56 0 ++ leBytes 4 (crc32c (leBytes 4 7 ++ List.replicate 56 0)))] } }, by decide +kernel⟩,
   ⟨{ aft [(GlbPhase.bootDone, 1), (SepStat.state 0, 1)] with sys := { ledgerOn := true, ledgerFirst := true, ledgerSeq := 2 ^ 32 - 1 } }, by decide +kernel⟩⟩

theorem witness_CascadeRing :
    (∃ (c : CellIn) (cs : List CellIn) (v : Nat) (s : State), s.cellsIn = c :: cs ∧ c.payload.toNat = v ∧ (c.errored = true ∨ v % 256 ≠ 0x33 ∨ cellChk v ≠ v / 2 ^ 60)) ∧
    (∃ (c : CellIn) (cs : List CellIn) (v : Nat) (s : State), s.cellsIn = c :: cs ∧ c.errored = false ∧ c.payload.toNat = v ∧ v % 256 = 0x33 ∧ cellChk v = v / 2 ^ 60 ∧ kindCells (v / 2 ^ 8 % 16) = 0) ∧
    (∃ (c : CellIn) (cs : List CellIn) (v : Nat) (s : State), s.cellsIn = c :: cs ∧ c.errored = false ∧ c.payload.toNat = v ∧ v % 256 = 0x33 ∧ cellChk v = v / 2 ^ 60 ∧ 1 < kindCells (v / 2 ^ 8 % 16) ∧ v.testBit 27 = false ∧ (s.cas.asm.all fun m => m.port != c.lane / 2 || m.kind != v / 2 ^ 8 % 16 || m.src != v / 2 ^ 19 % 64) = true) ∧
    (∃ (c : CellIn) (cs : List CellIn) (v : Nat) (s : State), s.cellsIn = c :: cs ∧ c.errored = false ∧ c.payload.toNat = v ∧ v % 256 = 0x33 ∧ cellChk v = v / 2 ^ 60 ∧ v / 2 ^ 8 % 16 = 1 ∧ v / 2 ^ 25 % 4 = 0 ∧ v.testBit 27 = true ∧ s.casRole ≠ 0 ∧ (s.cas.asm.all fun m => m.port != c.lane / 2 || m.kind != 1 || m.src != v / 2 ^ 19 % 64) = true) ∧
    (∃ (c : CellIn) (cs : List CellIn) (v : Nat) (w0 : Nat) (w1 : Nat) (s : State), s.cellsIn = c :: cs ∧ c.errored = false ∧ c.payload.toNat = v ∧ v % 256 = 0x33 ∧ cellChk v = v / 2 ^ 60 ∧ v / 2 ^ 8 % 16 = 3 ∧ v / 2 ^ 25 % 4 = 2 ∧ v.testBit 27 = true ∧ s.casRole ≠ 0 ∧ s.cas.asm = [⟨c.lane / 2, 3, v.testBit 12, v / 2 ^ 13 % 64, v / 2 ^ 19 % 64, [w0, w1]⟩]) ∧
    (∃ (m : CasMsg) (s : State) (s1 : State), s.takeMsg 1 = some (m, s1) ∧ m.port = 0 ∧ s.casRole = 2) ∧
    (∃ (m : CasMsg) (s : State) (s1 : State), s.takeMsg 1 = some (m, s1) ∧ m.port = 0 ∧ s.casRole = 1 ∧ s.fbit CasStat.leading = true ∧ s.recent s.cas.enumAt ms1 = true ∧ m.word 0 / 128 % 16 = (s.fget CasStat.gen + 1) % 16 ∧ m.word 0 / 2 ^ 16 = s.fget CasCfg.devId) ∧
    (∃ (m : CasMsg) (s : State) (s1 : State), s.takeMsg 1 = some (m, s1) ∧ m.port ≠ 0) ∧
    (∃ (x : Nat) (s : State), s.cas.enumAt = some x ∧ ms1 ≤ s.since x) ∧
    (∃ (m : CasMsg) (s : State) (s1 : State), s.takeMsg 2 = some (m, s1) ∧ s.casRole = 2) ∧
    (∃ (m : CasMsg) (s : State) (s1 : State), s.takeMsg 2 = some (m, s1) ∧ s.casRole = 1 ∧ s1.otherManager m = false) ∧
    (∃ (m : CasMsg) (s : State) (s1 : State), s.takeMsg 2 = some (m, s1) ∧ s.casRole = 1 ∧ s1.otherManager m = true) ∧
    (∃ (s : State), s.leads = true) ∧
    (∃ (e : Nat × Nat × Nat) (s : State), s.casRole = 1 ∧ s.cas.tags.find? (fun e => decide (31250 < s.since e.2.1) || e.2.2 == 3) = some e) ∧
    (∃ (m : CasMsg) (s : State) (s1 : State), s.takeMsg 8 = some (m, s1)) ∧
    (∃ (x : Nat) (s : State), s.cas.fewerSince = some x ∧ s.casRole = 2 ∧ sec1 ≤ s.since x) ∧
    (∃ (m : CasMsg) (s : State) (s1 : State), s.takeMsg 9 = some (m, s1)) :=
  ⟨⟨⟨99, 0, true⟩, [], 0, { State.reset with cellsIn := [⟨99, 0, true⟩] }, by decide +kernel⟩,
   ⟨⟨97, mkCell 10 true 0 5 0 true 9, false⟩, [⟨99, 0, true⟩], (mkCell 10 true 0 5 0 true 9).toNat, { State.reset with cellsIn := [⟨97, mkCell 10 true 0 5 0 true 9, false⟩, ⟨99, 0, true⟩] }, by decide +kernel⟩,
   ⟨⟨98, mkCell 9 true 0 5 1 false 9, false⟩, [], (mkCell 9 true 0 5 1 false 9).toNat, { State.reset with cellsIn := [⟨98, mkCell 9 true 0 5 1 false 9, false⟩] }, by decide +kernel⟩,
   ⟨⟨96, mkCell 1 false 0 5 0 true 9, false⟩, [], (mkCell 1 false 0 5 0 true 9).toNat, { aft [(CasStat.role, 2)] with cellsIn := [⟨96, mkCell 1 false 0 5 0 true 9, false⟩] }, by decide +kernel⟩,
   ⟨⟨96, mkCell 3 false 0 5 2 true 9, false⟩, [], (mkCell 3 false 0 5 2 true 9).toNat, 1, 2, { aft [(CasStat.role, 1)] with cellsIn := [⟨96, mkCell 3 false 0 5 2 true 9, false⟩], cas := { asm := [⟨48, 3, false, 0, 5, [1, 2]⟩] } }, by decide +kernel⟩,
   ⟨⟨0, 1, false, 0, 5, [127]⟩, { aft [(CasStat.role, 2), (CasStat.portUp, 2), (SepStat.state 25, 1)] with cas := { inbox := [⟨0, 1, false, 0, 5, [127]⟩] } }, { ({ aft [(CasStat.role, 2), (CasStat.portUp, 2), (SepStat.state 25, 1)] with cas := { inbox := [⟨0, 1, false, 0, 5, [127]⟩] } }) with cas := {} }, by decide +kernel⟩,
   ⟨⟨0, 1, false, 0, 5, [192]⟩, { aft [(CasStat.role, 1), (CasStat.leading, 1), (SepStat.state 25, 1)] with cas := { enumAt := some 0, inbox := [⟨0, 1, false, 0, 5, [192]⟩] } }, { ({ aft [(CasStat.role, 1), (CasStat.leading, 1), (SepStat.state 25, 1)] with cas := { enumAt := some 0, inbox := [⟨0, 1, false, 0, 5, [192]⟩] } }) with cas := { enumAt := some 0 } }, by decide +kernel⟩,
   ⟨⟨1, 1, false, 0, 5, [192]⟩, { aft [(CasStat.role, 1), (SepStat.state 26, 1)] with cas := { inbox := [⟨1, 1, false, 0, 5, [192]⟩] } }, { ({ aft [(CasStat.role, 1), (SepStat.state 26, 1)] with cas := { inbox := [⟨1, 1, false, 0, 5, [192]⟩] } }) with cas := {} }, by decide +kernel⟩,
   ⟨0, late { State.reset with cas := { enumAt := some 0 } } 156250, by decide +kernel⟩,
   ⟨⟨1, 2, true, 0, 5, [0x22081, 77, 3]⟩, { aft [(CasStat.role, 2), (CasStat.portUp, 2), (SepStat.state 26, 1)] with cas := { provisional := some (1, 9), inbox := [⟨1, 2, true, 0, 5, [0x22081, 77, 3]⟩] } }, { ({ aft [(CasStat.role, 2), (CasStat.portUp, 2), (SepStat.state 26, 1)] with cas := { provisional := some (1, 9), inbox := [⟨1, 2, true, 0, 5, [0x22081, 77, 3]⟩] } }) with cas := { provisional := some (1, 9) } }, by decide +kernel⟩,
   ⟨⟨1, 2, true, 0, 0, [1, 0, 0x10000]⟩, { aft [(CasStat.role, 1), (SepStat.state 26, 1)] with cas := { tags := [(1, 0, 1)], inbox := [⟨1, 2, true, 0, 0, [1, 0, 0x10000]⟩] } }, { ({ aft [(CasStat.role, 1), (SepStat.state 26, 1)] with cas := { tags := [(1, 0, 1)], inbox := [⟨1, 2, true, 0, 0, [1, 0, 0x10000]⟩] } }) with cas := { tags := [(1, 0, 1)] } }, by decide +kernel⟩,
   ⟨⟨1, 2, true, 0, 0, [1, 0, 0x10000]⟩, { aft [(CasStat.role, 1), (CasStat.leading, 1), (SepStat.state 26, 1)] with cas := { inbox := [⟨1, 2, true, 0, 0, [1, 0, 0x10000]⟩] } }, { ({ aft [(CasStat.role, 1), (CasStat.leading, 1), (SepStat.state 26, 1)] with cas := { inbox := [⟨1, 2, true, 0, 0, [1, 0, 0x10000]⟩] } }) with cas := {} }, by decide +kernel⟩,
   ⟨aft [(CasStat.role, 1), (CasStat.leading, 1), (CasCfg.en, 1), (SepStat.state 25, 1), (SepStat.state 26, 1), (CasStat.portUp, 3)], by decide +kernel⟩,
   ⟨(5, 0, 1), late { aft [(CasStat.role, 1), (CasStat.intact, 1)] with cas := { tags := [(5, 0, 1)] } } 31251, by decide +kernel⟩,
   ⟨⟨1, 8, true, 0, 5, [1]⟩, { aft [(CasStat.role, 2), (CasStat.reach, 3), (SepStat.state 26, 1)] with cas := { inbox := [⟨1, 8, true, 0, 5, [1]⟩] } }, { ({ aft [(CasStat.role, 2), (CasStat.reach, 3), (SepStat.state 26, 1)] with cas := { inbox := [⟨1, 8, true, 0, 5, [1]⟩] } }) with cas := {} }, by decide +kernel⟩,
   ⟨0, late { aft [(CasStat.role, 2)] with cas := { fewerSince := some 0 } } 156250000, by decide +kernel⟩,
   ⟨⟨1, 9, true, 0, 5, [1]⟩, { aft [(SepStat.state 26, 1)] with cas := { inbox := [⟨1, 9, true, 0, 5, [1]⟩] } }, { ({ aft [(SepStat.state 26, 1)] with cas := { inbox := [⟨1, 9, true, 0, 5, [1]⟩] } }) with cas := {} }, by decide +kernel⟩⟩

theorem witness_TransferAndReports :
    (∃ (p : CasPort) (s : State), 16 ≤ (s.casPort p).sinceStamp ∧ s.coreRuns (25 + p) = true) ∧
    (∃ (p : CasPort) (r0 : TtRec) (r1 : TtRec) (s : State), 16 ≤ (s.casPort p).sinceStamp ∧ s.coreRuns (25 + p) = true ∧ (s.casPort p).fwd.find? (fun r => r.lane == 0) = some r0 ∧ (s.casPort p).fwd.find? (fun r => r.lane == 1) = some r1 ∧ s.casBit CasStat.portUp p = true ∧ (s.casPort p).queued + 6 ≤ 1024) ∧
    (∃ (m : CasMsg) (s : State) (s1 : State), s.takeMsg 3 = some (m, s1)) ∧
    (∃ (s : State), s.cas.reportedMs < s.now / tMs) ∧
    (∃ (s : State), s.now / tMs ≤ s.cas.reportedMs) ∧
    (∃ (m : CasMsg) (s : State) (s1 : State), s.takeMsg 4 = some (m, s1) ∧ m.src < 64) :=
  ⟨⟨1, { aft [(SepStat.state 26, 1)] with cas := { ports := [(1, { sinceStamp := 16, fwd := [⟨0, 5, 7, 3⟩] })] } }, by decide +kernel⟩,
   ⟨1, ⟨0, 5, 7, 3⟩, ⟨1, 6, -7, 3⟩, { aft [(SepStat.state 26, 1), (CasStat.portUp, 2)] with cas := { ports := [(1, { sinceStamp := 16, fwd := [⟨0, 5, 7, 3⟩, ⟨1, 6, -7, 3⟩] })] } }, by decide +kernel⟩,
   ⟨⟨1, 3, false, 0, 5, [0x50001, 7, 0]⟩, { aft [(SepStat.state 26, 1)] with cas := { inbox := [⟨1, 3, false, 0, 5, [0x50001, 7, 0]⟩] } }, { ({ aft [(SepStat.state 26, 1)] with cas := { inbox := [⟨1, 3, false, 0, 5, [0x50001, 7, 0]⟩] } }) with cas := {} }, by decide +kernel⟩,
   ⟨at' (aft [(CasStat.role, 1), (CasStat.leading, 1)]) tMs, by decide +kernel⟩,
   ⟨State.reset, by decide +kernel⟩,
   ⟨⟨1, 4, false, 0, 5, [3, 0, 65536, 0]⟩, { aft [(CasStat.leading, 1), (SepStat.state 26, 1)] with cas := { inbox := [⟨1, 4, false, 0, 5, [3, 0, 65536, 0]⟩] } }, { ({ aft [(CasStat.leading, 1), (SepStat.state 26, 1)] with cas := { inbox := [⟨1, 4, false, 0, 5, [3, 0, 65536, 0]⟩] } }) with cas := {} }, by decide +kernel⟩⟩

theorem witness_Epochs :
    (∃ (m : CasMsg) (s : State) (s1 : State), s.takeMsg 5 = some (m, s1) ∧ s.casRole = 2 ∧ (s.fbit CasStageCtl.pending = false ∨ s.cas.propE ≠ m.word 0)) ∧
    (∃ (s : State), s.fget CasPropStat.result = 1 ∧ s.commitAt ≤ s.now ∧ s.cas.decision = none) ∧
    (∃ (s : State), (s.fget CasPropStat.result ≠ 1 ∨ s.now < s.commitAt)) ∧
    (∃ (go : Bool) (s : State), s.cas.decision = some go) ∧
    (∃ (m : CasMsg) (s : State) (s1 : State), s.takeMsg 6 = some (m, s1)) ∧
    (∃ (w : WinN) (k : Nat) (s : State), s.actionDue w 3 = some k ∧ s.dueActions.filter (fun e => firesBefore e (s.occStart w k, w)) = [(s.occStart w k, w.val)] ∧ s.epochFirst (s.occStart w k) = s ∧ s.domOn 3 = true ∧ s.casRole = 0 ∧ s.readyFor (s.fget CasStage.epoch) = true ∧ s.timingRole = true ∧ s.winOwner w = 0) ∧
    (∃ (w : WinN) (k : Nat) (s : State), s.actionDue w 3 = some k ∧ s.dueActions.filter (fun e => firesBefore e (s.occStart w k, w)) = [(s.occStart w k, w.val)] ∧ s.epochFirst (s.occStart w k) = s ∧ (s.domOn 3 = false ∨ s.casRole ≠ 0 ∨ s.readyFor (s.fget CasStage.epoch) = false ∨ s.timingRole = false ∨ s.winOwner w ≠ 0)) ∧
    (∃ (x : Nat) (s : State), s.pair.lastGood = some x) ∧
    (∃ (e : Nat) (s : State), s.cas.mgrEpoch = some e ∧ e < 2 ^ 32) :=
  ⟨⟨⟨1, 5, true, 0, 5, [3, 0, 65536, 0]⟩, { aft [(CasStat.role, 2), (SepStat.state 26, 1)] with cas := { inbox := [⟨1, 5, true, 0, 5, [3, 0, 65536, 0]⟩] } }, { ({ aft [(CasStat.role, 2), (SepStat.state 26, 1)] with cas := { inbox := [⟨1, 5, true, 0, 5, [3, 0, 65536, 0]⟩] } }) with cas := {} }, by decide +kernel⟩,
   ⟨{ aft [(CasStat.role, 1), (CasStat.leading, 1), (CasPropStat.result, 1), (CasStage.epoch, 1), (CasStageCtl.ready, 1)] with cas := { propE := 1 } }, by decide +kernel⟩,
   ⟨State.reset, by decide +kernel⟩,
   ⟨true, late { aft [(CasStat.role, 1), (CasStat.leading, 1), (CasCfg.en, 1), (CasPropStat.result, 2)] with cas := { propT := 2 * tMs, decision := some true } } 15625, by decide +kernel⟩,
   ⟨⟨1, 6, true, 0, 5, [3, 1]⟩, { aft [(CasStat.role, 2), (CasStageCtl.pending, 1), (SepStat.state 26, 1)] with cas := { propE := 3, inbox := [⟨1, 6, true, 0, 5, [3, 1]⟩] } }, { ({ aft [(CasStat.role, 2), (CasStageCtl.pending, 1), (SepStat.state 26, 1)] with cas := { propE := 3, inbox := [⟨1, 6, true, 0, 5, [3, 1]⟩] } }) with cas := { propE := 3 } }, by decide +kernel⟩,
   ⟨1, 0, on (aft [(WinCfg.en 1, 1), (WinCfg.kind 1, 2), (WinCfg.action 1, 3), (CasStage.epoch, 1), (CasStageCtl.ready, 1)]) [3], by decide +kernel⟩,
   ⟨255, 0, on (aft [(WinCfg.en 255, 1), (WinCfg.kind 255, 2), (WinCfg.action 255, 3), (CasStage.epoch, 1)]) [3], by decide +kernel⟩,
   ⟨0, late (at' { aft [(ProtPairStat.role, 1), (ProtPairStat.peerRole, 1), (ProtPairHb.frame 1, 1), (CasStage.epoch, 1), (CasStageCtl.ready, 1)] with pair := { lastGood := some 0 } } tMs) 156250, by decide +kernel⟩,
   ⟨5, { aft [(CasStat.role, 2)] with cas := { mgrEpoch := some 5 } }, by decide +kernel⟩⟩

theorem witness_Mailboxes :
    (∃ (m : Master) (n : Lane) (req : Word) (s : State), Reached s m (mailboxKey (viewPart m) (.laneCnt n)) ∧ s.mailDefined m (.laneCnt n) (req.toNat &&& mbxMask (.laneCnt n)) = true) ∧
    (∃ (m : Master) (b : Mailbox) (req : Word) (s : State), b ≠ .timeLag ∧ b ≠ .dcoRd ∧ Reached s m (mailboxKey (viewPart m) b) ∧ s.mailDefined m b (req.toNat &&& mbxMask b) = true) ∧
    (∃ (m : Master) (req : Word) (s : State), Reached s m (mailboxKey (viewPart m) .dcoRd)) ∧
    (∃ (m : Master) (req : Word) (x : Nat) (lo : Int) (hi : Int) (s : State), Reached s m (mailboxKey (viewPart m) .timeLag) ∧ s.namedTrib m (req.toNat % 2 ^ 12) = some x ∧ (s.trib x).lag = some (lo, hi)) ∧
    (∃ (m : Master) (req : Word) (x : Nat) (s : State), Reached s m (mailboxKey (viewPart m) .timeLag) ∧ s.namedTrib m (req.toNat % 2 ^ 12) = some x ∧ (s.trib x).lag = none) ∧
    (∃ (m : Master) (b : Mailbox) (s : State), s.deaf m = false ∧ s.reaches m (mailboxKey (viewPart m) b) = true) :=
  ⟨⟨0, 95, 8, aft [(LaneCfg.en 95, 1)], by decide +kernel⟩,
   ⟨33, .timeRd, 3, State.reset, by decide +kernel⟩,
   ⟨0, 1, { State.reset with tim := { d := -5 } }, by decide +kernel⟩,
   ⟨32, 4095, 4095, -5, 65537, State.reset.setTrib 4095 { lag := some (-5, 65537) }, by decide +kernel⟩,
   ⟨32, 4095, 4095, State.reset, by decide +kernel⟩,
   ⟨50, .dcoRd, State.reset.setMail 50 .dcoRd { valid := true, words := [1, 2, 3, 4, 5] }, by decide +kernel⟩⟩

theorem witness_ReadsWithSideEffects :
    (∃ (m : Master) (n : Lane) (s : State), s.deaf m = false ∧ s.peeks m = false ∧ s.reaches m (LaneDefIvl.reg n) = true ∧ m = laneCore n) ∧
    (∃ (m : Master) (n : Lane) (s : State), s.deaf m = false ∧ s.peeks m = false ∧ s.reaches m (LaneDskStat.reg n) = true) ∧
    (∃ (m : Master) (n : Lane) (s : State), s.deaf m = false ∧ s.peeks m = false ∧ s.reaches m (LaneEthUnm.reg n) = true) ∧
    (∃ (m : Master) (s : State), s.deaf m = false ∧ s.peeks m = false ∧ s.reaches m (TimeActMiss.reg (viewPart m)) = true) ∧
    (∃ (m : Master) (s : State), s.deaf m = false ∧ s.peeks m = false ∧ s.reaches m (HostUrgLog.reg (viewPart m)) = true) ∧
    (∃ (m : Master) (s : State), s.deaf m = false ∧ s.peeks m = false ∧ s.reaches m (HostCtoLog.reg (viewPart m)) = true) ∧
    (∃ (m : Master) (s : State), s.deaf m = false ∧ s.peeks m = false ∧ s.reaches m MemLog1.reg = true) ∧
    (∃ (m : Master) (s : State), s.deaf m = false ∧ s.peeks m = false ∧ s.reaches m (IntegBuserr1.reg (viewPart m)) = true) ∧
    (∃ (m : Master) (s : State), s.deaf m = false ∧ s.peeks m = false ∧ s.reaches m (IntegDwlog1.reg (viewPart m)) = true) ∧
    (∃ (m : Master) (s : State), s.deaf m = false ∧ s.peeks m = false ∧ s.reaches m (IntegDwlogCnt.reg (viewPart m)) = true) ∧
    (∃ (m : Master) (s : State), s.deaf m = false ∧ s.peeks m = false ∧ s.reaches m (IntegBuserrCnt.reg (viewPart m)) = true) ∧
    (∃ (m : Master) (c : CoreN) (s : State), s.deaf m = false ∧ s.peeks m = false ∧ s.reaches m (SepFifoCnt.reg c) = true) ∧
    (∃ (m : Master) (s : State), s.deaf m = false ∧ s.peeks m = false ∧ s.reaches m (PerfVtStat.reg (viewPart m)) = true) ∧
    (∃ (m : Master) (s : State), s.deaf m = false ∧ s.peeks m = false ∧ s.reaches m PerfPaceMin.reg = true) ∧
    (∃ (m : Master) (s : State), s.deaf m = false ∧ s.peeks m = false ∧ s.reaches m PerfPaceMax.reg = true) :=
  ⟨⟨24, 95, aft [(LaneDef.defs 95, 31), (LaneDefIvl.ivl 95, 255)], by decide +kernel⟩,
   ⟨0, 0, aft [(LaneDskStat.fill 0, 5), (LaneDskStat.fillMax 0, 9)], by decide +kernel⟩,
   ⟨32, 95, aft [(LaneEthUnm.count 95, 7)], by decide +kernel⟩,
   ⟨47, aft [(TimeActMiss.count 15, 9)], by decide +kernel⟩,
   ⟨32, aft [(HostUrgLog.valid 0, 1)], by decide +kernel⟩,
   ⟨33, aft [(HostCtoLog.valid 1, 1)], by decide +kernel⟩,
   ⟨31, aft [(MemLog0.valid, 1)], by decide +kernel⟩,
   ⟨48, aft [(IntegBuserr0.valid 0, 1)], by decide +kernel⟩,
   ⟨47, aft [(IntegDwlog0.word 15, 0xFFFFFFFF)], by decide +kernel⟩,
   ⟨47, aft [(IntegDwlogCnt.count 15, 5)], by decide +kernel⟩,
   ⟨47, aft [(IntegBuserrCnt.count 15, 5)], by decide +kernel⟩,
   ⟨0, 24, aft [(SepFifoCnt.uncorr 24, 5)], by decide +kernel⟩,
   ⟨33, aft [(PerfVtStat.lost 1, 5), (PerfVtStat.skipped 1, 6)], by decide +kernel⟩,
   ⟨0, aft [(PerfPaceMin.period, 5)], by decide +kernel⟩,
   ⟨0, aft [(PerfPaceMax.period, 5)], by decide +kernel⟩⟩

theorem witness_SemaphoreOrder :
    (∃ (c : CoreN) (rd : XReg) (i : SemN) (nowait : Bool) (j : Nat) (s : State), CoreReady s c (encI 0x32 rd 0 (i + (if nowait then 64 else 0))) ∧ (s.core c).atom = none ∧ j ∈ s.semsHeld c ∧ i.val ≤ j) ∧
    (∃ (p : Part) (i : SemN) (j : Nat) (s : State), s.peeks (32 + p) = false ∧ s.semPermitted (32 + p) i = true ∧ j ∈ s.semsHeld (32 + p) ∧ i.val ≤ j) ∧
    (∃ (c : CoreN) (rd : XReg) (i : SemN) (j : Nat) (s : State), CoreReady s c (encI 0x33 rd 0 i) ∧ (s.core c).atom = none ∧ (s.sem i).holder = some c.val ∧ (s.sem i).waiters = [] ∧ j ∈ s.semsHeld c ∧ j ≠ i.val) ∧
    (∃ (p : Part) (i : SemN) (value : Word) (j : Nat) (s : State), s.semPermitted (32 + p) i = true ∧ (s.sem i).holder = some (32 + p.val) ∧ (s.sem i).waiters = [] ∧ j ∈ s.semsHeld (32 + p) ∧ j ≠ i.val) ∧
    (∃ (c : CoreN) (rd : XReg) (i : SemN) (s : State), CoreReady s c (encI 0x32 rd 0 (i + 64)) ∧ (s.core c).atom = none ∧ (∀ j ∈ s.semsHeld c, j < i.val)) ∧
    (∃ (p : Part) (i : SemN) (s : State), s.peeks (32 + p) = false ∧ s.semPermitted (32 + p) i = true ∧ (∀ j ∈ s.semsHeld (32 + p), j < i.val)) :=
  ⟨⟨5, 1, 6, false, 6, { coreAt 5 8 (encI 0x32 1 0 6) {} with sems := [(6, { holder := some 5 })] }, ready_of (by decide +kernel), by decide +kernel⟩,
   ⟨0, 3, 6, { State.reset with sys := { mapInForce := [(BootMapSemEn.reg 0, 8)] }, sems := [(6, { holder := some 32 })] }, by decide +kernel⟩,
   ⟨5, 1, 6, 9, { coreAt 5 8 (encI 0x33 1 0 6) {} with sems := [(6, { holder := some 5 }), (9, { holder := some 5 })] }, ready_of (by decide +kernel), by decide +kernel⟩,
   ⟨0, 3, 7, 6, { State.reset with sys := { mapInForce := [(BootMapSemEn.reg 0, 8)] }, sems := [(3, { holder := some 32 }), (6, { holder := some 32 })] }, by decide +kernel⟩,
   ⟨5, 1, 6, { coreAt 5 8 (encI 0x32 1 0 70) {} with sems := [(5, { holder := some 5 })] }, ready_of (by decide +kernel), by decide +kernel⟩,
   ⟨0, 6, { State.reset with sys := { mapInForce := [(BootMapSemEn.reg 0, 64)] }, sems := [(5, { holder := some 32 })] }, by decide +kernel⟩⟩

theorem witness_ReturnFromTrap :
    (∃ (c : CoreN) (s : State), CoreReady s c (encI 0x39 0 0 0) ∧ (s.core c).atom = none ∧ (s.core c).inTrap = true) ∧
    (∃ (c : CoreN) (s : State), CoreReady s c (encI 0x39 0 0 0) ∧ (s.core c).atom = none ∧ (s.core c).inTrap = false ∧ (∀ x ∈ (s.core c).wbuf, regionOf c x.addr = some .data ∧ x.bytes.length ≤ 4) ∧ (s.core c).wait = .none) :=
  ⟨⟨5, coreAt 5 8 (encI 0x39 0 0 0) { inTrap := true, pie := true, epc := 0x100 }, ready_of (by decide +kernel), by decide +kernel⟩,
   ⟨5, coreAt 5 8 (encI 0x39 0 0 0) { wbuf := [⟨0x10004, [1, 2, 3, 4], 4⟩] }, ready_of (by decide +kernel), by decide +kernel⟩⟩

theorem witness_DoubleTrap :
    (∃ (c : CoreN) (imm : BitVec 18) (s : State), CoreReady s c (encI 0x38 0 0 imm.toNat) ∧ (s.core c).atom = none ∧ (s.core c).wbuf = [] ∧ (s.core c).wait = .none ∧ (s.core c).inTrap = true) ∧
    (∃ (c : CoreN) (w : Word) (s : State), CoreReady s c w ∧ (s.core c).atom = none ∧ (s.core c).wbuf = [] ∧ (s.core c).wait = .none ∧ (s.core c).inTrap = true ∧ sepiaDecode c w = none) ∧
    (∃ (c : CoreN) (r : XReg) (ra : XReg) (off : BitVec 18) (s : State), CoreReady s c (encI 0x18 r ra off.toNat) ∧ (s.core c).atom = none ∧ (s.core c).wbuf = [] ∧ (s.core c).wait = .none ∧ (s.core c).inTrap = true ∧ regionOf c (memAddr (s.xreg c ra) off) = some .data ∧ (memAddr (s.xreg c ra) off).toNat % 4 ≠ 0) ∧
    (∃ (c : CoreN) (rd : XReg) (ra : XReg) (rb : XReg) (s : State), s.coreState c = 5) :=
  ⟨⟨5, 7, coreAt 5 8 (encI 0x38 0 0 7) { inTrap := true }, ready_of (by decide +kernel), by decide +kernel⟩,
   ⟨31, 0, coreAt 31 8 0 { inTrap := true }, ready_of (by decide +kernel), by decide +kernel⟩,
   ⟨0, 1, 2, 1, coreAt 0 8 (encI 0x18 1 2 1) { inTrap := true, x := [(2, 0x10000)] }, ready_of (by decide +kernel), by decide +kernel⟩,
   ⟨5, 1, 2, 3, aft [(SepStat.state 5, 5)], by decide +kernel⟩⟩

theorem witness_CoreEvents :
    (∃ (c : CoreN) (mask : Nat) (rd : Nat) (s : State), s.coreState c = 2 ∧ s.quiet ∧ (s.core c).wait = .event mask rd ∧ (s.core c).evpend &&& mask ≠ 0 ∧ (s.core c).trapPend = none ∧ (s.core c).haltPend = none ∧ (s.core c).stepping = false ∧ (s.part 0).vtTags = [] ∧ s.feature 0 1 = false) ∧
    (∃ (c : CoreN) (mask : Nat) (rd : Nat) (s : State), (s.core c).wait = .event mask rd ∧ (s.core c).evpend &&& mask = 0) ∧
    (∃ (m : Master) (c : CoreN) (value : Word) (s : State), Reached s m (SepMboxIn.reg c) ∧ s.jtagBarred m c true = false ∧ s.coreState c ≠ 0 ∧ s.coreState c ≠ 6) ∧
    (∃ (c : CoreN) (g : Region) (x : Store) (xs : List Store) (s : State), (s.core c).wbuf = x :: xs ∧ (g = .data ∨ g = .instr) ∧ regionOf c x.addr = some g ∧ s.quiet ∧ s.coreState c ≠ 6 ∧ x.bytes.length ≤ 4 ∧ s.fbit MemFlipT.arm = false ∧ (s.part 0).vtTags = []) :=
  ⟨⟨31, 5, 1, (aft [(SepStat.state 31, 2)]).setCore 31 { wait := .event 5 1, evpend := 7, pc := 8 }, by decide +kernel⟩,
   ⟨31, 5, 1, (aft [(SepStat.state 31, 2)]).setCore 31 { wait := .event 5 1, evpend := 2, pc := 8 }, by decide +kernel⟩,
   ⟨48, 0, 5, aft [(SepStat.state 0, 1)], by decide +kernel⟩,
   ⟨31, .data, ⟨0x17FFC, [1, 2, 3, 4], 8⟩, [], (aft [(SepStat.state 31, 4)]).setCore 31 { wbuf := [⟨0x17FFC, [1, 2, 3, 4], 8⟩] }, by decide +kernel⟩⟩

theorem witness_FifoReader :
    (∃ (g : Group) (s : State), (s.group g).noticed < (s.group g).wr ∧ s.coreState (g + 1) ≠ 0 ∧ s.coreState (g + 1) ≠ 6) ∧
    (∃ (g : Group) (s : State), (s.group g).wr ≤ (s.group g).noticed) ∧
    (∃ (c : CoreN) (rd : XReg) (ra : XReg) (off : BitVec 18) (errs : Fin 3) (s : State), hasFifo c = true ∧ CoreReady s c (encI 0x18 rd ra off.toNat) ∧ (s.core c).atom = none ∧ (s.core c).wait = .none ∧ (∀ x ∈ (s.core c).wbuf, regionOf c x.addr ≠ some .fifo ∧ regionOf c x.addr ≠ some .ck) ∧ memAddr (s.xreg c ra) off = 0x20000 ∧ (s.group (c - 1)).rd < (s.group (c - 1)).noticed ∧ errs.val ≤ 1) ∧
    (∃ (c : CoreN) (rd : XReg) (ra : XReg) (off : BitVec 18) (s : State), hasFifo c = true ∧ CoreReady s c (encI 0x18 rd ra off.toNat) ∧ (s.core c).atom = none ∧ (s.core c).wait = .none ∧ (∀ x ∈ (s.core c).wbuf, regionOf c x.addr ≠ some .fifo ∧ regionOf c x.addr ≠ some .ck) ∧ memAddr (s.xreg c ra) off = 0x20000 ∧ (s.group (c - 1)).rd < (s.group (c - 1)).noticed ∧ (s.core c).wbuf = [] ∧ (s.core c).inTrap = false) ∧
    (∃ (c : CoreN) (rd : XReg) (ra : XReg) (off : BitVec 18) (errs : Fin 3) (s : State), hasFifo c = true ∧ CoreReady s c (encI 0x18 rd ra off.toNat) ∧ (s.core c).atom = none ∧ (s.core c).wait = .none ∧ (∀ x ∈ (s.core c).wbuf, regionOf c x.addr ≠ some .fifo ∧ regionOf c x.addr ≠ some .ck) ∧ memAddr (s.xreg c ra) off = 0x20000 ∧ (s.group (c - 1)).noticed ≤ (s.group (c - 1)).rd ∧ (s.group (c - 1)).wr ≤ (s.group (c - 1)).rd) ∧
    (∃ (c : CoreN) (rd : XReg) (errs : Fin 3) (s : State), hasFifo c = true ∧ s.coreState c = 3 ∧ s.quiet ∧ (s.core c).wait = .fifo rd ∧ (s.core c).wbuf = [] ∧ (s.core c).atom = none ∧ (s.part 0).vtTags = [] ∧ s.feature 0 1 = false ∧ (s.core c).trapPend = none ∧ (s.core c).stepping = false ∧ (s.core c).haltPend = none ∧ (s.group (c - 1)).rd < (s.group (c - 1)).noticed ∧ errs.val ≤ 1) ∧
    (∃ (c : CoreN) (rd : XReg) (s : State), hasFifo c = true ∧ s.coreState c = 3 ∧ s.quiet ∧ (s.core c).wait = .fifo rd ∧ (s.core c).wbuf = [] ∧ (s.core c).atom = none ∧ (s.part 0).vtTags = [] ∧ s.feature 0 1 = false ∧ (s.core c).trapPend = none ∧ (s.core c).stepping = false ∧ (s.core c).haltPend = none ∧ (s.core c).inTrap = false ∧ (s.group (c - 1)).rd < (s.group (c - 1)).noticed) ∧
    (∃ (c : CoreN) (rd : XReg) (errs : Fin 3) (s : State), s.coreState c = 3 ∧ (s.core c).wait = .fifo rd ∧ (s.group (c - 1)).noticed ≤ (s.group (c - 1)).rd ∧ (s.group (c - 1)).wr ≤ (s.group (c - 1)).rd) ∧
    (∃ (c : CoreN) (s : State), hasFifo c = true ∧ s.coreState c ≠ 0 ∧ s.coreState c ≠ 6) ∧
    (∃ (c : CoreN) (s : State), hasFifo c = true ∧ s.coreState c ≠ 0 ∧ s.coreState c ≠ 6) ∧
    (∃ (c : CoreN) (s : State), hasFifo c = true ∧ s.coreState c ≠ 0 ∧ s.coreState c ≠ 6) :=
  ⟨⟨23, (aft [(SepStat.state 24, 1)]).setGroup 23 { wr := 3, noticed := 1, words := [(1, 5), (2, 6)] }, by decide +kernel⟩,
   ⟨0, State.reset, by decide +kernel⟩,
   ⟨24, 1, 2, 0, 1, (coreAt 24 8 (encI 0x18 1 2 0) { x := [(2, 0x20000)] }).setGroup 23 { wr := 3, noticed := 2, rd := 1, words := [(1, 5), (2, 6)] }, by decide +kernel, ready_of (by decide +kernel), by decide +kernel⟩,
   ⟨1, 1, 2, 0, (coreAt 1 8 (encI 0x18 1 2 0) { x := [(2, 0x20000)] }).setGroup 0 { wr := 3, noticed := 2, rd := 1, words := [(1, 5), (2, 6)] }, by decide +kernel, ready_of (by decide +kernel), by decide +kernel⟩,
   ⟨1, 1, 2, 0, 2, (coreAt 1 8 (encI 0x18 1 2 0) { x := [(2, 0x20000)] }).setGroup 0 { wr := 3, noticed := 3, rd := 3 }, by decide +kernel, ready_of (by decide +kernel), by decide +kernel⟩,
   ⟨1, 1, 0, ((aft [(SepStat.state 1, 3)]).setCore 1 { wait := .fifo 1, pc := 8 }).setGroup 0 { wr := 3, noticed := 2, rd := 1, words := [(1, 5), (2, 6)] }, by decide +kernel⟩,
   ⟨1, 1, ((aft [(SepStat.state 1, 3)]).setCore 1 { wait := .fifo 1, pc := 8 }).setGroup 0 { wr := 3, noticed := 2, rd := 1, words := [(1, 5), (2, 6)] }, by decide +kernel⟩,
   ⟨1, 1, 0, ((aft [(SepStat.state 1, 3)]).setCore 1 { wait := .fifo 1, pc := 8 }).setGroup 0 { wr := 3, noticed := 3, rd := 3 }, by decide +kernel⟩,
   ⟨24, (aft [(SepStat.state 24, 1)]).setGroup 23 { wr := 9, noticed := 5, rd := 4, mark := 2, rel := 1, words := [(1, 5), (2, 6)] }, by decide +kernel⟩,
   ⟨1, (aft [(SepStat.state 1, 4)]).setGroup 0 { wr := 9, noticed := 5, rd := 4, mark := 2, rel := 1, words := [(1, 5), (2, 6)] }, by decide +kernel⟩,
   ⟨24, (aft [(SepStat.state 24, 1)]).setGroup 23 { wr := 9, noticed := 5, rd := 4, mark := 2, rel := 1, words := [(1, 5), (2, 6)] }, by decide +kernel⟩⟩

theorem witness_CheckUnits :
    (∃ (c : CoreN) (s : State), s.coreState c ≠ 0 ∧ s.coreState c ≠ 6 ∧ 1 ≤ (s.core c).ck.cfg.toNat % 128 ∧ (s.core c).ck.cfg.toNat % 128 ≤ 64) ∧
    (∃ (c : CoreN) (s : State), s.coreState c = 1 ∧ s.quiet ∧ ((s.core c).ck.cfg.toNat % 128 = 0 ∨ 64 < (s.core c).ck.cfg.toNat % 128) ∧ (s.core c).inTrap = false ∧ (s.core c).wbuf = [] ∧ (s.core c).atom = none ∧ (s.core c).wait = .none ∧ (s.core c).trapPend = none ∧ (s.core c).haltPend = none ∧ (s.core c).stepping = false) ∧
    (∃ (c : CoreN) (sel : Nat) (w : Nat) (p : BitVec 64) (i : BitVec 64) (both : Bool × Bool) (s : State), hasFixed c = true ∧ s.coreState c ≠ 0 ∧ s.coreState c ≠ 6 ∧ (s.core c).ckf.sel = sel ∧ (sel, w, p, i, both) ∈ [(0, 32, 0x1EDC6F41, 0xFFFFFFFF, true, true), (1, 32, 0x04C11DB7, 0xFFFFFFFF, true, true),
          (2, 16, 0x1021, 0xFFFF, false, false), (3, 64, 0x42F0E1EBA9EA3693, 0, false, false)]) ∧
    (∃ (c : CoreN) (fixed : Bool) (bytes : List Byte) (x : BitVec 64) (s : State), (fixed = true → hasFixed c = true) ∧ s.coreState c ≠ 0 ∧ s.coreState c ≠ 6 ∧ ((s.core c).unit fixed).reg = some x) ∧
    (∃ (c : CoreN) (fixed : Bool) (bytes : List Byte) (s : State), ((s.core c).unit fixed).reg = none) ∧
    (∃ (c : CoreN) (fixed : Bool) (hi : Bool) (rd : XReg) (ra : XReg) (off : BitVec 18) (x : BitVec 64) (s : State), (fixed = true → hasFixed c = true) ∧ CoreReady s c (encI 0x18 rd ra off.toNat) ∧ (s.core c).atom = none ∧ (s.core c).wbuf = [] ∧ memAddr (s.xreg c ra) off = crcAddr fixed hi ∧ ((s.core c).unit fixed).reg = some x) ∧
    (∃ (c : CoreN) (fixed : Bool) (hi : Bool) (rd : XReg) (ra : XReg) (off : BitVec 18) (s : State), (fixed = true → hasFixed c = true) ∧ CoreReady s c (encI 0x18 rd ra off.toNat) ∧ (s.core c).atom = none ∧ (s.core c).wbuf = [] ∧ memAddr (s.xreg c ra) off = crcAddr fixed hi ∧ ((s.core c).unit fixed).reg = none) :=
  ⟨⟨31, (aft [(SepStat.state 31, 1)]).setCore 31 { ck := { cfg := 0x740, poly := 0x42F0E1EBA9EA3693, init := 5 } }, by decide +kernel⟩,
   ⟨31, (aft [(SepStat.state 31, 1)]).setCore 31 { ck := { cfg := 0x41 } }, by decide +kernel⟩,
   ⟨28, 3, 64, 0x42F0E1EBA9EA3693, 0, (false, false), (aft [(SepStat.state 28, 1)]).setCore 28 { ckf := { sel := 3 } }, by decide +kernel⟩,
   ⟨28, true, [0x31, 0x32], 5, (aft [(SepStat.state 28, 1)]).setCore 28 { ckf := { reg := some 5, width := 32, lpoly := 0x1EDC6F41, refin := true } }, by decide +kernel⟩,
   ⟨3, false, [0x31], aft [(SepStat.state 3, 1)], by decide +kernel⟩,
   ⟨28, true, true, 1, 2, 0x3FFFC, 5, coreAt 28 8 (encI 0x18 1 2 0x3FFFC) { x := [(2, 0x21114)], ckf := { reg := some 5, width := 32, lpoly := 0x1EDC6F41, refin := true } }, by decide +kernel, ready_of (by decide +kernel), by decide +kernel⟩,
   ⟨28, true, true, 1, 2, 0x3FFFC, coreAt 28 8 (encI 0x18 1 2 0x3FFFC) { x := [(2, 0x21114)] }, by decide +kernel, ready_of (by decide +kernel), by decide +kernel⟩⟩

theorem witness_CoreDebug :
    (∃ (c : CoreN) (s : State), s.inReset = false ∧ s.quiet ∧ (s.coreState c = 1 ∨ (∃ mask rd, s.coreState c = 2 ∧ (s.core c).wait = .event mask rd) ∨
          (∃ rd, s.coreState c = 3 ∧ (s.core c).wait = .fifo rd)) ∧ (s.coreState c = 1 → (s.core c).wait = .none) ∧ (s.core c).wbuf = [] ∧ (s.core c).atom = none ∧ (s.core c).trapPend = none ∧ (s.core c).haltPend = none) ∧
    (∃ (c : CoreN) (a : Atom) (s : State), s.inReset = false ∧ s.quiet ∧ s.coreState c = 1 ∧ (s.core c).atom = some a ∧ (s.core c).haltPend = none) ∧
    (∃ (c : CoreN) (s : State), s.inReset = false ∧ s.quiet ∧ s.coreState c ≠ 1 ∧ s.coreState c ≠ 2 ∧ s.coreState c ≠ 3) ∧
    (∃ (c : CoreN) (k : Nat) (a : Atom) (s : State), (s.core c).haltPend = some k ∧ (s.core c).atom = some a ∧ s.coreState c = 1 ∧ (s.core c).trapPend = none ∧ (s.core c).stepPend = false ∧ s.quiet) ∧
    (∃ (c : CoreN) (s : State), (s.core c).haltPend = none) ∧
    (∃ (c : CoreN) (s : State), s.inReset = false ∧ s.quiet ∧ s.coreState c = 4 ∧ (s.core c).stepping = false ∧ (s.core c).trapPend = none) ∧
    (∃ (c : CoreN) (s : State), s.inReset = false ∧ s.coreState c ≠ 4 ∧ s.quiet) ∧
    (∃ (c : CoreN) (rd : XReg) (ra : XReg) (rb : XReg) (s : State) (s1 : State), s.inReset = false ∧ s.quiet ∧ s.coreState c = 4 ∧ s1 = (s.setCore c { s.core c with pc := s.rget (SepDpc.reg c) }).setCoreState c 1 ∧ CoreReady s1 c (encA 0x01 rd ra rb) ∧ (s.core c).atom = none ∧ (s.core c).wbuf = [] ∧ (s.core c).wait = .none) ∧
    (∃ (c : CoreN) (s : State), s.coreState c = 1 ∧ (s.core c).due = false ∧ s.bpHit c (s.core c).pc = true ∧ (s.core c).wbuf = [] ∧ (s.core c).wait = .none ∧ s.quiet) ∧
    (∃ (c : CoreN) (s : State), s.bpHit c (s.core c).pc = false) :=
  ⟨⟨31, (aft [(SepStat.state 31, 2)]).setCore 31 { wait := .event 4 1, pc := 8 }, by decide +kernel, by decide +kernel, .inr (.inl ⟨4, 1, by decide +kernel, by decide +kernel⟩), by decide +kernel⟩,
   ⟨31, ⟨4, 5, []⟩, (aft [(SepStat.state 31, 1)]).setCore 31 { atom := some ⟨4, 5, []⟩, pc := 8 }, by decide +kernel⟩,
   ⟨31, aft [(SepStat.state 31, 5)], by decide +kernel⟩,
   ⟨31, 3, ⟨4, 5, []⟩, (aft [(SepStat.state 31, 1)]).setCore 31 { atom := some ⟨4, 5, []⟩, haltPend := some 3, pc := 8 }, by decide +kernel⟩,
   ⟨31, State.reset, by decide +kernel⟩,
   ⟨31, (aft [(SepStat.state 31, 4), (SepDbgCtl.haltReq 31, 1)]).setCore 31 { pc := 8 }, by decide +kernel⟩,
   ⟨31, aft [(SepStat.state 31, 1)], by decide +kernel⟩,
   ⟨31, 1, 2, 3, ((coreAt 31 8 (encA 0x01 1 2 3) { x := [(2, 5), (3, 6)] }).setCoreState 31 4).rset (SepDpc.reg 31) 8, ((((coreAt 31 8 (encA 0x01 1 2 3) { x := [(2, 5), (3, 6)] }).setCoreState 31 4).rset (SepDpc.reg 31) 8).setCore 31 { (((coreAt 31 8 (encA 0x01 1 2 3) { x := [(2, 5), (3, 6)] }).setCoreState 31 4).rset (SepDpc.reg 31) 8).core 31 with pc := (((coreAt 31 8 (encA 0x01 1 2 3) { x := [(2, 5), (3, 6)] }).setCoreState 31 4).rset (SepDpc.reg 31) 8).rget (SepDpc.reg 31) }).setCoreState 31 1, by decide +kernel, by decide +kernel, by decide +kernel, rfl, ready_of (by decide +kernel), by decide +kernel⟩,
   ⟨31, (aft [(SepStat.state 31, 1), (SepDbgCtl.bp1En 31, 1), (SepDbgBp.addr 31 1, 2)]).setCore 31 { pc := 8 }, by decide +kernel⟩,
   ⟨31, State.reset, by decide +kernel⟩⟩

theorem witness_RegisterWrites :
    (∃ (m : Master) (c : CoreN) (value : Word) (s : State), m.val < 32 ∧ s.inReset = false ∧ s.openPair m 18 = none ∧ s.quiet) ∧
    (∃ (m : Master) (addr : BitVec 24) (len : Nat) (value : Word) (s : State), s.deaf m = false ∧ (addr.toNat % 4 ≠ 0 ∨ len ≠ 4) ∧ s.quiet ∧ s.fbit (IntegBuserr0.valid (viewPart m)) = false) ∧
    (∃ (m : Master) (value : Word) (s : State), m.val < 32 ∧ s.inReset = false ∧ s.openPair m 2 = none ∧ s.quiet) ∧
    (∃ (m : Master) (value : Word) (x : DPair) (s : State), m.val < 32 ∧ s.inReset = false ∧ s.pairs = [x] ∧ x = ⟨m, 2, IntegDigRef.reg, value, x.openedAt, false⟩ ∧ s.ticks - x.openedAt ≤ 156 ∧ s.quiet) ∧
    (∃ (m : Master) (row : Fin 19) (x : DPair) (s : State), s.openPair m row = some x ∧ x.expired = false) :=
  ⟨⟨31, 0, 5, State.reset, by decide +kernel⟩,
   ⟨47, 2, 4, 5, State.reset, by decide +kernel⟩,
   ⟨0, 5, State.reset, by decide +kernel⟩,
   ⟨0, 5, ⟨0, 2, IntegDigRef.reg, 5, 0, false⟩, late { State.reset with pairs := [⟨0, 2, IntegDigRef.reg, 5, 0, false⟩] } 156, by decide +kernel⟩,
   ⟨47, 2, ⟨47, 2, IntegDigRef.reg, 5, 0, false⟩, late { State.reset with pairs := [⟨47, 2, IntegDigRef.reg, 5, 0, false⟩] } 157, by decide +kernel⟩⟩

theorem witness_BusAccesses :
    (∃ (m : Master) (off : BitVec 26) (b : Byte) (data : List (Option Byte)) (a : Nat) (r : TblRegion) (s : State), s.deaf m = false ∧ (isHost m = true ∨ m = 49) ∧ data.head? = some (some b) ∧ off.toNat % 64 + data.length ≤ 64 ∧ s.tblResolve m off.toNat = some a ∧ tblRegion a = some r ∧ s.tblRefused m r = none ∧ s.fbit MemFlipT.arm = false) ∧
    (∃ (m : Master) (c : CoreN) (o : Nat) (bytes : List Byte) (s : State), (m = 49 ∧ s.sys.trstN = true ∧ c ≠ 0 ∨ m = 32 ∧ s.fbit (SepCfg.hostCtl c) = true) ∧ s.inReset = false ∧ bytes ≠ [] ∧ o / 64 = (o + bytes.length - 1) / 64 ∧ o + bytes.length ≤ 0x8000 ∧ s.fbit MemFlipT.arm = false) ∧
    (∃ (m : Master) (off : BitVec 26) (b : Byte) (data : List (Option Byte)) (cause : Nat) (s : State), s.deaf m = false ∧ data.head? = some (some b) ∧ off.toNat % 64 + data.length ≤ 64 ∧ s.fbit (IntegBuserr0.valid (viewPart m)) = false ∧ (isHost m = false ∧ m ≠ 49 ∧ cause = 1 ∨ (isHost m = true ∨ m = 49) ∧
          (s.tblResolve m off.toNat = none ∧ cause = 1 ∨
           ∃ a r, s.tblResolve m off.toNat = some a ∧ tblRegion a = some r ∧ s.tblRefused m r = some cause))) ∧
    (∃ (m : Master) (off : BitVec 26) (data : List (Option Byte)) (n : Nat) (s : State), s.deaf m = false ∧ (isHost m = true ∨ m = 49) ∧ n = 64 - off.toNat % 64 ∧ n < data.length ∧ off.toNat + n < 2 ^ 26) ∧
    (∃ (port : Fin 8) (reqs : List Master) (m : Nat) (s : State), s.inReset = false ∧ s.fget GlbPhase.phase = 1 ∧ port.val < 5 ∧ (robin (SMap.getD s.ports port {}).last).find? (fun n => (reqs.map Fin.val).contains n && (n != 49 || s.sys.trstN) && n != 51) = some m) ∧
    (∃ (port : Fin 8) (reqs : List Master) (m : Nat) (best : Nat) (p : PortSt) (s : State), s.inReset = false ∧ SMap.getD s.ports port {} = p ∧ best = (((robin p.last).filter fun n => (reqs.map Fin.val).contains n && (n != 49 || s.sys.trstN) &&
          (n == 51) == (decide (5 ≤ port.val) && p.stepNo % 16 == 15)).map (s.qosNow p)).foldl max 0 ∧ (robin p.last).find? (fun n => (reqs.map Fin.val).contains n && (n != 49 || s.sys.trstN) &&
          (n == 51) == (decide (5 ≤ port.val) && p.stepNo % 16 == 15) && (s.fget GlbPhase.phase == 1 || s.qosNow p n == best)) = some m) ∧
    (∃ (port : Fin 8) (p : PortSt) (s : State), s.inReset = false ∧ SMap.getD s.ports port {} = p) ∧
    (∃ (addr : BitVec 24) (r : RegAt) (s : State), s.deaf 49 = false ∧ addr.toNat % 4 = 0 ∧ s.resolve 49 (addr.toNat % 2 ^ 22) = some r ∧ (r.block ≠ .sep ∨ s.jtagBarred 49 r.inst false = false)) ∧
    (∃ (addr : BitVec 24) (value : Word) (s : State), s.deaf 49 = false) ∧
    (∃ (off : BitVec 26) (data : List (Option Byte)) (s : State), s.deaf 49 = false) ∧
    (∃ (off : BitVec 26) (len : Nat) (bytes : List Byte) (s : State), s.deaf 49 = false ∧ bytes.length = len ∧ (inCore0 off.toNat len = false ∨ s.jtagBarred 49 0 false = false) ∧ s.tflip = [] ∧ (∀ i < len, tblRegion (off.toNat + i) ≠ none ∧ s.tstored (off.toNat + i) = bytes[i]?)) ∧
    (∃ (c : CoreN) (i : BitVec 8) (s : State), s.deaf 49 = false ∧ s.jtagBarred 49 c false = false ∧ s.coreState c = 4 ∧ i.toNat < 16) ∧
    (∃ (c : CoreN) (i : BitVec 8) (v : Word) (s : State), s.deaf 49 = false ∧ s.jtagBarred 49 c false = false ∧ s.coreState c = 4 ∧ (s.core c).csr c i.toNat = some v) ∧
    (∃ (c : CoreN) (i : BitVec 8) (value : Word) (s : State), s.deaf 49 = false ∧ s.jtagBarred 49 c true = false ∧ s.coreState c = 4 ∧ i.toNat < 16) ∧
    (∃ (c : CoreN) (csr : Bool) (i : BitVec 8) (value : Word) (s : State), s.deaf 49 = false ∧ s.fbit (IntegBuserr0.valid 0) = false ∧ (s.jtagBarred 49 c true = true ∨ s.coreState c ≠ 4)) ∧
    (∃ (a : JtagAccess) (s : State), s.deaf 49 = true) ∧
    (∃ (addr : BitVec 24) (value : Word) (s : State), s.inReset = false ∧ s.fbit MgmtI2cTgt.wrEn = false) ∧
    (∃ (addr : BitVec 24) (value : Word) (s : State), s.inReset = false ∧ s.fbit MgmtI2cTgt.wrEn = true) ∧
    (∃ (addr : BitVec 24) (value : Word) (c : CoreN) (s : State), s.inReset = false ∧ s.fbit MgmtI2cTgt.wrEn = true ∧ s.openPair 32 18 = none ∧ s.quiet ∧ addr.toNat = SepMboxIn.reg c ∧ s.coreState c ≠ 0 ∧ s.coreState c ≠ 6) ∧
    (∃ (addr : BitVec 24) (r : RegAt) (s : State), s.inReset = false ∧ addr.toNat % 4 = 0 ∧ s.resolve 32 (addr.toNat % 2 ^ 22) = some r) ∧
    (∃ (addr : BitVec 24) (s : State), s.inReset = false) :=
  ⟨⟨32, BitVec.ofNat 26 (sepBase 31 + 0xBFFC), 1, [some 1, none, some 3], sepBase 31 + 0xBFFC, .sepData 31 0x7FFC, aft [(SepCfg.hostCtl 31, 1)], by decide +kernel⟩,
   ⟨32, 31, 0x7FFC, [1, 2, 3, 4], aft [(SepCfg.hostCtl 31, 1)], by decide +kernel⟩,
   ⟨47, 0x3C0000, 1, [some 1], 1, State.reset, by decide +kernel, by decide +kernel, by decide +kernel, by decide +kernel, .inr ⟨.inl (by decide +kernel), .inl (by decide +kernel)⟩⟩,
   ⟨32, BitVec.ofNat 26 (sepBase 31 + 0x403E), [some 1, some 2, some 3], 2, aft [(SepCfg.hostCtl 31, 1)], by decide +kernel⟩,
   ⟨4, [3, 31], 31, { aft [(GlbPhase.phase, 1)] with ports := [(4, { last := 30 })] }, by decide +kernel⟩,
   ⟨7, [3, 31, 51], 51, 0, { last := 30, stepNo := 15 }, { State.reset with ports := [(7, { last := 30, stepNo := 15 })] }, by decide +kernel⟩,
   ⟨7, {}, State.reset, by decide +kernel⟩,
   ⟨0, (State.resolve { State.reset with sys := { trstN := true } } 49 0).get (by decide +kernel), { State.reset with sys := { trstN := true } }, by decide +kernel, by decide +kernel, (by simp only [BitVec.toNat_ofNat, Nat.zero_mod, Option.some_get]; rfl), by decide +kernel⟩,
   ⟨0, 1, { State.reset with sys := { trstN := true } }, by decide +kernel⟩,
   ⟨0, [some 1], { State.reset with sys := { trstN := true } }, by decide +kernel⟩,
   ⟨BitVec.ofNat 26 (sepBase 31 + 0x4000), 2, [7, 8], { State.reset with sys := { trstN := true }, tbl := [(sepBase 31 + 0x4000, 7), (sepBase 31 + 0x4001, 8)] }, by decide +kernel⟩,
   ⟨31, 15, ({ State.reset with sys := { trstN := true } }.setCoreState 31 4).setCore 31 { x := [(15, 6)] }, by decide +kernel⟩,
   ⟨31, 2, 6, ({ State.reset with sys := { trstN := true } }.setCoreState 31 4).setCore 31 { epc := 6 }, by decide +kernel⟩,
   ⟨31, 15, 9, { State.reset with sys := { trstN := true } }.setCoreState 31 4, by decide +kernel⟩,
   ⟨0, false, 15, 9, { State.reset with sys := { trstN := true } }, by decide +kernel⟩,
   ⟨.readReg 0, State.reset, by decide +kernel⟩,
   ⟨0, 1, State.reset, by decide +kernel⟩,
   ⟨BitVec.ofNat 24 (SepMboxIn.reg 0), 9, aft [(MgmtI2cTgt.wrEn, 1), (SepStat.state 0, 1)], by decide +kernel⟩,
   ⟨BitVec.ofNat 24 (SepMboxIn.reg 0), 9, 0, aft [(MgmtI2cTgt.wrEn, 1), (SepStat.state 0, 1)], by decide +kernel⟩,
   ⟨0, (State.resolve State.reset 32 0).get (by decide +kernel), State.reset, by decide +kernel, by decide +kernel, (by simp only [BitVec.toNat_ofNat, Nat.zero_mod, Option.some_get]; rfl)⟩,
   ⟨0, State.reset, by decide +kernel⟩⟩

/-- A command answers a next state of which the test holds. -/
def nextIs (i : Instr) (s : State) (p : State → Bool) : Bool := match exec i s with | .next t => p t | _ => false

/-- Every command answers a next state, so the hypothesis of the frames and of the kept queue is met in every state. -/
theorem witness_frames (i : Instr) (s : State) : ∃ t, exec i s = .next t := by cases i <;> exact ⟨_, rfl⟩

theorem witness_StepTakesFront : State.reset.pending = [] := rfl

theorem witness_TrafficFrames : ∃ t, exec (.losDeclare 95) (aft [(GrpCfg.en 23, 1), (LaneCfg.en 95, 1)]) = .next t := witness_frames _ _

theorem witness_TimingAndCascadeFrames : ∃ t, exec (.claimVacancy) State.reset = .next t := witness_frames _ _

theorem witness_HostAndMemoryFrames : ∃ t, exec (.hbmDieFailReport 1 11) State.reset = .next t := witness_frames _ _

theorem witness_CanonicalKept : ∃ t, State.reset.canonical ∧ step { State.reset with pending := [.losDeclare 0] } = .next t :=
  (witness_frames (.losDeclare 0) State.reset).elim fun t h => ⟨t, ⟨by decide +kernel, by decide +kernel, by decide +kernel, by decide +kernel⟩, h⟩

theorem witness_InstructionWords : sepiaEncode (.slock 31 15 63 true) = some 0xCBC0007F ∧ sepiaDecode 31 0xCBC0007F = some (.slock 31 15 63 true) := by
  decide +kernel

theorem witness_LineCodes : (0 : Nat) ≤ 5120 ∧ (5120 : Nat) ≤ 5120 := by decide

/-- The words of SepiaArithmetic, at extreme operands. -/
def arithmeticWords : List Word :=
  [encA 0x01 0 15 3, encA 0x02 1 2 3, encA 0x03 1 2 3, encA 0x04 1 2 3, encA 0x05 1 2 3, encA 0x06 1 2 3, encA 0x07 1 2 3, encA 0x08 1 2 3,
    encA 0x09 1 2 3, encA 0x0A 1 2 3, encA 0x0B 15 0 15] ++
  [encI 0x10 1 2 0x3FFFF, encI 0x11 1 2 0x3FFFF, encI 0x12 1 2 0x20000, encI 0x13 1 2 0, encI 0x14 1 2 31, encI 0x15 1 2 31, encI 0x16 1 2 0,
    encI 0x17 15 0 0x3FFF]

theorem witness_SepiaArithmetic : ∀ w ∈ arithmeticWords, CoreReady (coreAt 5 8 w {}) 5 w := fun w h =>
  ready_of (List.all_eq_true.mp (by decide +kernel : (arithmeticWords.all fun w => readyB (coreAt 5 8 w {}) 5 w) = true) w h)

/-- A core about to load or store at the end of its data memory. -/
def atData (w : Word) : State :=
  (coreAt 5 8 w { x := [(2, 0x17FFC)], wbuf := [⟨0x20008, [1, 0, 0, 0], 4⟩] }).twriteN (memOffset 5 .data 0x17FFC) [1, 2, 3, 4]

/-- The words of SepiaMemory with the widths of their accesses. -/
def memoryWords : List (Word × Nat) :=
  [(encI 0x18 1 2 0, 4), (encI 0x19 0 2 2, 2), (encI 0x1A 15 2 3, 1), (encI 0x1C 1 2 0, 4), (encI 0x1D 0 2 2, 2), (encI 0x1E 15 2 3, 1)]

/-- A core in a sequence that holds one store, at the end of its data memory. -/
def atHeld (w : Word) : State := coreAt 5 8 w { x := [(2, 0x17FFC)], atom := some ⟨4, 3, [⟨0x17FFC, [1, 2, 3, 4], 4⟩]⟩ }

/-- What an access of SepiaMemory asks beside CoreReady: its region and alignment, and no store there that waits. -/
def reachesData (s : State) (e : Word × Nat) : Bool :=
  let a := memAddr (s.xreg 5 2) (BitVec.ofNat 18 e.1.toNat)
  regionOf 5 a == some .data && a.toNat % e.2 == 0 && (s.core 5).wbuf.all fun x => (regionOf 5 x.addr).map Region.order != some Region.data.order

theorem witness_SepiaMemory :
    (∀ e ∈ memoryWords, CoreReady (atData e.1) 5 e.1 ∧ ((atData e.1).core 5).atom = none ∧ ((atData e.1).core 5).wbuf.length < 4 ∧
      reachesData (atData e.1) e = true ∧
      ((atData e.1).tpeekN (memOffset 5 .data (memAddr ((atData e.1).xreg 5 2) (BitVec.ofNat 18 e.1.toNat))) e.2).isSome) ∧
    (∀ e ∈ [(encI 0x18 1 2 0, 4), (encI 0x1C 1 2 0, 4)], CoreReady (atHeld e.1) 5 e.1 ∧ reachesData (atHeld e.1) e = true) ∧
    (CoreReady (coreAt 0 8 (encI 0x18 1 2 0) { x := [(2, 0x8FFFC)] }) 0 (encI 0x18 1 2 0) ∧ regionOf 0 (memAddr 0x8FFFC 0) = some .rom) ∧
    (CoreReady (coreAt 5 8 (encI 0x18 1 2 0) { x := [(2, BitVec.ofNat 32 (0x40000000 + SepMboxIn.reg 31))] }) 5 (encI 0x18 1 2 0) ∧
      (memAddr (BitVec.ofNat 32 (0x40000000 + SepMboxIn.reg 31)) 0).toNat = 0x40000000 + SepMboxIn.reg 31) :=
  ⟨fun e h => ⟨ready_of (List.all_eq_true.mp (by decide +kernel : (memoryWords.all fun e => readyB (atData e.1) 5 e.1) = true) e h),
    of_decide_eq_true (List.all_eq_true.mp (by decide +kernel : (memoryWords.all fun e =>
      decide (((atData e.1).core 5).atom = none ∧ ((atData e.1).core 5).wbuf.length < 4 ∧ reachesData (atData e.1) e = true ∧
        ((atData e.1).tpeekN (memOffset 5 .data (memAddr ((atData e.1).xreg 5 2) (BitVec.ofNat 18 e.1.toNat))) e.2).isSome)) = true) e h)⟩,
    fun e h => ⟨ready_of (List.all_eq_true.mp
        (by decide +kernel : (([(encI 0x18 1 2 0, 4), (encI 0x1C 1 2 0, 4)] : List (Word × Nat)).all fun e => readyB (atHeld e.1) 5 e.1) = true) e h),
      List.all_eq_true.mp
        (by decide +kernel : (([(encI 0x18 1 2 0, 4), (encI 0x1C 1 2 0, 4)] : List (Word × Nat)).all fun e => reachesData (atHeld e.1) e) = true) e h⟩,
    ⟨ready_of (by decide +kernel), by decide +kernel⟩, ⟨ready_of (by decide +kernel), by decide +kernel⟩⟩

/-- The words of SepiaJumps, back to the first word of instruction memory and on to its last. -/
def jumpWords : List Word :=
  [encI 0x20 3 5 0x3FFFE, encI 0x21 3 5 0xFFD, encI 0x22 2 3 1, encI 0x23 2 3 0x40, encJ 0x28 0x3FFFFFE, encJ 0x29 0xFFD, encA 0x2A 0 4 0]

theorem witness_SepiaJumps : (∀ w ∈ jumpWords, CoreReady (coreAt 5 8 w { x := [(4, 0x3FFC)] }) 5 w) ∧
    ([(0x3FFFE : BitVec 18), 0xFFD, 1, 0x40].all fun off =>
      ((8 : Word) + off.signExtend 32 * 4).toNat % 4 == 0 && fetchable 5 ((8 : Word) + off.signExtend 32 * 4)) = true ∧
    ([(0x3FFFFFE : BitVec 26), 0xFFD].all fun far =>
      ((8 : Word) + far.signExtend 32 * 4).toNat % 4 == 0 && fetchable 5 ((8 : Word) + far.signExtend 32 * 4)) = true ∧
    (0x3FFC : Word).toNat % 4 = 0 ∧ fetchable 5 0x3FFC = true :=
  ⟨fun w h => ready_of (List.all_eq_true.mp
      (by decide +kernel : (jumpWords.all fun w => readyB (coreAt 5 8 w { x := [(4, 0x3FFC)] }) 5 w) = true) w h),
    by decide +kernel, by decide +kernel, by decide +kernel, by decide +kernel⟩

/-- The words of SepiaSystem with the core before each. -/
def systemWords : List (Word × CoreSt) :=
  [(encI 0x30 1 0 0, {}), (encI 0x30 1 0 9, {}), (encI 0x31 0 2 7, { x := [(2, 0x55)] }), (encI 0x36 0 0 0, { wbuf := [⟨0x17FFC, [1, 2, 3, 4], 4⟩] }),
    (encI 0x34 0 0 0, {}), (encI 0x35 0 0 0, { atom := some ⟨4, 31, []⟩ }), (encI 0x35 0 0 0, { atom := some ⟨4, 31, [⟨0x17FFC, [1], 4⟩]⟩ }),
    (encI 0x37 1 0 6, { evpend := 5 }), (encI 0x37 1 0 2, { evpend := 5 })]

theorem witness_SepiaSystem : (∀ e ∈ systemWords, CoreReady (coreAt 5 8 e.1 e.2) 5 e.1 ∧ (coreAt 5 8 e.1 e.2).fbit MemFlipT.arm = false) ∧
    ((coreAt 5 8 0 {}).core 5).csr 5 0 ≠ none ∧ ((coreAt 5 8 0 {}).core 5).setCsr 7 0x55 0 ≠ none ∧ (5 : Nat) &&& 6 ≠ 0 ∧ (5 : Nat) &&& 2 = 0 ∧
    regionOf 5 0x17FFC = some .data :=
  ⟨fun e h => ⟨ready_of (List.all_eq_true.mp (by decide +kernel : (systemWords.all fun e => readyB (coreAt 5 8 e.1 e.2) 5 e.1) = true) e h),
    of_decide_eq_true (List.all_eq_true.mp
      (by decide +kernel : (systemWords.all fun e => decide ((coreAt 5 8 e.1 e.2).fbit MemFlipT.arm = false)) = true) e h)⟩,
    by decide +kernel, by decide +kernel, by decide, by decide, by decide +kernel⟩

/-- Core 5 before a semaphore instruction, with semaphores held as given. -/
def atSem (w : Word) (m : SMap SemSt) : State := { coreAt 5 8 w {} with sems := m }

/-- Core 9 waits for semaphore 0, which core 5 holds. -/
def atAwaited (w : Word) : State :=
  (atSem w [(0, { holder := some 5, waiters := [9] })]).setCore 9 { wait := .lock 0 3, pc := 0x40 }

/-- The words of SepiaSemaphores with the semaphores before each. -/
def semaphoreWords : List (Word × SMap SemSt) :=
  [(encI 0x32 1 0 127, [(3, { holder := some 5 }), (63, { abandoned := true })]), (encI 0x32 1 0 70, [(6, { holder := some 9 })]),
    (encI 0x32 1 0 6, [(6, { holder := some 9, waiters := [4] })]), (encI 0x33 1 0 0, [(0, { holder := some 5 })]),
    (encI 0x33 1 0 0, [(0, { holder := some 37 })])]

theorem witness_SepiaSemaphores :
    (∀ e ∈ semaphoreWords, CoreReady (atSem e.1 e.2) 5 e.1 ∧ ((atSem e.1 e.2).core 5).atom = none) ∧
    (CoreReady (atAwaited (encI 0x33 1 0 0)) 5 (encI 0x33 1 0 0) ∧ ((atAwaited (encI 0x33 1 0 0)).core 9).wait = .lock 0 3 ∧
      ((atAwaited (encI 0x33 1 0 0)).sem 0).waiters = [9]) ∧
    (semaphoreWords.take 3).all (fun e => ((atSem e.1 e.2).semsHeld 5).all fun j => decide (j < e.1.toNat % 64)) = true :=
  ⟨fun e h => ⟨ready_of (List.all_eq_true.mp (by decide +kernel : (semaphoreWords.all fun e => readyB (atSem e.1 e.2) 5 e.1) = true) e h),
    of_decide_eq_true (List.all_eq_true.mp
      (by decide +kernel : (semaphoreWords.all fun e => decide (((atSem e.1 e.2).core 5).atom = none)) = true) e h)⟩,
    ⟨ready_of (by decide +kernel), by decide +kernel, by decide +kernel⟩, by decide +kernel⟩

/-- The words of SepiaTraps with the core before each. -/
def trapWords : List (Word × CoreSt) :=
  [(encI 0x38 0 0 0x3FFFF, { ie := true }), (0, {}), (encI 0x18 1 2 1, { x := [(2, 0x10000)] }), (encI 0x1C 1 2 0, { x := [(2, 0x50000)] }),
    (encA 0x2A 0 2 0, { x := [(2, 6)] }), (encI 0x20 2 2 0x1000, {}), (encI 0x30 1 0 0xC, {}), (encI 0x31 0 1 0xFF, {}), (encI 0x37 1 0 0, {}),
    (encI 0x35 0 0 0, {}), (encI 0x3A 0 0 0, {})]

theorem witness_SepiaTraps : (∀ e ∈ trapWords, CoreReady (coreAt 5 8 e.1 e.2) 5 e.1 ∧ e.2.atom = none ∧ e.2.wbuf = [] ∧ e.2.wait = .none ∧ e.2.inTrap = false) ∧
    sepiaDecode 5 0 = none ∧ regionOf 5 (memAddr 0x10000 1) = some .data ∧ (memAddr 0x10000 1).toNat % 4 ≠ 0 ∧ regionOf 5 (memAddr 0x50000 0) = none ∧
    ({} : CoreSt).csr 5 0xC = none ∧ ({} : CoreSt).setCsr 0xFF 0 0 = none ∧ fetchable 5 ((8 : Word) + (0x1000 : BitVec 18).signExtend 32 * 4) = false ∧
    (coreAt 5 8 0 { ie := true, evpend := 5, ieMask := 4 }).quiet ∧ (5 : Nat) &&& 4 ≠ 0 :=
  ⟨fun e h => ⟨ready_of (List.all_eq_true.mp (by decide +kernel : (trapWords.all fun e => readyB (coreAt 5 8 e.1 e.2) 5 e.1) = true) e h),
    of_decide_eq_true (List.all_eq_true.mp (by decide +kernel : (trapWords.all fun e =>
      decide (e.2.atom = none ∧ e.2.wbuf = [] ∧ e.2.wait = .none ∧ e.2.inTrap = false)) = true) e h)⟩,
    by decide +kernel⟩

/-! ## Commands that are not well formed -/

theorem test_register_write_ill_formed : wellFormed (.registerWrite 50 0 4 0) = false ∧ wellFormed (.registerWrite 0 0 0 0) = false := by decide
theorem test_d_pair_ill_formed : wellFormed (.dPairFirstWrite 51 0 0) = false ∧ wellFormed (.dPairTimeout 50 0) = false := by decide
theorem test_table_write_ill_formed : wellFormed (.tableWrite 0 0 [some 0]) = false ∧ wellFormed (.tableWrite 32 0 []) = false ∧
    wellFormed (.tableWrite 32 0x3FFFFFF [some 0, some 0]) = false := by decide
theorem test_grant_ill_formed : wellFormed (.busPieceGrant 0 [3, 3]) = false := by decide
theorem test_jtag_ill_formed : wellFormed (.jtagAccess (.readTable 0 0)) = false ∧ wellFormed (.jtagAccess (.writeTable 0x3FFFFFF [some 0, some 0])) = false := by decide
theorem test_release_read_ill_formed : wellFormed (.releaseRead 0 (.klf 96)) = false ∧ wellFormed (.releaseRead 0 (.eth 96)) = false ∧
    wellFormed (.releaseRead 0 (.capture 64)) = false ∧ wellFormed (.releaseRead 0 (.cascade 4)) = false := by decide
theorem test_port_ill_formed : wellFormed (.esmcQlTimeout 96) = false ∧ wellFormed (.ethPacketBuild 0 99) = false := by decide
theorem test_pace_window_ill_formed : wellFormed (.paceWindow []) = false := by decide
theorem test_doorbell_ill_formed : wellFormed (.doorbell 0 0 0 0) = false ∧ wellFormed (.doorbell 0 0 9 0) = false := by decide
theorem test_illegal_opcode_ill_formed : wellFormed (.illegalOpcode 0 (encA 1 0 0 0)) = false := by decide +kernel
theorem test_fifo_ill_formed : wellFormed (.fifoData 0 0 0) = false ∧ wellFormed (.fifoMark 25) = false ∧ wellFormed (.fifoRewind 0) = false ∧
    wellFormed (.fifoRelease 31) = false := by decide
theorem test_check_unit_ill_formed : wellFormed (.ckStart 1 true) = false ∧ wellFormed (.ckData 1 true [0]) = false ∧
    wellFormed (.ckData 1 false [0, 0, 0]) = false ∧ wellFormed (.ckResultLoad 24 true false 0) = false := by decide
theorem test_well_formed : wellFormed (.registerWrite 49 0 4 0) = true ∧ wellFormed (.releaseRead 0 (.klf 95)) = true ∧ wellFormed (.fifoMark 24) = true := by
  decide

/-! ## Words and check sequences -/

/-- ADDI x3, x2, -4: opcode 0x10, rd 3, ra 2, and 18 bits of -4 (R389, R390). -/
theorem test_word_addi : sepiaDecode 7 0b010000_0011_0010_111111111111111100 = some (.addi 7 3 2 (-4)) := by decide +kernel
/-- SUB x1, x2, x15 (R389, R390). -/
theorem test_word_sub : sepiaDecode 7 0b000010_0001_0010_1111_00000000000000 = some (.sub 7 1 2 15) := by decide +kernel
/-- STB x9, 1(x10): rs stands in the place of rd. -/
theorem test_word_stb : sepiaDecode 0 0b011110_1001_1010_000000000000000001 = some (.stb 0 9 10 1) := by decide +kernel
/-- JMP back by one word. -/
theorem test_word_jmp : sepiaDecode 0 0b101000_11111111111111111111111111 = some (.jmp 0 (-1)) := by decide +kernel
/-- A word with a bit in a field that must be 0 is illegal (R391). -/
theorem test_word_illegal : sepiaDecode 0 0b000001_0001_0010_0011_00000000000001 = none ∧ sepiaDecode 0 0 = none ∧
    sepiaDecode 0 0b111001_0001_0000_000000000000000000 = none := by decide +kernel

/-- The check value of CRC-32C over the digits 1 to 9, of the published parameters that R405 selection 0 states. -/
theorem test_crc32c : crc32c [0x31, 0x32, 0x33, 0x34, 0x35, 0x36, 0x37, 0x38, 0x39] = 0xE3069283 := by decide +kernel
/-- The check value of the CRC of R72 (0x1021, 0xFFFF, no reflection) over the same digits. -/
theorem test_crc16 : crc16 [0x31, 0x32, 0x33, 0x34, 0x35, 0x36, 0x37, 0x38, 0x39] = 0x29B1 := by decide +kernel
/-- R46: the pairs 00, 01, 11, 10 are the levels 0 to 3. -/
theorem test_pam4 : [pam4Level false false, pam4Level false true, pam4Level true true, pam4Level true false] = [0, 1, 2, 3] := by decide
/-- R142: of 4 grain slots one grain takes the second. -/
theorem test_grain_places : grainPlaces 4 1 = [1] ∧ grainPlaces 3 3 = [0, 1, 2] ∧ grainPlaces 5 0 = [] := by decide +kernel

/-! ## Single instructions -/

/-- Core 5 with words at the two ends of the signed range. -/
def q1 : CoreSt := { x := [(2, 0xFFFFFFF0), (3, 0x21)] }

/-- The instruction of this word writes v to x1 and counts n steps. -/
def writes (i : Instr) (w v : Word) (n : Nat) : Bool :=
  let s := coreAt 5 8 w q1
  nextIs i s fun t => decide (t.core 5 = ((s.core 5).setReg 1 v).passed n 12)

theorem test_add : writes (.add 5 1 2 3) (encA 0x01 1 2 3) 0x11 1 = true := by decide +kernel
theorem test_sra : writes (.sra 5 1 2 3) (encA 0x08 1 2 3) 0xFFFFFFF8 1 = true := by decide +kernel
theorem test_slt : writes (.slt 5 1 2 3) (encA 0x0A 1 2 3) 1 1 = true := by decide +kernel
theorem test_sltu : writes (.sltu 5 1 2 3) (encA 0x0B 1 2 3) 0 1 = true := by decide +kernel
theorem test_mul : writes (.mul 5 1 2 3) (encA 0x09 1 2 3) 0xFFFFFDF0 2 = true := by decide +kernel
theorem test_addi : writes (.addi 5 1 2 0x3FFFF) (encI 0x10 1 2 0x3FFFF) 0xFFFFFFEF 1 = true := by decide +kernel
theorem test_andi : writes (.andi 5 1 2 0x3FFFF) (encI 0x11 1 2 0x3FFFF) 0x3FFF0 1 = true := by decide +kernel
theorem test_lui : writes (.lui 5 1 0x3FFF) (encI 0x17 1 0 0x3FFF) 0xFFFC0000 1 = true := by decide +kernel
theorem test_x0 : nextIs (.addi 5 0 2 1) (coreAt 5 8 (encI 0x10 0 2 1) q1) (fun t => t.xreg 5 0 == 0 && (t.core 5).pc == 12) = true := by decide +kernel
/-- R416: 1 is refused while 6 is held, with result 2. -/
theorem test_slock_order : nextIs (.slock 5 1 1 false) (atSem (encI 0x32 1 0 1) [(6, { holder := some 5 })])
    (fun t => t.xreg 5 1 == 2 && (t.sem 1).holder == none) = true := by decide +kernel
/-- R394. -/
theorem test_rett : nextIs (.rett 5) (coreAt 5 8 (encI 0x39 0 0 0) { inTrap := true, pie := true, epc := 0x100 })
    (fun t => (t.core 5).pc == 0x100 && (t.core 5).ie && !(t.core 5).inTrap) = true := by decide +kernel
/-- R393: TRAP 7 saves the next pc and its cause. -/
theorem test_trap : nextIs (.trap 5 7) (coreAt 5 8 (encI 0x38 0 0 7) { ie := true })
    (fun t => (t.core 5).epc == 12 && (t.core 5).cause == 0x708 && (t.core 5).pc == 0x10 && !(t.core 5).ie && (t.core 5).pie) = true := by decide +kernel

end Sys2Proof.Tests
end

section
/-! PROOFS. How an instruction of a core that is ready to execute runs: what its issue comes to, and what its outcome leaves. -/

namespace Sys2Proof.Machine

theorem SMap.mem_of_find {α : Type} {m : SMap α} {k : Nat} {v : α} (h : SMap.find m k = some v) : (k, v) ∈ m := by
  induction m with
  | nil => simp [SMap.find] at h
  | cons e m ih =>
    obtain ⟨a, b⟩ := e
    simp only [SMap.find] at h
    split at h
    · subst_vars; simp_all
    · exact List.mem_cons_of_mem _ (ih h)

/-! ## Settling -/

/-- Nothing is asked of the core: no halt, no trap, no step. -/
structure CoreSt.Idle (q : CoreSt) : Prop where
  noHalt : q.haltPend = none
  noTrap : q.trapPend = none
  noStep : q.stepping = false
  noStepAsked : q.stepPend = false

theorem State.coreNeeds_of_idle {s : State} {c : Nat} (hq : (s.core c).Idle) (hrun : s.coreState c = 1) : s.coreNeeds c = false := by
  simp [State.coreNeeds, hq.noHalt, hq.noTrap, hq.noStep, hq.noStepAsked, hrun]

/-- A core that the map does not list needs nothing, so `quiet` speaks of every core. -/
theorem State.quiet_iff {s : State} : s.quiet ↔ ∀ d, s.coreNeeds d = false := by
  constructor
  · intro h d
    cases hf : SMap.find s.cores d with
    | none => simp [State.coreNeeds, State.core, SMap.getD, hf]
    | some q => simpa using List.all_eq_true.mp h _ (SMap.mem_of_find hf)
  · intro h
    simp [State.quiet, h]

theorem State.settle_of_quiet {s : State} (h : s.quiet) : s.settle = s := by
  have hnone : (s.cores.map (·.1)).find? s.coreNeeds = none := by
    simp [List.find?_eq_none, State.quiet_iff.mp h]
  simp [State.settle, State.settleN, hnone]

/-- Quiet is kept where only core c has changed, which runs with nothing asked of it. -/
theorem State.quiet_of_idle {s t : State} {c : Nat} (h : s.quiet) (hcore : ∀ d, d ≠ c → t.core d = s.core d)
    (hstate : ∀ d, d ≠ c → t.coreState d = s.coreState d) (hrun : t.coreState c = 1) (hq : (t.core c).Idle) : t.quiet := by
  refine State.quiet_iff.mpr fun d => ?_
  by_cases hd : d = c
  · subst hd; exact State.coreNeeds_of_idle hq hrun
  · have := State.quiet_iff.mp h d
    simpa only [State.coreNeeds, hcore d hd, hstate d hd] using this

theorem CoreReady.idle {s : State} {c : Nat} {w : Word} (h : CoreReady s c w) : (s.core c).Idle where
  noHalt := h.noHalt
  noTrap := h.noTrap
  noStep := h.noStep
  noStepAsked := by
    have := State.quiet_iff.mp h.quiet c
    simp only [State.coreNeeds, Bool.or_eq_false_iff] at this
    exact this.1.1.2

/-! ## Traces and counters that take no part -/

variable {s : State} {c : Nat} {pc : Word}

theorem State.vtInstr_untraced (h : (s.part 0).vtTags = []) (b : Bool) : s.vtInstr c pc b = none := by
  simp [State.vtInstr, h]

theorem State.vtPass_untraced (h : (s.part 0).vtTags = []) (b : Bool) (ks : List Nat) : s.vtPass c pc b ks = s := by
  simp [State.vtPass, State.vtInstr_untraced h]

theorem State.vtDone_untraced (h : (s.part 0).vtTags = []) (b : Bool) (outcome cause : Nat) : s.vtDone c pc b outcome cause = s := by
  simp [State.vtDone, State.vtInstr_untraced h]

theorem State.vtCandidate_off {p : Nat} (h : s.fbit (PerfVtCfg.en p) = false) (b : Bool) (unit : Nat) (mk : Nat → VtTag) :
    s.vtCandidate p b unit mk = s := by
  simp [State.vtCandidate, h]

theorem State.perfHit_off {p : Nat} (h : s.fbit (PerfCtl.run p) = false) (code arg n : Nat) : s.perfHit p code arg n = s := by
  simp [State.perfHit, h]

theorem State.fetchAhead_native (h : s.feature 0 1 = false) (next : Word) : s.fetchAhead c pc next = s := by
  simp [State.fetchAhead, h]

/-! ## The fetch -/

/-- Without a stored error, a byte read leaves the state. -/
theorem State.tread_clean (h : s.tflip = []) (a : Nat) : s.tread a = (s.tstored a, false, s) := by
  unfold State.tread
  split <;> simp_all [SMap.getD, SMap.find, popcount]

/-- A peek reads n + 1 bytes where it reads n, and one more is stored. -/
theorem State.tpeekN_succ {a n v : Nat} (h : s.tpeekN a (n + 1) = some v) :
    ∃ u b, s.tpeekN a n = some u ∧ s.tstored (a + n) = some b ∧ v = u + b.toNat * 256 ^ n := by
  simp only [State.tpeekN, List.range_succ, List.foldl_append, List.foldl_cons, List.foldl_nil] at h
  split at h
  next u b hu hb =>
    split at h
    · exact ⟨u, b, hu, hb, by simpa using h.symm⟩
    · cases h
  · cases h

/-- One byte of a consumer's read: the step that treadN repeats. -/
def readByte (p a unit kind : Nat) (acc : Option Nat × Bool × State) (i : Nat) : Option Nat × Bool × State :=
  let (b, found, s1) := acc.2.2.tread (a + i)
  let s2 := if found then s1.foundUncorrectable p 0 0 0 (BitVec.ofNat 32 (a + i)) unit kind else s1
  match acc.1, b with
  | some v, some x => (some (v + x.toNat * 256 ^ i), acc.2.1, s2)
  | _, none => (none, true, s2)
  | none, some _ => (none, acc.2.1, s2)

theorem State.treadN_eq_readByte (p a n unit kind : Nat) :
    s.treadN p a n unit kind =
      let r := (List.range n).foldl (readByte p a unit kind) (some 0, false, s)
      (r.1, if r.2.1 then r.2.2.poisonConsumed p 0 (BitVec.ofNat 32 a) unit kind else r.2.2) := rfl

/-- Without a stored error, a read of bytes that a peek sees is that peek, and leaves the state. -/
theorem State.treadN_of_tpeekN (hc : s.tflip = []) {a n v : Nat} (h : s.tpeekN a n = some v) (p unit kind : Nat) :
    s.treadN p a n unit kind = (some v, s) := by
  have hfold : (List.range n).foldl (readByte p a unit kind) (some 0, false, s) = (some v, false, s) := by
    induction n generalizing v with
    | zero => cases h; rfl
    | succ n ih =>
      obtain ⟨u, b, hu, hb, rfl⟩ := State.tpeekN_succ h
      rw [List.range_succ, List.foldl_append, ih hu]
      simp [readByte, State.tread_clean hc, hb]
  rw [State.treadN_eq_readByte, hfold]
  rfl

/-- The buffered stores add words that a fetch may return; the stored word stays one of them. -/
theorem State.mem_fetchWords {w : Word} (h : s.tpeekN (memOffset c .instr pc) 4 = some w.toNat) : w ∈ s.fetchWords c pc := by
  simp only [State.fetchWords, h]
  refine List.mem_map.mpr ⟨w.toNat, ?_, BitVec.eq_of_toNat_eq (by simp)⟩
  refine List.foldlRecOn (motive := fun ws => w.toNat ∈ ws) _ _ (List.mem_singleton_self _) fun ws hws x _ => ?_
  cases ws with
  | nil => exact hws
  | cons v ws => exact List.mem_cons_of_mem _ hws

theorem CoreReady.fetch {w : Word} (h : CoreReady s c w) : s.fetch c (s.core c).pc w (· == w) = (some (.inl w), s) := by
  have hfind : (s.fetchWords c (s.core c).pc).find? (· == w) = some w := by
    have hsome : ((s.fetchWords c (s.core c).pc).find? (· == w)).isSome :=
      List.find?_isSome.mpr ⟨w, State.mem_fetchWords h.word, beq_self_eq_true w⟩
    obtain ⟨v, hv⟩ := Option.isSome_iff_exists.mp hsome
    have hvw : v = w := by simpa using List.find?_some hv
    rw [hv, hvw]
  simp [State.fetch, h.aligned, h.place, hfind, State.treadN_of_tpeekN h.clean h.word]

/-! ## Issue -/

/-- Core c with the word w counted, in steps and among the instructions of an open sequence, and not yet executed. -/
def State.counted (s : State) (c : Nat) (w : Word) : State :=
  (s.setCore c { s.core c with atom := (s.core c).atom.map fun a => { a with count := a.count + 1 } }).coreSteps c (stepsOf (wbits w 26 6))

/-- Nothing but the cores and the semaphores has changed, and of the cores only core c. -/
structure OnlyCoreSems (c : Nat) (s t : State) : Prop where
  others : ∀ d, d ≠ c → t.core d = s.core d
  rest : t = { s with cores := t.cores, sems := t.sems }

theorem OnlyCoreSems.refl : OnlyCoreSems c s s := ⟨fun _ _ => rfl, rfl⟩

theorem OnlyCoreSems.setCore {u : State} (h : OnlyCoreSems c s u) (q : CoreSt) : OnlyCoreSems c s (u.setCore c q) where
  others d hd := (State.core_setCore_ne u q hd).trans (h.others d hd)
  rest := by simp only [State.setCore]; rw [h.rest]

theorem OnlyCoreSems.onlyCore {t : State} (h : OnlyCoreSems c s t) (hs : t.sems = s.sems) : OnlyCore c s t :=
  ⟨h.others, hs ▸ h.rest⟩

/-- A ready core issues its word: the word is counted, has its effect, and what follows comes after. -/
theorem CoreReady.issue {w : Word} (h : CoreReady s c w) (body : Body) :
    s.issue c true w body =
      ((body (s.core c).pc (s.counted c w)).1.follow c (s.core c).pc (body (s.core c).pc (s.counted c w)).2).countHalt c
        (stepsOf (wbits w 26 6)) := by
  have hdue : (s.core c).due = false := by simp [CoreSt.due, h.noTrap, h.noHalt, h.noStep]
  simp [State.issue, State.issueWith, State.counted, h.running, hdue, h.noBreak, h.fetch, h.rule, State.vtCandidate_off h.untagged,
    State.vtPass_untraced h.traceless]

/-- The opcode of a word of format I, M or S. -/
theorem wbits_encI (op : Nat) (rd ra : XReg) {imm : Nat} (hop : op < 64) (himm : imm < 2 ^ 18) : wbits (encI op rd ra imm) 26 6 = op := by
  simp only [wbits, encI, BitVec.toNat_ofNat]
  omega

/-- Every instruction but MUL counts one step (R380). -/
theorem stepsOf_encI {op : Nat} {rd ra : XReg} {imm : Nat} (hop : op < 64) (hmul : op ≠ 0x09) (himm : imm < 2 ^ 18) :
    stepsOf (wbits (encI op rd ra imm) 26 6) = 1 := by
  rw [wbits_encI op rd ra hop himm, stepsOf, if_neg hmul]

theorem CoreReady.counted_core {w : Word} (h : CoreReady s c w) :
    (s.counted c w).core c = (s.core c).passed (stepsOf (wbits w 26 6)) (s.core c).pc := by
  simp [State.counted, State.coreSteps, State.perfHit_off, h.uncounted, CoreSt.passed]

theorem CoreReady.counted_sems {w : Word} (h : CoreReady s c w) : (s.counted c w).sems = s.sems := by
  rw [State.counted, State.coreSteps, State.perfHit_off (by exact h.uncounted), State.setCore_sems, State.setCore_sems]

theorem CoreReady.counted_only {w : Word} (h : CoreReady s c w) : OnlyCoreSems c s (s.counted c w) := by
  rw [State.counted, State.coreSteps, State.perfHit_off (by exact h.uncounted)]
  exact (OnlyCoreSems.refl.setCore _).setCore _

/-! ## What follows an instruction -/

theorem State.follow_go (ht : (s.part 0).vtTags = []) (hn : s.feature 0 1 = false) (next : Word) :
    s.follow c pc (.go next) = s.setCore c { s.core c with pc := next } := by
  simp only [State.follow]
  rw [State.vtPass_untraced (by exact ht), State.vtDone_untraced (by exact ht), ite_self, State.fetchAhead_native (by exact hn)]

theorem State.follow_trap (ht : (s.part 0).vtTags = []) (cause epc tval : Word) :
    s.follow c pc (.trap cause epc tval) = s.coreTrap c true cause epc tval := by
  simp [State.follow, State.vtDone_untraced ht]

theorem State.countHalt_none (h : (s.core c).haltPend = none) (n : Nat) : s.countHalt c n = s := by
  simp [State.countHalt, h]

/-- An instruction that only core c and the semaphores feel, and that another follows, is done when the pc has moved. -/
theorem CoreReady.settle_go {w next : Word} (h : CoreReady s c w) {body : Body} {u : State}
    (hb : body (s.core c).pc (s.counted c w) = (u, .go next)) (hu : OnlyCoreSems c s u) (hq : (u.core c).Idle) :
    (s.issue c true w body).settle = u.setCore c { u.core c with pc := next } := by
  have hrest := hu.rest
  have hfollow : u.follow c (s.core c).pc (.go next) = u.setCore c { u.core c with pc := next } :=
    State.follow_go (by rw [hrest]; exact h.traceless) (by rw [hrest]; exact h.native) next
  rw [h.issue, hb, hfollow, State.countHalt_none (by simpa using hq.noHalt)]
  have hstate (d : Nat) : u.coreState d = s.coreState d := by rw [hrest]; rfl
  refine State.settle_of_quiet (State.quiet_of_idle (c := c) h.quiet (hu.setCore _).others (fun d _ => hstate d) ?_ ?_)
  · exact (hstate c).trans h.running
  · rw [State.core_setCore_same]
    exact ⟨hq.noHalt, hq.noTrap, hq.noStep, hq.noStepAsked⟩

theorem CoreSt.passed_idle {q : CoreSt} (h : q.Idle) (n : Nat) (pc : Word) : (q.passed n pc).Idle :=
  ⟨h.noHalt, h.noTrap, h.noStep, h.noStepAsked⟩

theorem CoreSt.setReg_idle {q : CoreSt} (h : q.Idle) (r : Nat) (v : Word) : (q.setReg r v).Idle := by
  unfold CoreSt.setReg
  split
  · exact h
  · exact ⟨h.noHalt, h.noTrap, h.noStep, h.noStepAsked⟩

/-- A register may be written before the pc has moved or after. -/
theorem CoreSt.setReg_passed (q : CoreSt) (n r : Nat) (v pc next : Word) :
    { (q.passed n pc).setReg r v with pc := next } = (q.setReg r v).passed n next := by
  unfold CoreSt.setReg
  split <;> rfl

/-- Nothing but the semaphores has changed. -/
def SameButSems (s t : State) : Prop := t = { s with sems := t.sems }

theorem SameButSems.refl : SameButSems s s := rfl

theorem SameButSems.setSem (i : Nat) (m : SemSt) : SameButSems s (s.setSem i m) := rfl

/-- An instruction that leaves a result, after a change of the semaphores alone. -/
theorem CoreReady.settle_result {w v : Word} {rd : Nat} (h : CoreReady s c w) {body : Body} {u : State}
    (hb : body (s.core c).pc (s.counted c w) = u.result c rd v (s.core c).pc) (hu : SameButSems (s.counted c w) u) :
    ∃ t, t = (s.issue c true w body).settle ∧ OnlyCoreSems c s t ∧ t.sems = u.sems ∧
      t.core c = ((s.core c).setReg rd v).passed (stepsOf (wbits w 26 6)) ((s.core c).pc + 4) := by
  have huc : u.core c = (s.core c).passed (stepsOf (wbits w 26 6)) (s.core c).pc := by rw [hu]; exact h.counted_core
  have hous : OnlyCoreSems c s u := by
    have hc := h.counted_only
    refine ⟨fun d hd => ?_, ?_⟩
    · rw [hu]; exact hc.others d hd
    · rw [hu, hc.rest]
  refine ⟨_, rfl, ?_⟩
  rw [h.settle_go hb (hous.setCore _) (by
    rw [State.core_setCore_same, huc]; exact CoreSt.setReg_idle (CoreSt.passed_idle h.idle _ _) _ _)]
  refine ⟨(hous.setCore _).setCore _, rfl, ?_⟩
  rw [State.core_setCore_same, State.core_setCore_same, huc, CoreSt.setReg_passed]

end Sys2Proof.Machine
end

section
/-! PROOFS. Semaphores (R416, R417): what a request and a release come to, for a core and for a host side. -/

namespace Sys2Proof.Machine

/-! ## A request and a release -/

section Request

variable {s : State} {h i : Nat}

theorem State.semPermitted_core (c : CoreN) : s.semPermitted c i = true := by
  simp [State.semPermitted, c.isLt]

theorem State.sem_congr {t : State} (hs : t.sems = s.sems) (i : Nat) : t.sem i = s.sem i := by
  simp only [State.sem, hs]

theorem State.semsHeld_congr {t : State} (hs : t.sems = s.sems) : t.semsHeld h = s.semsHeld h := by
  simp only [State.semsHeld, State.sem_congr hs]

theorem State.setSem_sems_congr {t : State} (hs : t.sems = s.sems) (i : Nat) (m : SemSt) : (t.setSem i m).sems = (s.setSem i m).sems := by
  simp only [State.setSem, hs]

/-- A request not above a held semaphore is refused with ORDER_FAULT and changes nothing. -/
theorem State.semTry_not_above {j : Nat} (hp : s.semPermitted h i = true) (hj : j ∈ s.semsHeld h) (hij : i ≤ j) :
    s.semTry h i = (2, s) := by
  have hany : ((s.semsHeld h).any fun j => decide (i ≤ j)) = true := List.any_eq_true.mpr ⟨j, hj, decide_eq_true hij⟩
  simp [State.semTry, hp, hany]

/-- A request above all held semaphores is answered busy, or grants the semaphore; only the semaphores change. -/
theorem State.semTry_above (hp : s.semPermitted h i = true) (habove : ∀ j ∈ s.semsHeld h, j < i) :
    (s.semTry h i).1 ∈ [0, 1, 4] ∧ SameButSems s (s.semTry h i).2 := by
  have hany : ((s.semsHeld h).any fun j => decide (i ≤ j)) = false := by simpa using habove
  simp only [State.semTry, hp, hany, Bool.not_true, Bool.false_eq_true, if_false]
  cases hh : (s.sem i).holder with
  | some k => exact ⟨by simp, SameButSems.refl⟩
  | none => exact ⟨by dsimp only; split <;> simp, SameButSems.setSem _ _⟩

/-- No result of a request above all held semaphores is ORDER_FAULT. -/
theorem ofNat_ne_order {r : Nat} (hr : r ∈ [0, 1, 4]) : BitVec.ofNat 32 r ≠ 2 := by
  fin_cases hr <;> decide

/-- A release of a held semaphore that nobody waits for frees it. -/
theorem State.semFree_held (hp : s.semPermitted h i = true) (hh : (s.sem i).holder = some h) (hw : (s.sem i).waiters = []) :
    s.semFree h i = (0, s.setSem i { s.sem i with holder := none }) := by
  simp [State.semFree, State.semGrant, hp, hh, hw]

end Request

variable {s : State}

/-! ## SLOCK and SFREE -/

section Core

variable {c : CoreN} {rd : XReg} {i : SemN}

/-- The word of SLOCK (R389). -/
abbrev slockWord (rd : XReg) (i : SemN) (nowait : Bool) : Word := encI 0x32 rd 0 (i + (if nowait then 64 else 0))

theorem stepsOf_slock (nowait : Bool) : stepsOf (wbits (slockWord rd i nowait) 26 6) = 1 :=
  stepsOf_encI (by omega) (by omega) (by split <;> omega)

theorem stepsOf_sfree : stepsOf (wbits (encI 0x33 rd 0 i) 26 6) = 1 := stepsOf_encI (by omega) (by omega) (by omega)

theorem bodySlock_of_semTry {nowait : Bool} {pc : Word} {r : Nat} {u : State} (htry : s.semTry c i = (r, u)) (hr : (r = 4 && !nowait) = false) :
    bodySlock c rd i nowait pc s = u.result c rd (BitVec.ofNat 32 r) pc := by
  simp only [bodySlock, htry, hr, Bool.false_eq_true, if_false]

theorem bodySfree_of_semFree {pc : Word} {r : Nat} {u : State} (hfree : s.semFree c i = (r, u)) :
    bodySfree c rd i pc s = u.result c rd (BitVec.ofNat 32 r) pc := by
  simp only [bodySfree, hfree]

/-- An SLOCK that need not wait is done with the result of its request in rd. -/
theorem CoreReady.slock_result {nowait : Bool} {r : Nat} {u : State} (hready : CoreReady s c (slockWord rd i nowait))
    (htry : (s.counted c (slockWord rd i nowait)).semTry c i = (r, u)) (hr : (r = 4 && !nowait) = false)
    (hu : SameButSems (s.counted c (slockWord rd i nowait)) u) :
    Answers (.slock c rd i nowait) s fun t => OnlyCoreSems c s t ∧ t.sems = u.sems ∧
      t.core c = ((s.core c).setReg rd (BitVec.ofNat 32 r)).passed 1 ((s.core c).pc + 4) := by
  obtain ⟨t, rfl, honly, hsems, hcore⟩ := hready.settle_result (body := bodySlock c rd i nowait) (v := BitVec.ofNat 32 r) (rd := rd)
    (bodySlock_of_semTry htry hr) hu
  rw [stepsOf_slock] at hcore
  exact ⟨_, rfl, honly, hsems, hcore⟩

/-- R416: SLOCK of a semaphore not above one the core holds is refused and changes nothing else. -/
theorem CoreReady.slock_not_above {nowait : Bool} {j : Nat} (hready : CoreReady s c (slockWord rd i nowait)) (hj : j ∈ s.semsHeld c)
    (hij : i.val ≤ j) :
    Answers (.slock c rd i nowait) s fun t =>
      t.core c = ((s.core c).setReg rd 2).passed 1 ((s.core c).pc + 4) ∧ OnlyCore c s t := by
  have hj' : j ∈ (s.counted c (slockWord rd i nowait)).semsHeld c := by rwa [State.semsHeld_congr hready.counted_sems]
  obtain ⟨t, ht, honly, hsems, hcore⟩ := hready.slock_result (State.semTry_not_above (State.semPermitted_core c) hj' hij) (by simp)
    (SameButSems.refl)
  exact ⟨t, ht, hcore, honly.onlyCore (hsems.trans hready.counted_sems)⟩

/-- R416: SLOCK with nowait of a semaphore above all that the core holds is not refused. -/
theorem CoreReady.slock_above (hready : CoreReady s c (slockWord rd i true)) (habove : ∀ j ∈ s.semsHeld c, j < i.val) :
    Answers (.slock c rd i true) s fun t => ∃ r : Word, r ≠ 2 ∧ t.core c = ((s.core c).setReg rd r).passed 1 ((s.core c).pc + 4) := by
  obtain ⟨hr, hu⟩ := State.semTry_above (s := s.counted c (slockWord rd i true)) (State.semPermitted_core c)
    (by rwa [State.semsHeld_congr hready.counted_sems])
  obtain ⟨t, ht, -, -, hcore⟩ := hready.slock_result (Prod.mk.eta).symm (by simp) hu
  exact ⟨t, ht, _, ofNat_ne_order hr, hcore⟩

/-- R416: SFREE of a held semaphore that nobody waits for frees it, whichever others the core holds. -/
theorem CoreReady.sfree_held (hready : CoreReady s c (encI 0x33 rd 0 i)) (hh : (s.sem i).holder = some c.val) (hw : (s.sem i).waiters = []) :
    Answers (.sfree c rd i) s fun t => OnlyCoreSems c s t ∧
      t.sems = (s.setSem i { s.sem i with holder := none }).sems ∧
      t.core c = ((s.core c).setReg rd 0).passed 1 ((s.core c).pc + 4) := by
  have hsem := State.sem_congr hready.counted_sems i
  have hfree : (s.counted c (encI 0x33 rd 0 i)).semFree c i =
      (0, (s.counted c (encI 0x33 rd 0 i)).setSem i { s.sem i with holder := none }) := by
    rw [State.semFree_held (State.semPermitted_core c) (hsem ▸ hh) (hsem ▸ hw), hsem]
  obtain ⟨t, rfl, honly, hsems, hcore⟩ := hready.settle_result (body := bodySfree c rd i) (v := BitVec.ofNat 32 0) (rd := rd)
    (u := (s.counted c (encI 0x33 rd 0 i)).setSem i { s.sem i with holder := none })
    (bodySfree_of_semFree hfree) (SameButSems.setSem _ _)
  rw [stepsOf_sfree] at hcore
  exact ⟨_, rfl, honly, hsems.trans (State.setSem_sems_congr hready.counted_sems i _), hcore⟩

end Core

/-! ## A host side -/

section HostSide

variable {p : Part} {i : SemN}

/-- R416: a read of SEM_ACQ for a semaphore not above one the host side holds returns ORDER_FAULT and changes nothing. -/
theorem Answers.semAcquireRead_not_above {j : Nat} (hpeek : s.peeks (32 + p) = false) (hp : s.semPermitted (32 + p) i = true)
    (hj : j ∈ s.semsHeld (32 + p)) (hij : i.val ≤ j) :
    Answers (.semAcquireRead p i) s fun t => t = { s with out := .readData (32 + p) 2 :: s.out } := by
  refine ⟨_, rfl, ?_⟩
  simp only [doSemAcquireRead, hpeek, State.semTry_not_above hp hj hij]
  rfl

/-- R416: a read of SEM_ACQ for a semaphore above all that the host side holds is not refused for its order. -/
theorem Answers.semAcquireRead_above (hpeek : s.peeks (32 + p) = false) (hp : s.semPermitted (32 + p) i = true)
    (habove : ∀ j ∈ s.semsHeld (32 + p), j < i.val) :
    Answers (.semAcquireRead p i) s fun t => ∃ r : Word, r ≠ 2 ∧ t.out.head? = some (.readData (32 + p) r) := by
  refine ⟨_, rfl, _, ofNat_ne_order (State.semTry_above hp habove).1, ?_⟩
  simp [doSemAcquireRead, hpeek]

/-- R416: a write of SEM_REL for a held semaphore that nobody waits for frees it, whichever others the host side holds. -/
theorem Answers.semReleaseWrite_held {value : Word} (hp : s.semPermitted (32 + p) i = true) (hh : (s.sem i).holder = some (32 + p.val))
    (hw : (s.sem i).waiters = []) :
    Answers (.semReleaseWrite p i value) s fun t =>
      t = (s.setSem i { s.sem i with holder := none }).fset (SemRelRes.result p) 0 := by
  refine ⟨_, rfl, ?_⟩
  simp only [doSemReleaseWrite, State.semFree_held hp hh hw]

end HostSide

/-! ## The order of semaphores -/

/-- Settles O48: the order is tested before anything else of a permitted request, and a release does not look at it. -/
theorem semaphoreOrder : Obligations.SemaphoreOrder := by
  unfold Obligations.SemaphoreOrder
  refine ⟨?slockRefused, ?acquireRefused, ?sfree, ?release, ?slockNotRefused, ?acquireNotRefused⟩
  case slockRefused => exact fun c rd i nowait j s hready _ hj hij => hready.slock_not_above hj hij
  case acquireRefused => exact fun p i j s hpeek hp hj hij => Answers.semAcquireRead_not_above hpeek hp hj hij
  case sfree =>
    intro c rd i j s hready _ hh hw _ _
    obtain ⟨t, ht, honly, hsems, hcore⟩ := hready.sfree_held hh hw
    have hsem (k : Nat) := State.sem_congr hsems k
    refine ⟨t, ht, ?_, hcore, by rw [honly.rest], fun k hk => ?_⟩
    · rw [hsem, State.sem_setSem_same]
    · rw [hsem, State.sem_setSem_ne _ _ hk]
  case release =>
    intro p i value j s hp hh hw _ _
    obtain ⟨t, ht, rfl⟩ := Answers.semReleaseWrite_held (value := value) hp hh hw
    refine ⟨_, ht, ?_, ?_, fun k hk => ?_, fun k hk => ?_⟩
    · rw [State.fset_sem, State.sem_setSem_same]
    · exact State.fget_fset_same _ _ _ (by simp [SemRelRes.result]) (by simp [SemRelRes.result])
    · exact State.rget_fset_ne _ _ _ _ (by simpa [SemRelRes.result] using hk)
    · rw [State.fset_sem, State.sem_setSem_ne _ _ hk]
  case slockNotRefused => exact fun c rd i s hready _ habove => hready.slock_above habove
  case acquireNotRefused => exact fun p i s hpeek hp habove => Answers.semAcquireRead_above hpeek hp habove

end Sys2Proof.Machine
end

section
/-! PROOFS. Stores to class T memory that drain, the entry into a trap handler (R393), and RETT (R394). -/

namespace Sys2Proof.Machine

section Trap

variable {s t u : State} {c : Nat}

/-! ## Stores that drain -/

/-- The cores, the semaphores, the traces and all registers but the flip mask are as before. -/
structure BytesStored (s t : State) : Prop where
  cores : t.cores = s.cores
  sems : t.sems = s.sems
  parts : t.parts = s.parts
  regs : ∀ k, k ≠ MemFlipT.reg → t.rget k = s.rget k

theorem BytesStored.refl : BytesStored s s := ⟨rfl, rfl, rfl, fun _ _ => rfl⟩

theorem BytesStored.trans (h : BytesStored s t) (h' : BytesStored t u) : BytesStored s u where
  cores := h'.cores.trans h.cores
  sems := h'.sems.trans h.sems
  parts := h'.parts.trans h.parts
  regs k hk := (h'.regs k hk).trans (h.regs k hk)

theorem BytesStored.core (h : BytesStored s t) (d : Nat) : t.core d = s.core d := by
  simp only [State.core, h.cores]

theorem BytesStored.part (h : BytesStored s t) (p : Nat) : t.part p = s.part p := by
  simp only [State.part, h.parts]

theorem State.tstore_bytesStored (a : Nat) (b : Byte) : BytesStored s (s.tstore a b) := ⟨rfl, rfl, rfl, fun _ _ => rfl⟩

theorem State.tflip_bytesStored (m : SMap Nat) : BytesStored s { s with tflip := m } := ⟨rfl, rfl, rfl, fun _ _ => rfl⟩

theorem State.disarm_bytesStored : BytesStored s (s.fsetB MemFlipT.arm false) where
  cores := s.fsetB_cores _ _
  sems := s.fsetB_sems _ _
  parts := s.fsetB_parts _ _
  regs k hk := s.rget_fsetB_ne MemFlipT.arm false k hk

/-- The count of corrupted codes is no performance event. -/
theorem State.bump_flip_bytesStored : BytesStored s (s.bump .mem 0 17 1) where
  cores := s.ctrAdd_cores .mem 0 17 1
  sems := s.ctrAdd_sems .mem 0 17 1
  parts := s.ctrAdd_parts .mem 0 17 1
  regs k _ := s.ctrAdd_rget .mem 0 17 1 k

/-- A byte written may meet an armed flip mask, which corrupts its stored code and is disarmed and counted (R442). -/
theorem State.twrite_bytesStored (a : Nat) (b : Byte) : BytesStored s (s.twrite a b) := by
  unfold State.twrite
  extract_lets s1
  split
  · have hflip : BytesStored s1 { s1 with tflip := SMap.putD s1.tflip a 0 (s1.fget MemFlipT.mask) } := State.tflip_bytesStored _
    exact (((State.tstore_bytesStored a b).trans hflip).trans State.disarm_bytesStored).trans State.bump_flip_bytesStored
  · exact State.tstore_bytesStored a b

theorem State.twriteN_bytesStored (a : Nat) (bs : List Byte) : BytesStored s (s.twriteN a bs) :=
  List.foldlRecOn (motive := fun t => BytesStored s t) _ _ BytesStored.refl fun _ h _ _ => h.trans (State.twrite_bytesStored _ _)

/-- A store to data memory is answered without an error. -/
theorem State.storeOut_data {x : Store} (hx : regionOf c x.addr = some .data) :
    s.storeOut c x = (false, s.twriteN (memOffset c .data x.addr) x.bytes) := by
  simp [State.storeOut, hx]

/-- Core c has drained its buffer; nothing else has changed but class T memory and what its writes count. -/
structure Drained (c : Nat) (s t : State) : Prop where
  core : t.core c = { s.core c with wbuf := [] }
  others : ∀ d, d ≠ c → t.core d = s.core d
  sems : t.sems = s.sems
  parts : t.parts = s.parts
  regs : ∀ k, k ≠ MemFlipT.reg → t.rget k = s.rget k

/-- The oldest store drains to data memory. -/
theorem State.drainOne_data {x : Store} {xs : List Store} (hbuf : (s.core c).wbuf = x :: xs) (hx : regionOf c x.addr = some .data)
    (ht : (s.part 0).vtTags = []) :
    ∃ t, s.drainOne c = (none, t) ∧ BytesStored (s.setCore c { s.core c with wbuf := xs }) t := by
  have hstored := State.twriteN_bytesStored (s := s.setCore c { s.core c with wbuf := xs }) (memOffset c .data x.addr) x.bytes
  refine ⟨_, ?_, hstored⟩
  have htags : (((s.setCore c { s.core c with wbuf := xs }).twriteN (memOffset c .data x.addr) x.bytes).part 0).vtTags = [] := by
    rw [hstored.part]; exact ht
  simp [State.drainOne, hbuf, State.storeOut_data hx, State.vtPass_untraced htags, State.vtDone_untraced htags]

/-- A buffer of stores to data memory drains to its end without an error. -/
theorem State.drainWhile_data (b : List Store) (hbuf : (s.core c).wbuf = b) (hb : ∀ x ∈ b, regionOf c x.addr = some .data)
    (ht : (s.part 0).vtTags = []) :
    ∃ t, s.drainWhile c (fun b => !b.isEmpty) true b.length = (none, t) ∧ Drained c s t := by
  induction b generalizing s with
  | nil => exact ⟨s, rfl, by rw [← hbuf], fun _ _ => rfl, rfl, rfl, fun _ _ => rfl⟩
  | cons x xs ih =>
    obtain ⟨u, hu, hstored⟩ := State.drainOne_data hbuf (hb x List.mem_cons_self) ht
    have hcore : u.core c = { s.core c with wbuf := xs } := by
      rw [hstored.core, State.core_setCore_same]
    obtain ⟨t, htd, hd⟩ := ih (s := u) (by rw [hcore]) (fun y hy => hb y (List.mem_cons_of_mem _ hy))
      (by rw [hstored.part]; exact ht)
    refine ⟨t, ?_, ?_, fun d hne => ?_, hd.sems.trans hstored.sems, hd.parts.trans hstored.parts, fun k hk => ?_⟩
    · simpa [State.drainWhile, hbuf, hu] using htd
    · rw [hd.core, hcore]
    · rw [hd.others d hne, hstored.core, State.core_setCore_ne _ _ hne]
    · exact (hd.regs k hk).trans (hstored.regs k hk)

theorem State.drainAll_data (hb : ∀ x ∈ (s.core c).wbuf, regionOf c x.addr = some .data) (ht : (s.part 0).vtTags = []) :
    ∃ t, s.drainAll c = (none, t) ∧ Drained c s t :=
  State.drainWhile_data _ rfl hb ht

/-! ## The entry into a handler -/

/-- Core c has entered its handler, with its buffer drained; the other cores and the semaphores are as before. -/
structure TrapEntered (c : Nat) (cause epc tval : Word) (s t : State) : Prop where
  core : t.core c = { s.core c with wbuf := [], trapPend := none }.trapped cause epc tval
  others : ∀ d, d ≠ c → t.core d = s.core d
  running : t.coreState c = 1
  states : ∀ d, d ≠ c → t.coreState d = s.coreState d
  shown : t.fget (SepStat.cause c) = cause.toNat % 256
  sems : t.sems = s.sems

theorem sepStatReg_ne_memFlipT (d : Nat) : SepStat.reg d ≠ MemFlipT.reg := by
  simp only [SepStat.reg, MemFlipT.reg]; omega

theorem sepStatReg_ne {d : Nat} (h : d ≠ c) : SepStat.reg d ≠ SepStat.reg c := by
  simp only [SepStat.reg]; omega

/-- What a trap does before the buffer drains, of a core in no sequence that does not wait. -/
def State.trapBegun (s : State) (c : Nat) : State :=
  ((s.setCore c { s.core c with atom := none, trapPend := none }).fsetB (SepStat.inAtom c) false).setCore c
    { s.core c with atom := none, trapPend := none, wait := .none }

/-- What a trap does after the buffer has drained, of a core outside a handler. -/
def State.trapEnded (s : State) (c : Nat) (cause epc tval : Word) : State :=
  ((s.fset (SepStat.cause c) (cause.toNat % 256)).setCore c ((s.core c).trapped cause epc tval)).setCoreState c 1

theorem State.endWait_none (hwait : (s.core c).wait = .none) : s.endWait c = s.setCore c { s.core c with wait := .none } := by
  simp only [State.endWait, hwait]

theorem State.trapBegun_eq (hwait : (s.core c).wait = .none) :
    ((s.setCore c { s.core c with atom := none, trapPend := none }).fsetB (SepStat.inAtom c) false).endWait c = s.trapBegun c := by
  rw [State.endWait_none (by rw [State.fsetB_core, State.core_setCore_same]; exact hwait), State.fsetB_core, State.core_setCore_same]
  rfl

theorem State.trapBegun_core (hatom : (s.core c).atom = none) (hwait : (s.core c).wait = .none) :
    (s.trapBegun c).core c = { s.core c with trapPend := none } := by
  rw [State.trapBegun, State.core_setCore_same, ← hatom, ← hwait]

theorem State.trapBegun_core_ne {d : Nat} (h : d ≠ c) : (s.trapBegun c).core d = s.core d := by
  rw [State.trapBegun, State.core_setCore_ne _ _ h, State.fsetB_core, State.core_setCore_ne _ _ h]

theorem State.trapBegun_rget {k : Nat} (h : k ≠ SepStat.reg c) : (s.trapBegun c).rget k = s.rget k := by
  rw [State.trapBegun, State.setCore_rget, State.rget_fsetB_ne _ _ _ _ h, State.setCore_rget]

/-- A synchronous trap of a core in no sequence that does not wait, whose buffer drains without an error and leaves it outside a handler. -/
theorem State.coreTrap_eq (hatom : (s.core c).atom = none) (hwait : (s.core c).wait = .none)
    (hd : (s.trapBegun c).drainAll c = (none, t)) (hin : (t.core c).inTrap = false) (cause epc tval : Word) :
    s.coreTrap c true cause epc tval = t.trapEnded c cause epc tval := by
  simp [State.coreTrap, hatom, State.trapBegun_eq hwait, hd, hin, State.trapEnded, CoreSt.trapped]

theorem State.trapEnded_coreState_ne {cause epc tval : Word} {d : Nat} (h : d ≠ c) :
    (s.trapEnded c cause epc tval).coreState d = s.coreState d := by
  rw [State.trapEnded, State.coreState_setCoreState_ne _ _ h, State.setCore_coreState]
  exact State.fget_fset_key _ _ _ _ (sepStatReg_ne h)

theorem State.trapEnded_cause {cause epc tval : Word} :
    (s.trapEnded c cause epc tval).fget (SepStat.cause c) = cause.toNat % 256 := by
  have hbeside := State.fget_fset_beside ((s.fset (SepStat.cause c) (cause.toNat % 256)).setCore c ((s.core c).trapped cause epc tval))
    (SepStat.state c) (SepStat.cause c) 1 (by simp [SepStat.state]) (by simp [SepStat.state]) (by simp [SepStat.cause])
    (by simp [SepStat.cause, SepStat.state])
  have hset := State.fget_fset_same s (SepStat.cause c) (cause.toNat % 256) (by simp [SepStat.cause]) (by simp [SepStat.cause])
  rw [State.trapEnded, State.setCoreState, hbeside, State.setCore_fget, hset]
  exact Nat.mod_mod _ _

/-- A synchronous trap of a core that is in no sequence, in no handler and does not wait enters the handler. -/
theorem State.coreTrap_entered (hatom : (s.core c).atom = none) (hwait : (s.core c).wait = .none) (hin : (s.core c).inTrap = false)
    (hb : ∀ x ∈ (s.core c).wbuf, regionOf c x.addr = some .data) (ht : (s.part 0).vtTags = []) (cause epc tval : Word) :
    TrapEntered c cause epc tval s (s.coreTrap c true cause epc tval) := by
  have hbegun := State.trapBegun_core hatom hwait
  obtain ⟨t, hdrain, hd⟩ := State.drainAll_data (s := s.trapBegun c) (c := c) (by rw [hbegun]; exact hb) ht
  have hcore : t.core c = { s.core c with trapPend := none, wbuf := [] } := by rw [hd.core, hbegun]
  rw [State.coreTrap_eq hatom hwait hdrain (by rw [hcore]; exact hin)]
  exact {
    core := by rw [State.trapEnded, State.setCoreState_core, State.core_setCore_same, hcore]
    others := fun d hne => by
      rw [State.trapEnded, State.setCoreState_core, State.core_setCore_ne _ _ hne, State.fset_core, hd.others d hne,
        State.trapBegun_core_ne hne]
    running := State.coreState_setCoreState_same _ _ _
    states := fun d hne => by
      have hkept : t.rget (SepStat.reg d) = s.rget (SepStat.reg d) :=
        (hd.regs _ (sepStatReg_ne_memFlipT d)).trans (State.trapBegun_rget (sepStatReg_ne hne))
      rw [State.trapEnded_coreState_ne hne]
      simp only [State.coreState, State.fget, SepStat.state, hkept]
    shown := State.trapEnded_cause
    sems := hd.sems }

/-- An instruction that raises a trap outside a handler is done when the handler has been entered. -/
theorem CoreReady.settle_trap {w cause epc tval : Word} (h : CoreReady s c w) {body : Body}
    (hb : body (s.core c).pc (s.counted c w) = (s.counted c w, .trap cause epc tval)) (hatom : (s.core c).atom = none)
    (hwait : (s.core c).wait = .none) (hin : (s.core c).inTrap = false) (hbuf : ∀ x ∈ (s.core c).wbuf, regionOf c x.addr = some .data) :
    TrapEntered c cause epc tval (s.counted c w) (s.issue c true w body).settle := by
  have hcore := h.counted_core
  have htrace : ((s.counted c w).part 0).vtTags = [] := by rw [h.counted_only.rest]; exact h.traceless
  have htrap : TrapEntered c cause epc tval (s.counted c w) ((s.counted c w).coreTrap c true cause epc tval) :=
    State.coreTrap_entered (by simp [hcore, CoreSt.passed, hatom]) (by rw [hcore]; exact hwait) (by rw [hcore]; exact hin)
      (by rw [hcore]; exact hbuf) htrace cause epc tval
  have hidle : (((s.counted c w).coreTrap c true cause epc tval).core c).Idle := by
    rw [htrap.core, hcore]
    exact ⟨h.noHalt, rfl, h.noStep, h.idle.noStepAsked⟩
  rw [h.issue, hb, State.follow_trap htrace, State.countHalt_none hidle.noHalt, State.settle_of_quiet]
  · exact htrap
  · refine State.quiet_of_idle h.quiet (fun d hd => (htrap.others d hd).trans (h.counted_only.others d hd)) (fun d hd => ?_)
      htrap.running hidle
    rw [htrap.states d hd, h.counted_only.rest]
    rfl

end Trap

/-! ## RETT -/

variable {s : State} {c : CoreN}

theorem stepsOf_rett : stepsOf (wbits (encI 0x39 0 0 0) 26 6) = 1 := stepsOf_encI (by omega) (by omega) (by omega)

theorem bodyRett_inTrap {pc : Word} (hin : (s.core c).inTrap = true) :
    bodyRett c pc s = (s.setCore c { s.core c with ie := (s.core c).pie, inTrap := false }, .go (s.core c).epc) := by
  simp [bodyRett, hin]

theorem bodyRett_outside {pc : Word} (hin : (s.core c).inTrap = false) : bodyRett c pc s = (s, .trap 1 pc (encI 0x39 0 0 0)) := by
  simp [bodyRett, hin, illegal, trapAt, tIllegal]

/-- R394: RETT in a handler. -/
theorem CoreReady.rett_inTrap (h : CoreReady s c (encI 0x39 0 0 0)) (hin : (s.core c).inTrap = true) :
    Answers (.rett c) s fun t =>
      t.core c = { s.core c with ie := (s.core c).pie, inTrap := false }.passed 1 (s.core c).epc ∧ OnlyCore c s t := by
  have hcore := h.counted_core
  rw [stepsOf_rett] at hcore
  have hbody := bodyRett_inTrap (s := s.counted c (encI 0x39 0 0 0)) (pc := (s.core c).pc) (by rw [hcore]; exact hin)
  have honly := h.counted_only.setCore { (s.counted c (encI 0x39 0 0 0)).core c with
    ie := ((s.counted c (encI 0x39 0 0 0)).core c).pie, inTrap := false }
  refine ⟨_, rfl, ?_⟩
  rw [h.settle_go hbody honly (by rw [State.core_setCore_same, hcore]; exact ⟨h.noHalt, h.noTrap, h.noStep, h.idle.noStepAsked⟩)]
  refine ⟨?_, (honly.setCore _).onlyCore h.counted_sems⟩
  rw [State.core_setCore_same, State.core_setCore_same, hcore]
  rfl

/-- R394: RETT outside a handler raises ILLEGAL. -/
theorem CoreReady.rett_outside (h : CoreReady s c (encI 0x39 0 0 0)) (hatom : (s.core c).atom = none) (hin : (s.core c).inTrap = false)
    (hbuf : ∀ x ∈ (s.core c).wbuf, regionOf c x.addr = some .data) (hwait : (s.core c).wait = .none) :
    Answers (.rett c) s fun t => TrapEntered c 1 (s.core c).pc (encI 0x39 0 0 0) (s.counted c (encI 0x39 0 0 0)) t :=
  ⟨_, rfl, h.settle_trap (bodyRett_outside (by rw [h.counted_core]; exact hin)) hatom hwait hin hbuf⟩

/-- Settles O50: RETT in a handler moves the pc to EPC; outside one it is a synchronous trap, whose entry drains the buffer. -/
theorem returnFromTrap : Obligations.ReturnFromTrap := by
  unfold Obligations.ReturnFromTrap
  refine ⟨fun c s h _ hin => h.rett_inTrap hin, fun c s h hatom hin hbuf hwait => ?_⟩
  obtain ⟨t, ht, htrap⟩ := h.rett_outside hatom hin (fun x hx => (hbuf x hx).1) hwait
  refine ⟨t, ht, ?_, htrap.running, htrap.shown, htrap.sems.trans h.counted_sems⟩
  rw [htrap.core, h.counted_core, stepsOf_rett]
  simp [CoreSt.passed, CoreSt.trapped, hatom, h.noTrap]

end Sys2Proof.Machine
end
